-- ==== Sys2Proof/Word.lean ====
section
/-! DEFINITION. The word types of the G96 (spec/01_machine.md R15, R16, R20; spec/00_scope.md R1): the widths of
its registers and addresses, and the plainest reading of a word as a number. -/

namespace Sys2Proof

/-- A 64-bit scalar register, system register or memory double word (R15). -/
abbrev Word := BitVec 64

/-- A 32-bit instruction word (R232). -/
abbrev IWord := BitVec 32

/-- A 512-bit vector register, channel message or engine command (R15, R17, R338). -/
abbrev Vec := BitVec 512

/-- One byte (R1). -/
abbrev Byte := BitVec 8

/-- A 16-bit lane mask (R15). -/
abbrev Mask := BitVec 16

/-- A 48-bit virtual address (R20). -/
abbrev VAddr := BitVec 48

/-- The low `w` bits of `x`, read as two's complement (`Sgn` of R255 at width `w`). -/
def sgnN (w x : Nat) : Int :=
  let y := x % 2 ^ w
  if 2 * y < 2 ^ w then (y : Int) else (y : Int) - (2 ^ w : Nat)

/-- An integer cut to `w` bits (`mod 2^w`, R255). -/
def wrapN (w : Nat) (z : Int) : Nat := (z % (2 ^ w : Nat)).toNat

/-- Bits `[hi:lo]` of `x` (R1). -/
def bitsOf (x hi lo : Nat) : Nat := x / 2 ^ lo % 2 ^ (hi + 1 - lo)

/-- Bit `n` of `x` (R1). -/
def bitOf (x n : Nat) : Bool := x / 2 ^ n % 2 == 1

end Sys2Proof
end

