-- ==== Sys2Proof/Syntax.lean ====
section
/-! DEFINITION. The steps of the G96 as syntax: one constructor of `Instr` per row of spec/opcode_table.json. The
first 253 are instruction words (spec/11 to 16), the rest are the machine's own steps and the acts of its firmware
and of the world outside it (spec/95_what_each_step_holds.md); such a step carries as operands the choices that
arbitration, firmware or the outside makes. -/

namespace Sys2Proof

/-! ## Operand types -/

/-- A scalar register `s0` to `s31` (R239). -/
abbrev SReg := Fin 32
/-- A predicate register `k0` to `k7`. -/
abbrev KReg := Fin 8
/-- A mask register `m0` to `m7`. -/
abbrev MReg := Fin 8
/-- A vector field: 0 to 23 name `v0` to `v23`, 24 to 31 the channels `ch0` to `ch7` (Table 11-3). -/
abbrev VFld := Fin 32
/-- A vector field that may not name a channel (R266, R273, R296). -/
abbrev VReg := Fin 24

/-- Element widths 8, 16, 32, 64. -/
inductive Width where | w8 | w16 | w32 | w64
  deriving DecidableEq, Repr
/-- Widths 32 and 64. -/
inductive WW where | w32 | w64
  deriving DecidableEq, Repr
/-- Widths 8, 16, 32 (zero-extending forms, unpacks). -/
inductive NW where | w8 | w16 | w32
  deriving DecidableEq, Repr
/-- Source widths 16, 32, 64 of `vpack`. -/
inductive PW where | w16 | w32 | w64
  deriving DecidableEq, Repr
/-- Integer conditions of Table 12-11. -/
inductive Cond where | eq | ne | lt | ge | ltu | geu
  deriving DecidableEq, Repr
/-- Floating-point conditions of Table 13-9. -/
inductive FCond where | eq | ne | lt | le | gt | ge | un
  deriving DecidableEq, Repr
/-- FP32 or FP64. -/
inductive FTy where | f32 | f64
  deriving DecidableEq, Repr
/-- Element types of reductions and scans (Table 13-6, t). -/
inductive RedTy where | i32 | i64 | f32 | f64
  deriving DecidableEq, Repr
/-- Source and destination of `vsat` (Table 13-7). -/
inductive SatSel where | h8 | w8 | w16 | d32
  deriving DecidableEq, Repr
/-- Formats of `vfcvt`, codes 1 to 11 of Table 1-10. -/
inductive CvFmt where | i8 | u8 | i16 | i32 | i64 | fp8a | fp8b | f16 | bf16 | f32 | f64
  deriving DecidableEq, Repr
/-- Formats of `vfcls` and `vfround`, codes 8 to 11. -/
inductive FFmt where | f16 | bf16 | f32 | f64
  deriving DecidableEq, Repr
/-- Rounding field of `vfround` (R293). -/
inductive RndSel where | fpctl | rtz | rup | rdn
  deriving DecidableEq, Repr
/-- Element formats of register blocks (Table 14-5, c). -/
inductive BFmt where | i8 | fp8a | fp8b | i4 | tern
  deriving DecidableEq, Repr
/-- Ordering and barrier scopes (Table 1-1). -/
inductive Scope where | core | quad | die | pkg | pod
  deriving DecidableEq, Repr
/-- Scopes of the four barriers without operands (Table 15-16). -/
inductive BScope where | core | quad | die | pkg
  deriving DecidableEq, Repr
/-- The three engines of a core (R335). -/
inductive Eng where | mx | cp | rl
  deriving DecidableEq, Repr
/-- The word that `eseq` reads (R336). -/
inductive RingWord where | w0 | w1 | w2
  deriving DecidableEq, Repr

/-! ## Operands of the machine's own steps -/

/-- What an engine does next on its running command: take and check the head of its queue (R339), start the next
item (R202), or move item `i` on by one stage. -/
inductive EStep where
  | start
  | startItem
  | item (i : Nat)
  deriving DecidableEq, Repr

/-- A direction of a Hatband port (R176). -/
inductive Dir where | outward | inward
  deriving DecidableEq, Repr

/-- A role of a Hatband port (R175). -/
inductive Role where | drawer | peer | unused
  deriving DecidableEq, Repr

/-- One slot table entry (Table 8-4). -/
inductive SlotOwner where
  | idle
  | pool (die : Nat)
  | route (ctx handle fwd : Nat)
  | transit
  deriving DecidableEq, Repr

/-- A Hatband packet: the header of Table 8-2, its payload in steps of 32 bytes, and the CRC that its header beat carries
(R178). -/
structure Packet where
  type    : Nat
  len     : Nat
  cap     : Nat
  dstPkg  : Nat
  srcPkg  : Nat
  txid    : Nat
  srcTile : Nat
  addr    : Nat
  payload : List Byte
  crc     : BitVec 64
  /-- A route packet's stamp (R349), and whether the packet is its command's last. -/
  stamp   : Option (Nat × Bool)
  /-- The bits of the payload that a masked store writes, none meaning all (R78, R313; log entry 30). -/
  keep    : List Byte := []
  /-- Of route data: the context and handle of the route hold at its source that owns the slots it travels in (R186; log entry
  99). -/
  route   : Option (Nat × Nat) := none
  deriving DecidableEq, Repr

/-- The Crown's answer to a hold request (R321 to R325): refused for want of room or a path (STATUS 3, 5 or 6), or
placed at a virtual address with its frames, in slots from a first out-slot, or as a group. -/
inductive Placement where
  | refuse (status : Nat)
  | range (va : Nat) (frames : List Nat)
  | route (first : Nat)
  | group
  deriving DecidableEq, Repr

/-- What a soft error strikes (R208, Table 9-6). -/
inductive Upset where
  | memory (pa : Nat)
  | tag (granule : Nat)
  /-- A word of a slot's registers: scalar `i` is word `i`, 64-bit element `e` of vector `d` word `32 + 8 * d + e`. -/
  | register (tile slot word : Nat)
  | accumulator (tile acc row col : Nat)
  | firmware
  deriving DecidableEq, Repr

/-- A host access through the firmware window (R161, R162). -/
inductive WindowOp where
  | read (offset : Nat)
  | write (offset : Nat) (value : Byte)
  deriving DecidableEq, Repr

/-- What bring-up fixes at a package reset (R8, R21, R175, R182): the package number, the packages of the pod, each
port's role and capacity of its drawer in bytes, and the pod routing table: packages with the ports that it names. -/
structure BringUp where
  pkg     : Nat
  pod     : List Nat
  roles   : List Role
  drawerBytes : List Nat
  routing : List (Nat × Nat)
  /-- Pages of the physical function's reserve for shadow versions (R211). -/
  reserve : Nat := 2 ^ 20
  deriving DecidableEq, Repr

/-- A page that the driver has the Crown map into a new context: for the launch image and parameter blocks, of generation 0 (R25,
R146), or a page of another package with the generation it has there (R144). `log` is the base-2 logarithm of its bytes. -/
structure MapPage where
  va  : Nat
  pa  : Nat
  log : Nat
  gen : Nat
  r   : Bool
  w   : Bool
  x   : Bool
  deriving DecidableEq, Repr

/-- A creation record (Table 7-2) with the pages that the driver has mapped with it. -/
structure Creation where
  words : List Word
  pages : List MapPage
  deriving DecidableEq, Repr

/-- A packet with the port it comes in at. -/
structure PortPacket where
  port : Nat
  pkt  : Packet
  deriving DecidableEq, Repr

/-- One contribution of a member package to a relay round, by the port it arrives on (R52, R192). -/
structure Contribution where
  port   : Nat
  member : Nat
  kind   : Nat
  fmt    : Nat
  elems  : List Nat
  flags  : BitVec 8
  lost   : Bool
  deriving DecidableEq, Repr

/-! ## The instructions and steps -/

/-- One constructor per row of spec/opcode_table.json. Field order is that of the syntax line; a guard stands last. -/
inductive Instr where
  -- major 0x01, register-register ALU (R256)
  | add (d a b : SReg) (g : KReg)
  | sub (d a b : SReg) (g : KReg)
  | and (d a b : SReg) (g : KReg)
  | or (d a b : SReg) (g : KReg)
  | xor (d a b : SReg) (g : KReg)
  | andn (d a b : SReg) (g : KReg)
  | sll (d a b : SReg) (g : KReg)
  | srl (d a b : SReg) (g : KReg)
  | sra (d a b : SReg) (g : KReg)
  | min (d a b : SReg) (g : KReg)
  | max (d a b : SReg) (g : KReg)
  | minu (d a b : SReg) (g : KReg)
  | maxu (d a b : SReg) (g : KReg)
  | slt (d a b : SReg) (g : KReg)
  | sltu (d a b : SReg) (g : KReg)
  -- major 0x02, register-immediate ALU (R257)
  | addi (d a : SReg) (imm : BitVec 12)
  | andi (d a : SReg) (imm : BitVec 12)
  | ori (d a : SReg) (imm : BitVec 12)
  | xori (d a : SReg) (imm : BitVec 12)
  | slli (d a : SReg) (sh : Fin 64)
  | srli (d a : SReg) (sh : Fin 64)
  | srai (d a : SReg) (sh : Fin 64)
  | slti (d a : SReg) (imm : BitVec 12)
  -- major 0x03, multiply and divide (R258)
  | mul (d a b : SReg) (g : KReg)
  | mulh (d a b : SReg) (g : KReg)
  | mulhu (d a b : SReg) (g : KReg)
  | mulhm (d a b : SReg) (g : KReg)
  | div (d a b : SReg) (g : KReg)
  | divu (d a b : SReg) (g : KReg)
  | rem (d a b : SReg) (g : KReg)
  | remu (d a b : SReg) (g : KReg)
  -- major 0x04, bit manipulation (R259, R260)
  | clz (d a : SReg) (g : KReg)
  | ctz (d a : SReg) (g : KReg)
  | popc (d a : SReg) (g : KReg)
  | brev (d a : SReg) (g : KReg)
  | sextB (d a : SReg) (g : KReg)
  | sextH (d a : SReg) (g : KReg)
  | sextW (d a : SReg) (g : KReg)
  | zextB (d a : SReg) (g : KReg)
  | zextH (d a : SReg) (g : KReg)
  | zextW (d a : SReg) (g : KReg)
  | bfx (d a b : SReg) (g : KReg)
  | bfxu (d a b : SReg) (g : KReg)
  | bfi (d a b : SReg) (g : KReg)
  -- majors 0x05 and 0x06 (R261)
  | li (d : SReg) (imm : BitVec 20)
  | lio (d : SReg) (imm : BitVec 20)
  -- major 0x07, pointers (R262 to R264)
  | ptrAdd (d a b : SReg) (g : KReg)
  | ptrSub (d a b : SReg) (g : KReg)
  | ptrSetFmt (d a b : SReg) (g : KReg)
  | ptrSetBlen (d a b : SReg) (g : KReg)
  | ptrSetGen (d a b : SReg) (g : KReg)
  | ptrSetVa (d a b : SReg) (g : KReg)
  | ptrGetFmt (d a : SReg) (g : KReg)
  | ptrGetBlen (d a : SReg) (g : KReg)
  | ptrGetGen (d a : SReg) (g : KReg)
  | ptrGetVa (d a : SReg) (g : KReg)
  | ptrChk (d : KReg) (a b : SReg) (g : KReg)
  -- majors 0x08 and 0x0E, compares and predicates (R265)
  | cmp (c : Cond) (d : KReg) (a b : SReg) (g : KReg)
  | kand (d a b : KReg) (g : KReg)
  | kor (d a b : KReg) (g : KReg)
  | kxor (d a b : KReg) (g : KReg)
  | knot (d a : KReg) (g : KReg)
  | kset (d : KReg) (v : Bool) (g : KReg)
  -- major 0x09, transfers (R266, R267)
  | vbcast (w : Width) (d : VReg) (a : SReg) (g : KReg)
  | vins (w : Width) (d : VReg) (a b : SReg) (g : KReg)
  | sel (d : SReg) (k : KReg) (a b : SReg) (g : KReg)
  | vext (w : Width) (d : SReg) (a : VReg) (b : SReg) (g : KReg)
  | vextU (w : NW) (d : SReg) (a : VReg) (b : SReg) (g : KReg)
  | mtokAny (d : KReg) (a : MReg) (g : KReg)
  | mtokAll (d : KReg) (a : MReg) (g : KReg)
  | mtokAllD (d : KReg) (a : MReg) (g : KReg)
  | ktom (d : MReg) (a : KReg) (g : KReg)
  | mtos (d : SReg) (a : MReg) (g : KReg)
  | stom (d : MReg) (a : SReg) (g : KReg)
  -- majors 0x0A to 0x0E, control flow (R268 to R272, R265)
  | br (k : KReg) (off : BitVec 21)
  | brN (k : KReg) (off : BitVec 21)
  | jmp (off : BitVec 24)
  | call (off : BitVec 24)
  | jr (a : SReg) (g : KReg)
  | callr (a : SReg) (g : KReg)
  | ret (g : KReg)
  | loop (d : SReg) (off : BitVec 12)
  | loopP (d : SReg) (off : BitVec 12)
  | cmpi (c : Cond) (d : KReg) (a : SReg) (imm : BitVec 12)
  -- major 0x10, vector integer (R275)
  | vadd (w : Width) (d a b : VFld) (g : MReg)
  | vsub (w : Width) (d a b : VFld) (g : MReg)
  | vmul (w : Width) (d a b : VFld) (g : MReg)
  | vmulh (w : Width) (d a b : VFld) (g : MReg)
  | vmulhu (w : Width) (d a b : VFld) (g : MReg)
  | vmad (w : Width) (d : VReg) (a b : VFld) (g : MReg)
  | vmin (w : Width) (d a b : VFld) (g : MReg)
  | vmax (w : Width) (d a b : VFld) (g : MReg)
  | vminu (w : Width) (d a b : VFld) (g : MReg)
  | vmaxu (w : Width) (d a b : VFld) (g : MReg)
  | vabs (w : Width) (d a : VFld) (g : MReg)
  -- major 0x11, shifts and immediates (R276)
  | vshl (w : Width) (d a b : VFld) (g : MReg)
  | vshr (w : Width) (d a b : VFld) (g : MReg)
  | vsra (w : Width) (d a b : VFld) (g : MReg)
  | vshlImm (w : Width) (d a : VFld) (sh : Fin 32) (g : MReg)
  | vshrImm (w : Width) (d a : VFld) (sh : Fin 32) (g : MReg)
  | vsraImm (w : Width) (d a : VFld) (sh : Fin 32) (g : MReg)
  | vshlImmHi (d a : VFld) (sh : Fin 32) (g : MReg)
  | vshrImmHi (d a : VFld) (sh : Fin 32) (g : MReg)
  | vsraImmHi (d a : VFld) (sh : Fin 32) (g : MReg)
  | vaddi (w : Width) (d a : VFld) (imm : BitVec 5) (g : MReg)
  | vli (w : Width) (d : VFld) (imm : BitVec 5) (g : MReg)
  -- major 0x12, logic and masks (R277, R278)
  | vand (d a b : VFld) (g : MReg)
  | vor (d a b : VFld) (g : MReg)
  | vxor (d a b : VFld) (g : MReg)
  | vandn (d a b : VFld) (g : MReg)
  | mand (d a b : MReg)
  | mor (d a b : MReg)
  | mxor (d a b : MReg)
  | mnot (d a : MReg)
  | mpop (d : SReg) (a : MReg)
  | mfirst (d : SReg) (a : MReg)
  -- major 0x13, integer compare (R279)
  | vcmp (c : Cond) (w : WW) (d : MReg) (a b : VFld) (g : MReg)
  -- major 0x14, cross-lane (R280 to R283)
  | vperm (w : Width) (z : Bool) (d a b : VFld) (g : MReg)
  | vshuf (w : Width) (z : Bool) (d : VReg) (a b : VFld) (g : MReg)
  | vrot (w : Width) (z : Bool) (d a : VFld) (b : SReg) (g : MReg)
  | vcompress (w : Width) (d a : VFld) (b : MReg) (g : MReg)
  | vexpand (w : Width) (d a : VFld) (b : MReg) (g : MReg)
  | vredAdd (t : RedTy) (z : Bool) (d : SReg) (a : VFld) (g : MReg)
  | vredMin (t : RedTy) (z : Bool) (d : SReg) (a : VFld) (g : MReg)
  | vredMax (t : RedTy) (z : Bool) (d : SReg) (a : VFld) (g : MReg)
  | vredMinu (t : WW) (z : Bool) (d : SReg) (a : VFld) (g : MReg)
  | vredMaxu (t : WW) (z : Bool) (d : SReg) (a : VFld) (g : MReg)
  | vredAnd (t : WW) (z : Bool) (d : SReg) (a : VFld) (g : MReg)
  | vredOr (t : WW) (z : Bool) (d : SReg) (a : VFld) (g : MReg)
  | vredXor (t : WW) (z : Bool) (d : SReg) (a : VFld) (g : MReg)
  | vscanAdd (t : RedTy) (z : Bool) (d a : VFld) (g : MReg)
  -- major 0x15, pack, saturate, dot4 (R284, R285)
  | vsatSigned (x : SatSel) (d a : VFld) (g : MReg)
  | vsatUnsigned (x : SatSel) (d a : VFld) (g : MReg)
  | vpackI (x : PW) (d a b : VFld) (g : MReg)
  | vpackU (x : PW) (d a b : VFld) (g : MReg)
  | vunpackLoI (x : NW) (d a : VFld) (g : MReg)
  | vunpackHiI (x : NW) (d a : VFld) (g : MReg)
  | vunpackLoU (x : NW) (d a : VFld) (g : MReg)
  | vunpackHiU (x : NW) (d a : VFld) (g : MReg)
  | vdot4 (ua ub : Bool) (d : VReg) (a b : VFld) (g : MReg)
  | vdot4Sat (ua ub : Bool) (d : VReg) (a b : VFld) (g : MReg)
  -- major 0x16, floating point (R286 to R288)
  | vfadd (t : FTy) (d a b : VFld) (g : MReg)
  | vfsub (t : FTy) (d a b : VFld) (g : MReg)
  | vfmul (t : FTy) (d a b : VFld) (g : MReg)
  | vfdiv (t : FTy) (d a b : VFld) (g : MReg)
  | vfsqrt (t : FTy) (d a : VFld) (g : MReg)
  | vfmin (t : FTy) (d a b : VFld) (g : MReg)
  | vfmax (t : FTy) (d a b : VFld) (g : MReg)
  | vfabs (t : FTy) (d a : VFld) (g : MReg)
  | vfneg (t : FTy) (d a : VFld) (g : MReg)
  | vfcmp (c : FCond) (t : FTy) (d : MReg) (a b : VFld) (g : MReg)
  -- major 0x17, FMA family (R289, R290)
  | vfma (t : FTy) (d : VReg) (a b : VFld) (g : MReg)
  | vfms (t : FTy) (d : VReg) (a b : VFld) (g : MReg)
  | vfnma (t : FTy) (d : VReg) (a b : VFld) (g : MReg)
  | vfnms (t : FTy) (d : VReg) (a b : VFld) (g : MReg)
  | vfdot2 (d : VReg) (a b : VFld) (g : MReg)
  -- major 0x18, convert and classify (R291 to R293)
  | vfcvt (q : Fin 4) (dst src : CvFmt) (d a : VFld) (g : MReg)
  | vfcls (f : FFmt) (d a : VFld) (g : MReg)
  | vfround (m : RndSel) (f : FFmt) (d a : VFld) (g : MReg)
  -- major 0x19, SFU functions (R294)
  | vrcp (d a : VFld) (g : MReg)
  | vrsq (d a : VFld) (g : MReg)
  | vexp2 (d a : VFld) (g : MReg)
  | vlog2 (d a : VFld) (g : MReg)
  | vsin (d a : VFld) (g : MReg)
  | vcos (d a : VFld) (g : MReg)
  | vtanh (d a : VFld) (g : MReg)
  | vsig (d a : VFld) (g : MReg)
  -- major 0x1A, exact rationals (R298 to R301)
  | qsel (idx : Fin 16)
  | qadd (d a b : VFld) (g : MReg)
  | qsub (d a b : VFld) (g : MReg)
  | qneg (d a : VFld) (g : MReg)
  | qmul (d a b : VFld) (g : MReg)
  | qval (d a : VFld) (g : MReg)
  | qdig (d a b : VFld) (g : MReg)
  | qcmpEq (d : MReg) (a b : VFld) (g : MReg)
  | qcmpNe (d : MReg) (a b : VFld) (g : MReg)
  | qenc (d a b : VFld) (g : MReg)
  | qinv (d a : VFld) (g : MReg)
  | qdiv (d a b : VFld) (g : MReg)
  | qdec (n m : VReg) (a : VFld) (g : MReg)
  -- major 0x1B, scaled blocks (R303 to R308)
  | bamax (d : SReg) (a : VFld) (g : MReg)
  | bscaleF32 (d : VReg) (a b : VFld) (g : MReg)
  | bscaleI32 (d : VReg) (a b : VFld) (g : MReg)
  | bquant (c : BFmt) (d a : VFld)
  | bdeq (c : BFmt) (d a : VFld) (g : MReg)
  | baddq (c : BFmt) (d a b : VFld)
  -- majors 0x20 and 0x21 (R311)
  | ld (size : Width) (u rlx : Bool) (d base : SReg) (off : BitVec 8) (g : KReg)
  | st (size : Width) (rlx : Bool) (base : SReg) (off : BitVec 8) (d : SReg) (g : KReg)
  -- majors 0x22 and 0x23 (R312, R313)
  | vld (e : Width) (rlx : Bool) (v : VFld) (base : SReg) (g : MReg)
  | vldS (e : Width) (rlx : Bool) (v : VFld) (base aux : SReg) (g : MReg)
  | vldF (rlx : Bool) (v : VFld) (base : SReg) (g : MReg)
  | vst (e : Width) (rlx : Bool) (base : SReg) (v : VFld) (g : MReg)
  | vstS (e : Width) (rlx : Bool) (base : SReg) (v : VFld) (aux : SReg) (g : MReg)
  | vstF (rlx : Bool) (base : SReg) (v : VFld) (g : MReg)
  -- major 0x24 (R314 to R316)
  | vgath (e : WW) (rlx : Bool) (v : VFld) (base : SReg) (aux : VFld) (g : MReg)
  | vscat (e : WW) (rlx : Bool) (base : SReg) (aux v : VFld) (g : MReg)
  | vldr (k : KReg) (v : VFld) (base aux : SReg)
  | vldBlk (rlx : Bool) (v : VFld) (base aux : SReg)
  | vstBlk (rlx : Bool) (base : SReg) (v : VFld) (aux : SReg)
  -- major 0x25 (R317)
  | ldSync (w : Width) (d a b : SReg) (g : KReg)
  | ldSyncU (w : NW) (d a b : SReg) (g : KReg)
  | gtagRd (d a : SReg) (g : KReg)
  | gtagSet (a b : SReg) (g : KReg)
  | gtagClr (a : SReg) (g : KReg)
  | vldSync (d : VFld) (a b : SReg) (g : MReg)
  -- major 0x26 (R319)
  | rsv (w : WW) (d a : SReg) (g : KReg)
  | wrv (w : WW) (a b : SReg) (g : KReg)
  | amoAdd (w : WW) (d a b : SReg) (g : KReg)
  | amoAnd (w : WW) (d a b : SReg) (g : KReg)
  | amoOr (w : WW) (d a b : SReg) (g : KReg)
  | amoXor (w : WW) (d a b : SReg) (g : KReg)
  | amoMin (w : WW) (d a b : SReg) (g : KReg)
  | amoMax (w : WW) (d a b : SReg) (g : KReg)
  | amoMinu (w : WW) (d a b : SReg) (g : KReg)
  | amoMaxu (w : WW) (d a b : SReg) (g : KReg)
  | amoSwap (w : WW) (d a b : SReg) (g : KReg)
  | amoCas (w : WW) (d a b : SReg) (g : KReg)
  -- major 0x27 (R320)
  | fence (s : Scope) (g : KReg)
  | fenceEng (s : Scope) (g : KReg)
  | pf (a : SReg) (g : KReg)
  -- major 0x28 (R321 to R326)
  | holdRng (d a b : SReg) (g : KReg)
  | holdLk (d a b : SReg) (g : KReg)
  | holdRt (d a b : SReg) (g : KReg)
  | holdGrp (d a b : SReg) (g : KReg)
  | renew (a b : SReg) (g : KReg)
  | life (d a : SReg) (g : KReg)
  | hinfo (d a : SReg) (g : KReg)
  -- major 0x29 (R327)
  | tick (d : SReg) (g : KReg)
  | tickw (a : SReg) (g : KReg)
  | dline (a : SReg) (g : KReg)
  -- major 0x2A (R328, R329)
  | msend (a : SReg) (b : VFld) (g : KReg)
  | chlen (d : SReg) (ch : Fin 8) (g : KReg)
  -- major 0x2B (R330)
  | bar (s : BScope) (g : KReg)
  | barPod (a b : SReg) (g : KReg)
  | done (a : SReg) (g : KReg)
  | probe (g : KReg)
  -- major 0x2C (R331 to R333)
  | hstart (d a b : SReg) (g : KReg)
  | hprot (d a b : SReg) (g : KReg)
  | hjoin (a : SReg) (g : KReg)
  | stop (g : KReg)
  | tid (d : SReg) (g : KReg)
  | launchGrid (a : SReg) (g : KReg)
  | launchPipe (a : SReg) (g : KReg)
  -- major 0x2D (R334 to R337)
  | enq (e : Eng) (d : SReg) (a : VFld) (g : KReg)
  | eseq (n : RingWord) (d a : SReg) (g : KReg)
  | ewait (a : SReg) (g : KReg)
  -- major 0x38 (R353 to R358)
  | sysrd (d : SReg) (n : Fin 2048) (g : KReg)
  | syswr (n : Fin 2048) (a : SReg) (g : KReg)
  | trap (d a : SReg) (g : KReg)
  | eret (g : KReg)
  | hcall (d a : SReg) (g : KReg)
  | dbg (g : KReg)
  | tlbinv (a : SReg) (g : KReg)
  -- steps of a core and its threads
  | rottabArm (tile : Nat) (w0 w1 w2 w3 : Word)
  | rottabShadowCheck (tile : Nat)
  | deadlineExpiry (tile slot : Nat)
  | impreciseFaultTaken (tile slot : Nat)
  | sfuServiceStart (quad : Nat)
  | sfuResult (quad : Nat)
  -- steps of an access
  | accessAtHome (req part : Nat)
  | loadValueReturn (req : Nat)
  | storeAck (req : Nat)
  | combiningEntryTimeout (tile slot granule : Nat)
  | atomicTermExpiry (word : Nat)
  | deferredRepresent (tile ticket : Nat)
  -- steps of a hold
  | holdRequestAtKeeper (die : Nat)
  | crownHoldPlacement (req : Nat) (p : Placement)
  | holdLapseMark (ctx idx : Nat)
  | lapseAtHome (ctx idx page : Nat)
  -- translation
  | tlbMissWalk (die ctx : Nat)
  | walkComplete (die walk : Nat)
  -- channels, messages, handlers
  | channelMessageArrival (launch chan : Nat)
  | channelCreditReturn (launch chan : Nat)
  | messagePlacement (dst idx : Nat)
  | containReport (idx : Nat)
  | slot11WakeSpill (tile : Nat)
  | slot11WakeReplay (tile : Nat)
  | slot12Wake (tile : Nat)
  -- barriers, probe, waits
  | barrierRelease (s : BScope) (tile : Nat)
  | staggerReady (tile : Nat)
  | podBarrierTick (key tick : Nat)
  | probeToken (launch : Nat)
  | poolwaitExpiry (tile slot : Nat)
  | timeWaitEnd (tile slot : Nat)
  -- engine commands
  | mxZero (tile : Nat) (e : EStep)
  | mxLdacc (tile : Nat) (e : EStep)
  | mxLoadw (tile : Nat) (e : EStep)
  | mxMma (tile : Nat) (e : EStep)
  | mxDrain (tile : Nat) (e : EStep)
  | mxSave (tile : Nat) (e : EStep)
  | mxRestore (tile : Nat) (e : EStep)
  | cpCopy (tile : Nat) (e : EStep)
  | cpFill (tile : Nat) (e : EStep)
  | cpRoute (tile : Nat) (e : EStep)
  | rlReduce (tile : Nat) (e : EStep)
  | rlBcast (tile : Nat) (e : EStep)
  | engineCommandComplete (tile : Nat) (e : Eng)
  | relayRoundSum (key frame : Nat) (remote : List Contribution)
  | gatewayBaddq (port : Nat) (code : BFmt) (blocks : List Vec)
  -- the Hatband
  | frameBoundary
  | slotTableArm (port : Nat) (dir : Dir) (entries : List (Nat × SlotOwner)) (frame : Nat)
  | outSlotDeparture (port : Nat)
  | readRequest (p : Packet)
  | readReply (p : Packet)
  | writePacket (p : Packet)
  | writeStatus (p : Packet)
  | reservationPacket (p : Packet)
  | activeMessagePacket (p : Packet)
  | routeData (p : PortPacket)
  | relayContribution (port : Nat) (p : Packet)
  | relayBroadcast (p : PortPacket)
  | podBarrierPacket (p : Packet)
  | retrainStart (port : Nat)
  | retrainResume (port : Nat) (applied : List Nat)
  | portResumeTimeout (port : Nat)
  -- banks, cache, errors
  | budgetPeriod
  | bankbudWrite (tile : Nat) (value : Word)
  | pfctlWrite (die : Nat) (value : Word)
  | carveChange (die kib : Nat)
  | scrubberRewrite (pa : Nat)
  -- package, boot, firmware
  | packageReset (b : BringUp)
  | timeBaseSet (ns : Nat)
  | timeBaseDiscipline (ppm : Int)
  | bootdb (value : Word)
  | svnRaise
  | watchdogExpiry
  | activationRecord (words : List Word)
  | activationProceed
  | activationDeferralTimeout
  | dumpRegistration (words : List Word)
  | thermalTrip
  | supplyFault
  -- contexts, rings, launches
  | contextCreation (c : Creation)
  | contextEnd (ctx : Nat)
  | ringRegistration (words : List Word)
  | commitTimeout (ctx : Nat)
  | gridLaunchRecord (ctx : Nat)
  | pipelineLaunchRecord (ctx : Nat)
  | heartbeat (ctx : Nat)
  | noOpRecord (ctx : Nat)
  | continuationRecord (ctx : Nat)
  | unassignedRecord (ctx : Nat)
  | launchDispatch (ctx : Nat) (cores : List Nat) (rottab : List Word)
  | coreCompletion (tile : Nat)
  | statusWordFromChild (launch child : Nat)
  | preempt (launch : Nat)
  | resumeLaunch (launch : Nat) (cores : List Nat) (rottab : List Word)
  | migrate (src dst life : Nat)
  -- observation
  | debugHalt (tile : Nat)
  | debugResume (tile : Nat)
  | debugStep (tile slot : Nat)
  | samplerStart (ctx : Nat) (words : List Word)
  | samplerStop (ctx : Nat) (words : List Word)
  | traceStart (ctx : Nat) (words : List Word)
  | traceStop (ctx : Nat) (words : List Word)
  | debugWrite (ctx : Nat) (words : List Word)
  | debugRead (ctx : Nat) (words : List Word)
  | samplerLatch (die : Nat)
  | attestationQuote (ctx : Nat) (nonce user : List Byte) (addr : Nat)
  | callDone (ctx : Nat) (answer : Word)
  | softError (u : Upset) (uncorrectable : Bool)
  | firmwareWindowAccess (op : WindowOp)
  | portTraining (port flight delay : Nat)
  deriving DecidableEq, Repr

end Sys2Proof
end

