-- ==== Sys2Proof/WellFormed.lean ====
section
/-! DEFINITION. Which terms of `Instr` an instruction word can stand for: the operand rules of the entries that the
operand types do not already hold (spec/11_isa_encoding.md R236, R240 and the entries of spec/12 to 16). -/

namespace Sys2Proof

/-- Bits in an element of this width. -/
def Width.bits : Width → Nat
  | .w8 => 8 | .w16 => 16 | .w32 => 32 | .w64 => 64
/-- Bits in an element of this width. -/
def WW.bits : WW → Nat
  | .w32 => 32 | .w64 => 64
/-- Bits in an element of this width. -/
def NW.bits : NW → Nat
  | .w8 => 8 | .w16 => 16 | .w32 => 32
/-- Bits in a source element of `vpack`. -/
def PW.bits : PW → Nat
  | .w16 => 16 | .w32 => 32 | .w64 => 64

/-- Element bits of a `vfcvt` format (Table 1-10). -/
def CvFmt.bits : CvFmt → Nat
  | .i8 | .u8 | .fp8a | .fp8b => 8
  | .i16 | .f16 | .bf16 => 16
  | .i32 | .f32 => 32
  | .i64 | .f64 => 64

/-- A vector field that names a channel (Table 11-3). -/
def isChan (v : VFld) : Bool := 24 ≤ v.val

/-- R236: a vector-class word whose destination is a channel requires guard `m0`. -/
def chanGuard (d : VFld) (g : MReg) : Bool := !isChan d || g == 0

/-- `vfcvt` writes only a part of its destination (R291): the destination elements are narrower. -/
def cvtNarrows (dest frm : CvFmt) : Bool := dest.bits < frm.bits

/-- The ratio of the two widths of a `vfcvt` (ρ of R291). -/
def cvtRatio (dest frm : CvFmt) : Nat := max dest.bits frm.bits / min dest.bits frm.bits

/-- The operand rules of the entries: true for exactly the terms that an instruction word encodes. The machine's own
steps carry no encoding and are well-formed as they stand. -/
def Instr.wf : Instr → Bool
  | .loop d _ | .loopP d _ => d != 0                                   -- Table 12-17
  | .vadd _ d _ _ g | .vsub _ d _ _ g | .vmul _ d _ _ g | .vmulh _ d _ _ g | .vmulhu _ d _ _ g
  | .vmin _ d _ _ g | .vmax _ d _ _ g | .vminu _ d _ _ g | .vmaxu _ d _ _ g | .vabs _ d _ g => chanGuard d g
  | .vshl _ d _ _ g | .vshr _ d _ _ g | .vsra _ d _ _ g => chanGuard d g
  | .vshlImm w d _ sh g | .vshrImm w d _ sh g | .vsraImm w d _ sh g => chanGuard d g && sh.val < w.bits   -- R276
  | .vshlImmHi d _ _ g | .vshrImmHi d _ _ g | .vsraImmHi d _ _ g => chanGuard d g
  | .vaddi _ d _ _ g | .vli _ d _ g => chanGuard d g
  | .vand d _ _ g | .vor d _ _ g | .vxor d _ _ g | .vandn d _ _ g => chanGuard d g
  | .vperm _ _ d _ _ g | .vrot _ _ d _ _ g | .vcompress _ d _ _ g | .vexpand _ d _ _ g => chanGuard d g
  | .vscanAdd _ _ d _ g => chanGuard d g
  | .vsatSigned _ d _ g | .vsatUnsigned _ d _ g | .vunpackLoI _ d _ g | .vunpackHiI _ d _ g
  | .vunpackLoU _ d _ g | .vunpackHiU _ d _ g => chanGuard d g
  | .vpackI _ d _ _ g | .vpackU _ d _ _ g => chanGuard d g
  | .vfadd _ d _ _ g | .vfsub _ d _ _ g | .vfmul _ d _ _ g | .vfdiv _ d _ _ g | .vfmin _ d _ _ g
  | .vfmax _ d _ _ g => chanGuard d g
  | .vfsqrt _ d _ g | .vfabs _ d _ g | .vfneg _ d _ g => chanGuard d g
  | .vfcvt q dest frm d _ g =>
    chanGuard d g && q.val < cvtRatio dest frm && !(cvtNarrows dest frm && isChan d)   -- R291, R273
  | .vfcls _ d _ g | .vfround _ _ d _ g => chanGuard d g
  | .vrcp d _ g | .vrsq d _ g | .vexp2 d _ g | .vlog2 d _ g | .vsin d _ g | .vcos d _ g | .vtanh d _ g
  | .vsig d _ g => chanGuard d g
  | .qadd d _ _ g | .qsub d _ _ g | .qmul d _ _ g | .qdig d _ _ g | .qenc d _ _ g | .qdiv d _ _ g => chanGuard d g
  | .qneg d _ g | .qval d _ g | .qinv d _ g => chanGuard d g
  | .qdec n m _ _ => n != m                                             -- R301
  | .bdeq _ d _ g => chanGuard d g
  | .ld size u _ _ _ _ _ => !(u && size == .w64)                        -- R311
  | .vld _ _ v _ g | .vldS _ _ v _ _ g | .vldF _ v _ g | .vgath _ _ v _ _ g | .vldSync v _ _ g => chanGuard v g
  | .holdRng d _ _ _ => 1 ≤ d.val && d.val ≤ 30                         -- Table 15-7
  | .sysrd d _ _ => d != 0                                              -- R243
  | _ => true

end Sys2Proof
end

