-- ==== Sys2Proof/Config.lean ====
section
/-! DEFINITION. What an implementation of the G96 fixes and the spec leaves open: constants of the placement of
firmware tables, and the free values, which are constants without a body so that no proof can see what they are. -/

namespace Sys2Proof.Config

/-! ## Fixed by the model (log entries name each) -/

/-- The physical address of firmware SRAM within the local map, inside the range of Table 1-8 that belongs to the I/O
die; the 96 MiB image window of R161 starts here (DESIGN CHOICE, log entry 3). -/
def fwBase : Nat := 0x80000000000

/-- Bytes of firmware SRAM behind the firmware window (R161: 96 MiB). -/
def fwBytes : Nat := 0x6000000

/-- Offset in firmware SRAM of the supervisor queue's ring: its last 512 KiB, below which the page tables lie (DESIGN CHOICE,
log entry 3). -/
def supOff : Nat := fwBytes - 0x80000

/-- Fuse: the key hash of R163. -/
opaque keyHash : List Byte

/-- Fuse: the unique device secret (R165). -/
opaque uds : List Byte

/-- Fuse: the minimum security version at manufacture (R163). -/
opaque fusedSvn : Nat

/-- DER of a certificate: signing key, subject's public point, measurements carried (R167, which gives no more of its
bytes). -/
opaque certificate : List Byte → List Byte → List Byte → List Byte

/-- The DeviceID certificate of the one-time store (R167). -/
opaque deviceIdCert : List Byte

/-- The flight in slots of the link that leaves a port of another package (R177: measured at training). -/
opaque linkFlight : Nat → Nat → Nat

/-- The program that the Crown has loaded into a gateway core from the carve-out, by the block format that it works in (R193,
which gives none of it; free value, log entry 46). -/
opaque gatewayProgram : Nat → Nat

/-! ## Free values -/

/-- The value of an SFU function on an FP32 input: function code of Table 13-12, input bits (R294 gives a bound and no
bits; free value, log entry 1). -/
opaque sfu : Nat → Nat → Nat

/-- The code that the Crown of an image loads into a context's Brim (R166: the spec does not say where it stands in the
image). -/
opaque brimCode : List Byte → Nat → List Byte

/-- The save layout of an image (R205 records it; the spec does not say where an image states it). -/
opaque saveLayout : List Byte → BitVec 16

/-- Where the firmware's own threads begin (R10: the spec gives no address). -/
opaque firmwareEntry : BitVec 48

/-- The grants of the firmware class that a save of a core, or its restore, takes (R171, R205: the save layout is the image's own;
free value, log entry 114). -/
opaque saveGrants : Nat

/-- How long a parked slot's register bank is scrubbed, in cycles (R208: the spec gives no time). -/
opaque scrubCycles : Nat

/-- What 16 bits read of a spill count that they cannot hold (R102; free value, log entry 76). -/
opaque spillField : Nat → BitVec 16

/-- The slot that a loss record names, by the drops it counts (Table 10-4 gives none; free value, log entry 96). -/
opaque lossSlot : Nat → BitVec 4

/-- A free value drawn by a step, by the counter `State.free` it advances. -/
opaque freeWord : Nat → BitVec 64

end Sys2Proof.Config
end

