-- ==== Sys2Proof/Machine/State.lean ====
section
/-! DEFINITION. The state of the machine: every piece of architectural state the spec names, as plain data, and the
machine right after package reset. INVENTORY.md lists each field with the rule that names it. -/

namespace Sys2Proof.Machine

/-! ## Faults the threads take, and stops of the model -/

/-- The fault codes of Table 9-1. -/
inductive Code where
  | debug | sched | lane | qdiv | align | format | pair | illegal | priv | xlate | tag | lapsed | deadline | barlate
  | pool | stall | engine | contain | redund | uncorr
  deriving DecidableEq, Repr

/-- What is written when a fault is taken (R195, R196): code, DETAIL, TRAPVAL, and for an imprecise report its
sequence number (R203). `terminal` marks the faults that Table 9-6 makes terminal. -/
structure FaultRec where
  code     : Code
  detail   : Nat
  val      : Nat
  impr     : Option Nat
  terminal : Bool
  deriving DecidableEq, Repr

/-- How a step of the model stops. -/
inductive Fault where
  /-- A fatal error stopped the package (R219): raised by `step`, and by the arm of every step of the machine
  but PACKAGE_RESET, once `State.fatal` holds a cause. Safe: the spec says the package stops and only a package reset resumes work. -/
  | packageStopped (cause : Nat)
  deriving DecidableEq, Repr

/-- Steps the model declines. -/
inductive Refusal where
  /-- An instruction that has no meaning yet, by its mnemonic: raised by an arm of `exec` only. Safe. -/
  | notModelled (mnemonic : String)
  /-- A step of the machine or an act of the outside that cannot take place in this state (its condition in the spec
  does not hold): raised by the meanings of the machine's own steps. Safe: the machine never makes that step there. -/
  | notEnabled (step : String)
  deriving DecidableEq, Repr

/-! ## Threads -/

/-- The register files of one thread (Table 1-5). `lost` lists the words whose error cannot be corrected (R208): scalar
`i` by `i`, 64-bit element `e` of vector `d` by `32 + 8 * d + e`. -/
structure Regs where
  s : Vector Word 32
  v : Vector Vec 24
  k : Vector Bool 8
  m : Vector Mask 8
  lost : List Nat
  deriving DecidableEq, Repr

/-- The waits of Table 5-1. A barrier's holds the flags sampled at the arrival (R54) and its cycle. -/
inductive Wait where
  | load (req : Nat)
  | accessSlot
  | sfu
  | engine
  | reservation
  | granule
  | channel
  | placement
  | barrier (s : BScope) (flags : BitVec 8) (at' : Nat)
  | podBarrier (key tick : Nat) (flags : BitVec 8)
  | join
  | time (target : Nat)
  | engineQueue
  | translation
  | keeper (req : Nat)
  | tlbInvalidate
  | pair
  | pool (since : Nat)
  | call
  | completion
  | probe
  | stagger (cycle : Nat)
  deriving DecidableEq, Repr

/-- A combining buffer entry (R74): its granule, the bytes it holds, its age, and what a failure would report. -/
structure Comb where
  granule : Nat
  bytes   : List (Nat × Byte)
  since   : Nat
  va      : Nat
  seq     : Nat
  deriving DecidableEq, Repr

/-- A failure of an access that awaits its report (R75, R310). `reg` is the register a failed relaxed load named: a
scalar below 32, a vector from 32. `seq` orders failures by program order. -/
structure Failure where
  fault : FaultRec
  reg   : Option Nat
  seq   : Nat
  plain : Bool
  deriving DecidableEq, Repr

/-- What has come back for an instruction that waits for words it will go on with: a payload, a descriptor, a request
or a keeper's answer; or a fault of it. -/
inductive Got where
  | words (ws : List Word)
  | fault (f : FaultRec)
  deriving DecidableEq, Repr

/-- A thread's part in a protected pair (R209): `handling` is the leading thread while its handler runs unprotected
(R210). -/
inductive PairRole where
  | alone
  | leading
  | trailing
  | handling
  deriving DecidableEq, Repr

/-- An operation in the store comparator (R209): its kind, the addresses it names, its data and its size. -/
structure Compared where
  kind : Nat
  addrs : List Nat
  data : List Nat
  size : Nat
  deriving DecidableEq, Repr

/-- What the store comparator has found for the leading thread's operation (R209, R210). -/
inductive Verdict where
  | waiting
  | agreed
  | differs (detail addr : Nat)
  deriving DecidableEq, Repr

/-- One hardware thread context (R10, R15, R18): its registers, its trap registers (Table 9-2), its budget (Table 5-6),
its wait, and what it has outstanding. -/
structure Thread where
  live     : Bool
  parked   : Bool
  pc       : VAddr
  /-- The address the instruction under way leaves in the program counter. -/
  npc      : VAddr
  regs     : Regs
  /-- While the second half of a pair runs: the registers as they stood before the pair (R235). -/
  view     : Option Regs
  /-- While the second half of a pair runs: DEADLINE's EN and LEFT as they stood before the pair. -/
  oldDl    : Option (Bool × BitVec 48)
  fpctl    : BitVec 4
  fpflags  : BitVec 8
  qprime   : BitVec 4
  dlEn     : Bool
  dlLeft   : BitVec 48
  /-- DEADLINE has run out and is to be taken at the next boundary (R118). -/
  dlDue    : Bool
  trapvec  : Word
  trapcause : Word
  trappc   : Word
  trapval  : Word
  wait     : Option Wait
  comb     : List Comb
  failures : List Failure
  /-- Headers of diverted messages whose CONTAIN is to be raised (R158). -/
  contain  : List Word
  /-- STALLs of messages not placed (R214): port, header. -/
  stalls   : List (Nat × Word)
  /-- The word of the atomic reservation the thread holds (R319). -/
  reserved : Option Nat
  role     : PairRole
  /-- The load-value queue of a trailing thread: the leading thread's loads by number, with their values as they come. -/
  lvq      : List (Nat × Option (List Byte))
  cmp      : Option (Compared × Verdict)
  /-- Channel messages popped and pushed by the instruction under way, by channel number in its launch (R17). -/
  pops     : List (Nat × Vec)
  pushes   : List (Nat × Vec)
  /-- No breakpoint or watch hits on the next instruction (R221). -/
  noHit    : Bool
  /-- Words fetched ahead of the program counter (R245). -/
  ibuf     : List (VAddr × IWord)
  /-- A walk's fault waiting for the access that missed: page number, XLATE code. -/
  walkFault : Option (Nat × Nat)
  /-- What an instruction under way has received. -/
  got      : Option Got
  /-- The time at which the instruction under way asked for the words that it reads first: its issue (R135). -/
  asked    : Nat
  /-- The page a translation wait has joined a walk for. -/
  missPage : Option Nat
  /-- The four rotation counters (R224). -/
  counters : Vector Word 4
  /-- The program order number of the thread's next access. -/
  seq      : Nat
  /-- That number when the thread started: accesses of a thread that ran in the slot before it have lower ones. -/
  born     : Nat
  /-- The cycle at which the scrub of a parked slot's register bank ends (R208). -/
  scrub    : Option Nat
  deriving DecidableEq, Repr

/-! ## Accesses in flight -/

/-- The party an access belongs to. -/
inductive Owner where
  | thread (key : Nat)
  | engine (tile : Nat) (e : Eng) (item : Nat)
  /-- A tile of another package, whose packet with a transaction tag came in at a port with a capability. -/
  | peer (pkg tile txid port cap : Nat)
  deriving DecidableEq, Repr

/-- The operation of an atomic (Table 15-5). -/
inductive AmoOp where
  | add | and | or | xor | min | max | minu | maxu | swap | cas
  deriving DecidableEq, Repr

/-- What an access does at its home. -/
inductive ReqKind where
  | load
  | store
  | storeMask (keep : List Byte)   -- a store of the bits that a mask sets, byte by byte of its buffer (R313)
  | tagRd
  | tagSet (seq : Nat)
  | tagClr
  | sync (seq : Nat)
  | rsv
  | wrv
  | amo (op : AmoOp) (operand compare : Nat)
  | lock (ctx hold : Nat)
  deriving DecidableEq, Repr

/-- Where one part of an access stands. -/
inductive Stage where
  | waiting                 -- on its way to its home
  | queued (ticket : Nat)   -- in a word's queue at the bank (R89, R105)
  | deferred (ticket since : Nat)   -- sent back, to be presented again (R105)
  | granted                 -- an atomic granted its word, its write to come (R90)
  | filling (line : Nat)    -- behind a drawer-cache fill (R189)
  | asked (txid port : Nat) -- a request for a reservation sent to another package, its grant awaited
  | sent (txid port : Nat)  -- as a packet, its answer awaited
  | done
  | failed
  deriving DecidableEq, Repr

/-- One part of an access (R71): the virtual address of its first byte, and the bytes it moves as pairs of physical
address and place in the buffer. -/
structure Part where
  va    : Nat
  moves : List (Nat × Nat)
  stage : Stage
  deriving DecidableEq, Repr

/-- How a completed access finishes: what its bytes are written to. -/
inductive Finish where
  | none
  | scalar (d : Nat) (bits : Nat) (signed : Bool)
  | lanes (d : Nat) (w : Nat) (mask : Mask)
  | formatted (d : Nat) (chan : Option Nat) (fmt : Nat) (mask : Mask)
  | block (d : Nat) (chan : Option Nat) (fmt : Nat) (mask : Mask)
  | atomicOld (d : Nat) (bits : Nat)
  | push (chan w : Nat)
  | tagByte (d : Nat)
  | stash
  | ldr (k d aux : Nat) (handle fmt : Nat)
  | engineBytes
  deriving DecidableEq, Repr

/-- What a plain load takes back when its home returns a fault (R75, R197, R235): the thread's registers, program
counter, flags and QPRIME before the instruction, DEADLINE where the first half of its pair wrote it, the channel messages
it popped and the credits it took. Flags that others raise in the thread meanwhile are kept here too (R32), and DEADLINE
counts down here too (R117). -/
structure Undo where
  pc      : VAddr
  regs    : Regs
  flags   : BitVec 8
  qprime  : BitVec 4
  dl      : Option (Bool × BitVec 48)
  pops    : List (Nat × Vec)
  pushes  : List (Nat × Vec)
  /-- The access ends its launch's replayability once it is performed (R211). -/
  nrpl    : Bool
  deriving DecidableEq, Repr

/-- An access in flight. -/
structure Req where
  id    : Nat
  owner : Owner
  ctx   : Nat
  lid   : Nat
  va    : Nat
  rlx   : Bool
  kind  : ReqKind
  size  : Nat
  parts : List Part
  buf   : List Byte
  fin   : Finish
  undo  : Option Undo
  fault : Option FaultRec
  stamp : Option Nat
  seq   : Nat
  /-- Route data from another package: whether it is its command's last packet (R349). -/
  last  : Bool
  deriving DecidableEq, Repr

/-- A reservation or lock at a bank (Table 4-3): the word, the holding thread, whether it is a lock, its hold, and the
cycle or tick of its grant. -/
structure Resv where
  word    : Nat
  holder  : Nat
  lock    : Option (Nat × Nat)
  granted : Nat
  deriving DecidableEq, Repr

/-! ## The SFU -/

/-- A request in a quad's SFU queue (R96): what it will write, and its fixed times. -/
structure SfuReq where
  key     : Nat
  writes  : List (Nat × Vec)
  push    : Option (Nat × Vec)
  flags   : BitVec 8
  occ     : Nat
  latency : Nat
  deriving DecidableEq, Repr

/-! ## Engines -/

/-- A ring entry of the engine fault ring (Table 9-3). -/
structure RingEntry where
  seq    : BitVec 16
  code   : Nat
  detail : Nat
  eng    : Nat
  state  : Nat
  parked : Bool
  taken  : Bool
  slot   : Nat
  /-- `Thread.born` of the thread that pushed the command. -/
  own    : Nat
  doneN  : Nat
  nitems : Nat
  addr   : Word
  deriving DecidableEq, Repr

/-- A queued engine command (R335): sequence number, issuing thread slot, command word. -/
structure Cmd where
  seq  : BitVec 16
  slot : Nat
  /-- `Thread.born` of the thread that pushed it. -/
  own  : Nat
  word : Vec
  deriving DecidableEq, Repr

/-- The stage of one started item. -/
inductive ItemStage where
  | reading (req : Nat)
  | ready                          -- its data is to be written
  | writing (req : Nat)
  | sent (txid port : Nat)         -- a route packet, its answer awaited
  | waitingRound (frame : Nat)
  | performed
  | failed
  deriving DecidableEq, Repr

/-- One started item of a running command (R202). `bad`: it has failed, and writes what it had read before (log entry 103). -/
structure Item where
  idx   : Nat
  stage : ItemStage
  data  : List Byte
  bad   : Bool
  deriving DecidableEq, Repr

/-- The command an engine runs. -/
structure Run where
  cmd    : Cmd
  nitems : Nat
  next   : Nat
  items  : List Item
  flags  : BitVec 8
  fault  : Option FaultRec
  /-- Group size of an MX.MMA, and the leading items performed before it was resumed (R204). -/
  group  : Nat
  base   : Nat
  frame  : Nat
  absent : Nat
  status : Nat
  /-- A walk's fault for the engine: page number, XLATE code. -/
  walkFault : Option (Nat × Nat)
  deriving DecidableEq, Repr

/-- One engine of a core. -/
structure Engine where
  queue : List Cmd
  run   : Option Run
  deriving DecidableEq, Repr

/-- A plane of the matrix unit (R341): validity, format, BLEN and K of the last load, the cells by `row * 64 + column`
as their element codes, and the scales of scaled blocks by `column * 4 + block`. -/
structure Plane where
  valid  : Bool
  fmt    : Nat
  blen   : Nat
  k      : Nat
  cells  : List (Nat × Nat)
  scales : List (Nat × Nat)
  deriving DecidableEq, Repr

/-- MXPROG (Table 9-5). -/
structure MxProg where
  valid  : Bool
  seq    : BitVec 16
  groups : BitVec 32
  deriving DecidableEq, Repr

/-! ## Cores -/

/-- A TLB entry (R149). -/
structure TlbEntry where
  ctx : Nat
  vpn : Nat      -- first page number (4 KiB units) it maps
  log : Nat      -- log2 of the page size in bytes
  pa  : Nat
  r : Bool
  w : Bool
  x : Bool
  gen : Nat
  lap : Bool
  deriving DecidableEq, Repr

/-- The trace encoder (R226). -/
structure Trace where
  ring   : Word
  handle : Nat
  ctx    : Nat
  size   : Nat
  pos    : Nat
  buf    : List (Word × Word)
  drops  : Nat
  deriving DecidableEq, Repr

/-- One core and its tile's shared state. -/
structure Core where
  launch   : Option Nat
  index    : Nat
  lastCtx  : Option Nat
  rottab   : Vector Byte 32
  shadow   : Vector Word 4
  pend     : Bool
  rej      : Bool
  rotPos   : Nat
  stagger  : BitVec 6
  dbgctl   : Word
  step     : Option Nat
  bps      : Vector Word 4
  watchAddr : Vector Word 2
  watchCtl  : Vector Word 2
  inbox    : List Vec
  /-- Places of the inbox kept for pushes of slot 11 whose message is still to come (R102). -/
  inboxDue : Nat
  spill    : Nat
  sent     : Nat
  recv     : Nat
  black    : Bool
  eseq     : BitVec 16
  ring     : List (Nat × RingEntry)
  mx       : Engine
  cp       : Engine
  rl       : Engine
  parked   : Option (Cmd × Nat)
  mxprog   : MxProg
  acc      : List (Nat × Nat)
  accBad   : List Nat
  mulPlane : Plane
  sgnPlane : Plane
  doneOp   : Option Word
  faulted  : Bool
  worst    : Nat
  engFail  : Bool
  /-- The Crown is stopping the core to save it (R205). -/
  stopping : Bool
  tlb      : List TlbEntry
  hist     : Vector Word 17
  ce       : Vector Word 4
  trace    : Option Trace
  deriving DecidableEq, Repr

/-- The bank of one slice (R105, R171 to R173): BANKBUD in force and pending, the class counters in the order THR,
MXR, CPY, MSH, FIL, FWR, the ticket counter, and the reservations on its words. -/
structure Bank where
  bud     : Word
  pending : Option Word
  rej     : Bool
  counts  : Vector Nat 6
  /-- One more than the cycle of the bank's last grant: a grant is one cycle of its port (R171). -/
  busy    : Nat
  /-- Grants of the firmware class that are still to come: for a page that is being zeroed, a state that is being saved or
  restored (R154, R171, R205). -/
  owed    : Nat
  /-- What has arrived and waits for a grant, in the order of arrival: request, part, class (R173). -/
  queue   : List (Nat × Nat × Nat)
  tickets : BitVec 32
  resv    : List Resv
  deriving DecidableEq, Repr

/-! ## Quads and dies -/

structure Quad where
  queue   : List SfuReq
  serving : List (SfuReq × Nat)
  freeAt  : Nat
  tlb     : List TlbEntry
  deriving DecidableEq, Repr

/-- A page a die's miss queue holds (R150), the threads that coalesced on it, and whether a walker has read it. -/
structure Walk where
  id      : Nat
  ctx     : Nat
  vpn     : Nat
  waiters : List Nat
  /-- Engines that missed: tile × 4 + engine. -/
  engs    : List Nat
  taken   : Bool
  stale   : Bool
  deriving DecidableEq, Repr

/-- A request at the die's keeper (R107). -/
structure KeeperReq where
  id     : Nat
  key    : Nat
  ctx    : Nat
  kind   : Nat      -- 0 range, 1 lock, 2 route, 3 group, 4 renew, 5 life, 6 hinfo
  d      : Nat
  arg    : Word
  life   : Word
  desc   : List Word
  wordPa : Nat
  crown  : Bool
  deriving DecidableEq, Repr

/-- A die's streaming sampler (R227). -/
structure Sampler where
  ctx      : Nat
  ring     : Word
  handle   : Nat
  rows     : Nat
  interval : Nat
  sels     : List (BitVec 16)
  row      : Nat
  /-- The row of the ring that is written next: it wraps after NROWS rows, whatever ROW does. -/
  pos      : Nat
  missed   : Nat
  /-- The multiple of INTERVAL that was latched last. -/
  latched  : Nat
  running  : Bool
  status   : Nat
  deriving DecidableEq, Repr

/-- A line of the drawer cache (R189): whether it is dirty, and its prefetch marks (R225). -/
structure Line where
  addr     : Nat
  dirty    : Bool
  prefetch : Bool
  used     : Bool
  deriving DecidableEq, Repr

/-- A fill or write-back under way for a line (R189). -/
structure Fill where
  addr     : Nat
  txid     : Nat
  port     : Nat
  prefetch : Bool
  demanded : Bool
  back     : Bool
  deriving DecidableEq, Repr

structure Die where
  walks   : List Walk
  lastWalkCtx : Nat
  keeper  : List KeeperReq
  pfctl   : Word
  pfCounts : Vector Word 4
  /-- Lines that demands have missed, and lines the prefetcher has still to request (R191). -/
  missed  : List Nat
  pfWant  : List Nat
  /-- KiB each slice of the die gives to the drawer cache (R22), and a change of it that waits. -/
  carve   : Nat
  carveWant : Option Nat
  /-- Cached lines, most recently used first. -/
  cache   : List Line
  /-- Dirty lines that have left the cache and wait for the grant that reads them for their write-back (R171, R189). -/
  backs   : List Nat
  fills   : List Fill
  /-- Where the die has no carve: lines that have come from a drawer for the requests queued on their words (R190). -/
  arrived : List Nat
  sampler : Option Sampler
  deriving DecidableEq, Repr

/-! ## Contexts and holds -/

/-- What a hold holds (Table 1-11). -/
inductive HoldKind where
  | context
  | range (va pages log gen : Nat) (frames : List Nat)
  | lock (word va : Nat)
  | route (port first nslot : Nat) (desc : List Word)
  | group (desc : List Word) (formed : Bool)
  deriving DecidableEq, Repr

/-- An entry of a hold table (R28). `lapsing` lists the pages whose homes have not yet ordered the lapse (R77, R111). -/
structure Hold where
  reuse   : BitVec 4
  /-- Whether the index has been issued; a lock's index is taken before it is (R323). -/
  issued  : Bool
  live    : Bool
  kind    : HoldKind
  expiry  : Nat
  granted : Nat
  lapsing : List Nat
  free    : Bool
  deriving DecidableEq, Repr

/-- A registered launch ring (Table 6-1). -/
structure Ring where
  base : Nat
  resAddr : Nat
  rdAddr : Nat
  logSize : Nat
  cto : Nat
  rd : Nat
  waitSince : Nat
  deriving DecidableEq, Repr

/-- A queued `hcall` (R356), by the launch, launch index and slot of its thread, which a migration does not change. -/
structure Call where
  lid   : Nat
  index : Nat
  slot  : Nat
  d   : Nat
  req : List Word
  deriving DecidableEq, Repr

structure Ctx where
  live    : Bool
  pkey    : BitVec 16
  cores   : Nat
  sramb   : Nat
  drawb   : Nat
  clife   : Nat
  slots   : Word
  record  : List Word
  root    : Nat
  holds   : List (Nat × Hold)
  lastGen : List (Nat × Nat)
  ring    : Option Ring
  abandon : Nat
  fifo    : List Nat
  quota   : List (Nat × Nat)
  contained : Nat
  calls   : List Call
  posted  : Option Call
  /-- The call posted was abandoned by its thread, and is answered into nothing (R356). -/
  orphan  : Bool
  frozenAt : Option Nat
  irqs    : List Nat
  /-- A request in the attestation mailbox of its function waits for the firmware (R168). -/
  quoteDue : Bool
  /-- The Crown is stopping all of the context to end it (R215). -/
  ending  : Bool
  /-- The pages the driver placed at creation: physical address and bytes (R146). -/
  image   : List (Nat × Nat)
  deriving DecidableEq, Repr

/-! ## Launches -/

/-- A channel of a pipeline launch (R98). -/
structure Chan where
  wTile   : Nat
  wCh     : Nat
  rTile   : Nat
  rCh     : Nat
  allow   : Nat
  buf     : List Vec
  credits : Nat
  flight  : List Vec
  returns : Nat
  deriving DecidableEq, Repr

inductive LaunchState where
  | queued
  | running
  | saved
  | ended
  deriving DecidableEq, Repr

/-- The saved state of one core of a pre-empted launch (R205). -/
structure SavedCore where
  index   : Nat
  core    : Core
  threads : List (Nat × Thread)
  deriving DecidableEq, Repr

structure Launch where
  ctx     : Nat
  pipe    : Bool
  tag     : Nat
  payload : List Word
  depth   : Nat
  /-- The depth whose pool quota holds the launch's entry, for a device launch (R135). -/
  pool    : Option Nat
  state   : LaunchState
  tiles   : List Nat
  /-- The tiles it held when it was saved, by launch index (R205). -/
  old     : List Nat
  stages  : List (Word × Nat)
  chanTab : List Word
  chans   : List Chan
  /-- Status words received at each launch index from its children, combined (R133). -/
  words   : List (Nat × Word)
  /-- Indices whose word has been combined at their parent. -/
  joined  : List Nat
  inFlight : List (Nat × Word)
  nrpl    : Bool
  replays : Nat
  params  : List Byte
  shadows : List (Nat × List Host.Cell)
  /-- Words of its shadows whose error cannot be corrected, by address ÷ 8 (R208, R212). -/
  shadowLost : List Nat
  /-- The ranges it requested: hold index and reuse count (R211, R213). -/
  ranges  : List (Nat × Nat)
  probeAt : Nat
  probeSum : Int
  probeBlack : Bool
  saved   : List SavedCore
  layout  : Nat
  finalWord : Option Word
  deriving DecidableEq, Repr

/-! ## Messages, relay rounds, pod barriers -/

/-- An active message on its way (R88, R100): the sending thread and launch, its 64 bytes, its destination tile. -/
structure Msg where
  key  : Nat
  lid  : Nat
  ctx  : Nat
  body : Vec
  dst  : Nat
  pkg  : Nat
  txid : Option Nat
  fwd  : Bool
  /-- A message of another package: its package, tile and transaction tag. -/
  peer : Option (Nat × Nat × Nat)
  /-- `Thread.born` of the sending thread. -/
  born : Nat
  deriving DecidableEq, Repr

/-- A contribution presented to a relay round (R316, R350, R351). -/
structure Present where
  key    : Nat      -- the group: partition key * 2^16 + GID
  frame  : Nat
  tile   : Nat
  kind   : Nat      -- 0 `vldr`, 1 RL.REDUCE, 2 RL.BCAST
  root   : Nat
  thread : Option Nat
  fmt    : Nat
  elems  : List Nat
  bytes  : List Byte
  req    : Option Nat
  /-- The group's descriptor when it was presented. -/
  desc   : List Word
  deriving DecidableEq, Repr

/-- A relay round from the boundary of its frame: the group's descriptor, whether this member held it live at that
boundary, and the contributions received from other members (R192, R316). -/
structure Round where
  key    : Nat
  frame  : Nat
  desc   : List Word
  live   : Bool
  remote : List Contribution
  deriving DecidableEq, Repr

/-- A pod barrier episode on this package (R139): group, tick, the tiles whose arrival stands with the flags sampled at it,
whether this member's arrival is decided (from T - 2,048 on), whether it is late, and the other members whose arrival in time
has been reported, with their flags. -/
structure Episode where
  key    : Nat
  tick   : Nat
  tiles  : List (Nat × BitVec 8)
  closed : Bool
  late   : Bool
  remote : List (Nat × BitVec 8)
  deriving DecidableEq, Repr

/-! ## The Hatband -/

/-- A packet a port has to send, with its owner. -/
structure OutPacket where
  owner : SlotOwner
  pkt   : Packet
  after : Nat        -- a PTB before which it does not depart (R186)
  left  : Nat        -- beats still to leave, the header beat counted (R178)
  deriving DecidableEq, Repr

/-- Route data that a gateway core holds (R193): the core, the slot it came in as a PTB, where it goes on, the packet. -/
structure GateIn where
  core : Nat
  slot : Nat
  ctx  : Nat
  handle : Nat
  fwd  : Nat
  pkt  : Packet
  deriving DecidableEq, Repr

/-- A packet that has departed and whose answer is awaited (R184, R214). -/
structure Flight where
  port : Nat
  /-- The out-slot, as a PTB, that carried the packet's last beat. -/
  slot : Nat
  pkt  : Packet
  deriving DecidableEq, Repr

structure Port where
  role    : Role
  window  : Option Nat
  bytes   : Nat
  flight  : Nat
  delay   : Nat
  trained : Bool
  stalled : Option Nat
  /-- One more than the PTB of the last out-slot that the port has served; 0 before the first. -/
  slotDone : Nat
  fifo    : List OutPacket
  outTab  : List (Nat × SlotOwner)
  inTab   : List (Nat × SlotOwner)
  shadow  : List (Nat × Nat × List (Nat × SlotOwner))   -- direction (0 out, 1 in), frame, entries
  crcErr  : Word
  spare   : Word
  retrain : Word
  frameErrs : Nat
  /-- The slot, as a PTB, in which the port came to need a retraining (R187). -/
  errAt   : Nat
  spares  : Vector Nat 8
  /-- Fibres with a ring that was measured beyond its band at the last boundary, one entry for each ring: each moves to a
  spare at the next (R187). -/
  drift   : List Nat
  deriving DecidableEq, Repr

/-- An entry of the supervisor queue (Table 7-6). -/
structure SupEntry where
  body   : List Byte
  time   : Nat
  reason : Nat
  cap    : Nat
  rkey   : Nat
  sslot  : Nat
  src    : Nat
  dst    : Nat
  sctx   : Nat
  rctx   : Nat
  deriving DecidableEq, Repr

/-! ## Boot and firmware -/

/-- The identities a boot derives (R166). -/
structure Identity where
  mc     : List Byte
  cdiC   : List Byte
  crnKey : List Byte
  crnCert : List Byte
  svn    : Nat
  deriving DecidableEq, Repr

/-- A Brim's identity (R166). -/
structure BrimId where
  mb : List Byte
  cfg : List Byte
  cdiB : List Byte
  key : List Byte
  cert : List Byte
  deriving DecidableEq, Repr

/-- An activation under way (R218): where its copy lies in the carve-out, its size, when it was deferred. -/
structure Activation where
  offset : Nat
  size   : Nat
  since  : Nat
  layouts : List Nat
  deriving DecidableEq, Repr

/-- A firmware control block (R216): its sequence word and its two copies. -/
structure CtlBlock where
  seq   : BitVec 64
  copy0 : List Word
  copy1 : List Word
  deriving DecidableEq, Repr

/-- The boot ROM at work on the image at an offset of the carve-out, the time at which it ends, and whether the image is
an activated one (R164, R217, R218). -/
structure Verify where
  off : Nat
  due : Nat
  activated : Bool
  deriving DecidableEq, Repr

structure Boot where
  bootdb  : Word
  state   : Nat
  viol    : BitVec 32
  fwlock  : Word
  minSvn  : Nat
  udsHidden : Bool
  imageOff : Nat
  imageLen : Nat
  ident   : Option Identity
  brims   : List (Nat × BrimId)
  activation : Option Activation
  verify  : Option Verify
  watchdog : List Nat
  /-- The time from which the watchdog of the running image counts at the latest (R217). -/
  service : Nat
  restarts : Nat
  /-- The firmware control blocks, by context (R216, log entry 71). -/
  ctl     : List (Nat × CtlBlock)
  deriving DecidableEq, Repr

/-- A registered dump range (R219). -/
structure Dump where
  addr : Nat
  size : Nat
  deriving DecidableEq, Repr

/-! ## The machine -/

/-- What became of the instruction a step ran. -/
inductive Did where
  | nothing
  | ran
  | trapped (f : FaultRec)
  | blocked (w : Wait)
  deriving DecidableEq, Repr

/-- The whole machine. -/
structure State where
  -- the model's own stepping (log entry 2)
  agenda  : List Instr
  cur     : Nat
  turn    : List Nat
  did     : Did
  nextId  : Nat
  free    : Nat
  fetchAhead : List Nat
  -- time and the package
  cycle   : Nat
  /-- The budget period begun last, counted from package reset (R171). -/
  period  : Nat
  ptb     : Nat
  sub     : Nat
  tbSet   : Bool
  slew    : Int
  pkg     : Nat
  pod     : List Nat
  fatal   : Option Nat
  -- memory
  mem     : List Host.Cell
  tags    : List (Nat × Byte)
  poison  : List Nat
  hostMem : List Host.Cell
  corrected : List Nat
  -- cores and what they share
  threads : List (Nat × Thread)
  cores   : List (Nat × Core)
  banks   : List (Nat × Bank)
  quads   : List (Nat × Quad)
  dies    : List (Nat × Die)
  reqs    : List Req
  -- contexts and launches
  ctxs    : List (Nat × Ctx)
  launches : List (Nat × Launch)
  /-- The rotation entries of slots 13 to 15, once a launch has been given some (R170). -/
  fwRot   : Option (List (Nat × Byte))
  served  : Nat                          -- the context the Crown last dispatched for (R126)
  usedFrames : List (Nat × Nat)         -- physical address and bytes
  /-- Pages that the physical function's reserve has for shadow versions (R211). -/
  reserve : Nat
  tableNext : Nat
  freedKeys : List (Nat × Nat)
  -- messages and rounds
  net     : List Msg
  reports : List (Nat × Nat × Nat × Word)    -- sending thread's slot, its launch, its `born`, header
  sup     : List SupEntry
  /-- Entries of the supervisor queue that the Crown has freed: the first of `sup` has that number (R159). -/
  supHead : Nat
  supLost : Nat
  forwards : List (Nat × Nat × Nat)     -- old tile, new tile, expiry
  presents : List Present
  rounds  : List Round
  episodes : List Episode
  -- the Hatband
  frame   : Nat
  ports   : List (Nat × Port)
  flights : List Flight
  routing : List (Nat × Nat)
  /-- What the gateway cores have received, and the flags that they have raised (R53, R193). -/
  gate    : List GateIn
  gateFlags : List (Nat × BitVec 8)
  -- firmware
  boot    : Boot
  dump    : Option Dump
  /-- Interrupts raised to the physical function. -/
  pfIrqs  : Nat
  mail    : List (Nat × List Word)       -- the physical function's mailbox records, by offset, with answers
  /-- The context mailbox block of each function, 512 bytes, by the number of its context: 0 the physical function, 1 to 16
  the virtual ones (R168). -/
  boxes   : List (Nat × List Byte)
  deriving DecidableEq, Repr

/-! ## Reset -/

def Regs.reset : Regs where
  s := .replicate 32 0
  v := .replicate 24 0
  k := .replicate 8 false
  m := .replicate 8 0
  lost := []

/-- A thread slot that holds no thread. -/
def Thread.reset : Thread where
  live := false
  parked := false
  pc := 0
  npc := 0
  regs := .reset
  view := none
  oldDl := none
  fpctl := 8
  fpflags := 0
  qprime := 0
  dlEn := false
  dlLeft := 0
  dlDue := false
  trapvec := 0
  trapcause := 0
  trappc := 0
  trapval := 0
  wait := none
  comb := []
  failures := []
  contain := []
  stalls := []
  reserved := none
  role := .alone
  lvq := []
  cmp := none
  pops := []
  pushes := []
  noHit := false
  ibuf := []
  walkFault := none
  got := none
  asked := 0
  missPage := none
  counters := .replicate 4 0
  seq := 0
  born := 0
  scrub := none

def Engine.reset : Engine where
  queue := []
  run := none

def Plane.reset : Plane where
  valid := false
  fmt := 0
  blen := 0
  k := 0
  cells := []
  scales := []

def MxProg.reset : MxProg where
  valid := false
  seq := 0
  groups := 0

/-- Ring entry `i` as binding a core leaves it (R335): SEQ `(i - 64) mod 65,536`, STATE 2, every other field 0. -/
def RingEntry.fresh (i : Nat) : RingEntry where
  seq := BitVec.ofNat 16 (i + 65536 - 64)
  code := 0
  detail := 0
  eng := 0
  state := 2
  parked := false
  taken := false
  slot := 0
  own := 0
  doneN := 0
  nitems := 0
  addr := 0

def Core.reset : Core where
  launch := none
  index := 0
  lastCtx := none
  rottab := .replicate 32 0
  shadow := .replicate 4 0
  pend := false
  rej := false
  rotPos := 31
  stagger := 0
  dbgctl := 0
  step := none
  bps := .replicate 4 0
  watchAddr := .replicate 2 0
  watchCtl := .replicate 2 0
  inbox := []
  inboxDue := 0
  spill := 0
  sent := 0
  recv := 0
  black := false
  eseq := 0
  ring := []
  mx := .reset
  cp := .reset
  rl := .reset
  parked := none
  mxprog := .reset
  acc := []
  accBad := []
  mulPlane := .reset
  sgnPlane := .reset
  doneOp := none
  faulted := false
  worst := 0
  engFail := false
  stopping := false
  tlb := []
  hist := .replicate 17 0
  ce := .replicate 4 0
  trace := none

/-- The reset budgets of Table 8-1: FWR 16, FIL 32, MSH 48, CPY 32, MXR 64, THR 64. -/
def Bank.reset : Bank where
  bud := 0x0000_1020_3020_4040
  pending := none
  rej := false
  counts := #v[64, 64, 32, 48, 32, 16]
  busy := 0
  owed := 0
  queue := []
  tickets := 0
  resv := []

def Quad.reset : Quad where
  queue := []
  serving := []
  freeAt := 0
  tlb := []

def Die.reset : Die where
  walks := []
  lastWalkCtx := 0
  keeper := []
  pfctl := 0
  pfCounts := .replicate 4 0
  missed := []
  pfWant := []
  carve := 0
  carveWant := none
  cache := []
  backs := []
  fills := []
  arrived := []
  sampler := none

def Ctx.reset : Ctx where
  live := false
  pkey := 0
  cores := 0
  sramb := 0
  drawb := 0
  clife := 0
  slots := 0
  record := []
  root := 0
  holds := []
  lastGen := []
  ring := none
  abandon := 0
  fifo := []
  quota := []
  contained := 0
  calls := []
  posted := none
  orphan := false
  frozenAt := none
  irqs := []
  quoteDue := false
  ending := false
  image := []

def Launch.reset : Launch where
  ctx := 0
  pipe := false
  tag := 0
  payload := []
  depth := 0
  pool := none
  state := .queued
  tiles := []
  old := []
  stages := []
  chanTab := []
  chans := []
  words := []
  joined := []
  inFlight := []
  nrpl := false
  replays := 0
  params := []
  shadows := []
  shadowLost := []
  ranges := []
  probeAt := 0
  probeSum := 0
  probeBlack := false
  saved := []
  layout := 0
  finalWord := none

def Port.reset : Port where
  role := .unused
  window := none
  bytes := 0
  flight := 0
  delay := 0
  trained := false
  stalled := none
  slotDone := 0
  fifo := []
  outTab := []
  inTab := []
  shadow := []
  crcErr := 0
  spare := 0
  retrain := 0
  frameErrs := 0
  errAt := 0
  spares := .replicate 8 2
  drift := []

/-- A port as package reset leaves it where bring-up says nothing else: the default roles of Table 1-12, ports 0 to 7
drawer ports with the windows of their numbers (R21, R175), 8 to 11 peer ports, no drawer installed. -/
def Port.default (i : Nat) : Port :=
  if i < 8 then { Port.reset with role := .drawer, window := some i } else { Port.reset with role := .peer }

def Boot.reset : Boot where
  bootdb := 0
  state := 0
  viol := 0
  fwlock := 0
  minSvn := 0
  udsHidden := false
  imageOff := 0
  imageLen := 0
  ident := none
  brims := []
  activation := none
  verify := none
  watchdog := []
  service := 0
  restarts := 0
  ctl := []

/-- The machine right after package reset: the boot ROM waits for BOOTDB (R161, Table 7-10), FWLOCK is clear, no
context exists, no core holds a launch, no thread is live, the time base is not yet set (R29), the ports have their default
roles (Table 1-12), and memory lists nothing. -/
def State.reset : State where
  agenda := []
  cur := 0
  turn := []
  did := .nothing
  nextId := 1
  free := 0
  fetchAhead := []
  cycle := 0
  period := 0
  ptb := 0
  sub := 0
  tbSet := false
  slew := 0
  pkg := 0
  pod := [0]
  fatal := none
  mem := []
  tags := []
  poison := []
  hostMem := []
  corrected := []
  threads := []
  cores := []
  banks := []
  quads := []
  dies := []
  reqs := []
  ctxs := []
  launches := []
  fwRot := none
  served := 0
  usedFrames := []
  reserve := 2 ^ 20
  tableNext := 0
  freedKeys := []
  net := []
  reports := []
  sup := []
  supHead := 0
  supLost := 0
  forwards := []
  presents := []
  rounds := []
  episodes := []
  frame := 0
  ports := (List.range 12).map fun i => (i, Port.default i)
  flights := []
  routing := []
  gate := []
  gateFlags := []
  boot := .reset
  dump := none
  pfIrqs := 0
  mail := []
  boxes := (List.range 17).map fun i => (i, List.replicate 512 0)

end Sys2Proof.Machine
end

