-- ==== Sys2Proof/Machine/Flags.lean ====
section
/-! DEFINITION. Number formats, exact values, rounding, and every flag computation (spec/02_arithmetic.md R31 to R48,
spec/03_rationals.md is in Exact.lean). A value is held exactly as a sign, a natural number and a power of two, and is
rounded once. -/

namespace Sys2Proof

/-- The scaled-block format code of an element format (R302, Table 1-10). -/
def BFmt.fmtCode : BFmt → Nat | .i8 => 18 | .fp8a => 16 | .fp8b => 17 | .i4 => 19 | .tern => 20

end Sys2Proof

namespace Sys2Proof.Machine

/-! ## FPFLAGS (Table 2-2) -/

def fNV : BitVec 8 := 0x01
def fDZ : BitVec 8 := 0x02
def fOF : BitVec 8 := 0x04
def fUF : BitVec 8 := 0x08
def fNX : BitVec 8 := 0x10
def fACCSAT : BitVec 8 := 0x20
def fTERNBAD : BitVec 8 := 0x40
def fQOVF : BitVec 8 := 0x80

/-- `f` where `c` holds. -/
def flagIf (c : Bool) (f : BitVec 8) : BitVec 8 := if c then f else 0

/-- The flags of `n` elements ORed together (R274). -/
def orFlags (n : Nat) (f : Nat → BitVec 8) : BitVec 8 := (List.range n).foldl (fun a i => a ||| f i) 0

/-! ## Rounding modes and environments (Table 2-1) -/

inductive Rm where | rne | rtz | rup | rdn
  deriving DecidableEq, Repr

/-- What governs a rounding: the mode, flush to zero, and the FP8a saturation choice. -/
structure Env where
  rm   : Rm
  ftz  : Bool
  sat8 : Bool
  deriving DecidableEq, Repr

def rmOf (n : Nat) : Rm := match n with | 0 => .rne | 1 => .rtz | 2 => .rup | _ => .rdn

/-- FPCTL as an environment (R31). -/
def envOf (c : BitVec 4) : Env where
  rm := rmOf (c.toNat % 4)
  ftz := c.getLsbD 2
  sat8 := c.getLsbD 3

/-- The environment of engines, gateway cores and major 0x1B: RNE, subnormals honoured (R31). -/
def envRne (sat8 : Bool) : Env := ⟨.rne, false, sat8⟩

/-! ## Formats (Table 2-3) -/

structure Fmt where
  e    : Nat
  f    : Nat
  bias : Nat
  /-- FP8a: no infinities, no signalling NaN, codes 0x7F and 0xFF are NaN. -/
  noInf : Bool
  deriving DecidableEq, Repr

def fp64 : Fmt := ⟨11, 52, 1023, false⟩
def fp32 : Fmt := ⟨8, 23, 127, false⟩
def bf16 : Fmt := ⟨8, 7, 127, false⟩
def fp16 : Fmt := ⟨5, 10, 15, false⟩
def fp8a : Fmt := ⟨4, 3, 7, true⟩
def fp8b : Fmt := ⟨5, 2, 15, false⟩

def Fmt.bits (F : Fmt) : Nat := 1 + F.e + F.f
/-- The code of +∞, where the format has one. -/
def Fmt.infCode (F : Fmt) : Nat := (2 ^ F.e - 1) * 2 ^ F.f
/-- The largest finite code of positive sign. -/
def Fmt.maxCode (F : Fmt) : Nat := if F.noInf then 2 ^ (F.e + F.f) - 2 else F.infCode - 1
/-- The canonical NaN (Table 2-3). -/
def Fmt.nanCode (F : Fmt) : Nat := if F.noInf then 2 ^ (F.e + F.f) - 1 else F.infCode + 2 ^ (F.f - 1)
def Fmt.signBit (F : Fmt) : Nat := 2 ^ (F.e + F.f)
def Fmt.withSign (F : Fmt) (neg : Bool) (code : Nat) : Nat := if neg then F.signBit + code else code
/-- The least exponent of a normal value. -/
def Fmt.emin (F : Fmt) : Int := 1 - (F.bias : Int)

/-- A floating-point datum: a NaN (signalling or quiet), an infinity, or ± m × 2^e exactly. -/
inductive X where
  | nan (signalling : Bool)
  | inf (neg : Bool)
  | num (neg : Bool) (m : Nat) (e : Int)
  deriving DecidableEq, Repr

/-- R34: the datum a code stands for. -/
def unpackRaw (F : Fmt) (c : Nat) : X :=
  let neg := c / F.signBit % 2 == 1
  let E := c / 2 ^ F.f % 2 ^ F.e
  let m := c % 2 ^ F.f
  if E = 0 then .num neg m (1 - (F.bias : Int) - F.f)
  else if E = 2 ^ F.e - 1 && !F.noInf then
    if m = 0 then .inf neg else .nan (m < 2 ^ (F.f - 1))
  else if E = 2 ^ F.e - 1 && m = 2 ^ F.f - 1 then .nan false
  else .num neg (2 ^ F.f + m) ((E : Int) - F.bias - F.f)

/-- A code is subnormal. -/
def isSubnormal (F : Fmt) (c : Nat) : Bool := c / 2 ^ F.f % 2 ^ F.e == 0 && c % 2 ^ F.f != 0

/-- R36: an operand as read: under FTZ a subnormal is a zero of its sign. -/
def unpack (F : Fmt) (ftz : Bool) (c : Nat) : X :=
  if ftz && isSubnormal F c then .num (c / F.signBit % 2 == 1) 0 0 else unpackRaw F c

/-! ## Rounding (R36, R37) -/

/-- `q` plus a remainder `r / d`, rounded to an integer magnitude by the mode, for a value of sign `neg`. -/
def roundMag (rm : Rm) (neg : Bool) (q r d : Nat) : Nat :=
  match rm with
  | .rne => if 2 * r > d ∨ (2 * r = d ∧ q % 2 = 1) then q + 1 else q
  | .rtz => q
  | .rup => if r ≠ 0 ∧ !neg then q + 1 else q
  | .rdn => if r ≠ 0 ∧ neg then q + 1 else q

/-- Numerator and denominator of n/d × 2^e / 2^q. -/
def scaled (n d : Nat) (e q : Int) : Nat × Nat :=
  if e ≥ q then (n * 2 ^ (e - q).toNat, d) else (n, d * 2 ^ (q - e).toNat)

/-- The exponent E with 2^E ≤ n/d × 2^e < 2^(E+1), for n and d above zero. -/
def expOf (n d : Nat) (e : Int) : Int :=
  let k : Int := (n.log2 : Int) - d.log2
  let p := scaled n d 0 k
  if p.2 ≤ p.1 then e + k else e + k - 1

/-- Table 2-4: what an overflowed result becomes. -/
def overflowCode (F : Fmt) (v : Env) (neg : Bool) : Nat :=
  let toMax := match v.rm with | .rne => false | .rtz => true | .rup => neg | .rdn => !neg
  if F.noInf then
    F.withSign neg (if v.sat8 || toMax then F.maxCode else F.nanCode)
  else F.withSign neg (if toMax then F.maxCode else F.infCode)

/-- R36, R37: the value ± n/d × 2^e rounded once to a format, and the flags this raises. A zero keeps the sign given. -/
def roundTo (F : Fmt) (v : Env) (neg : Bool) (n d : Nat) (e : Int) : Nat × BitVec 8 :=
  if n = 0 then (F.withSign neg 0, 0)
  else
    let E := expOf n d e
    let q := max E F.emin - F.f
    let p := scaled n d e q
    let quo := p.1 / p.2
    let rem := p.1 % p.2
    let m := roundMag v.rm neg quo rem p.2
    let inexact := rem ≠ 0
    -- the same value rounded with an unbounded exponent, for tininess after rounding
    let pu := scaled n d e (E - F.f)
    let mu := roundMag v.rm neg (pu.1 / pu.2) (pu.1 % pu.2) pu.2
    let tiny : Bool := E < F.emin && !(E + 1 = F.emin && mu = 2 ^ (F.f + 1))
    let code : Int := (max E F.emin + F.bias - 1) * (2 ^ F.f : Nat) + m
    -- FP8a under RNE: 464 and above is beyond the range (R37)
    let p8 := scaled n d e 0
    let half : Bool := F.noInf && v.rm == .rne && 464 * p8.2 ≤ p8.1
    if code > F.maxCode || half then (overflowCode F v neg, fOF ||| fNX)
    else if v.ftz && 0 < m && code < (2 ^ F.f : Nat) then (F.withSign neg 0, fUF ||| fNX)
    else (F.withSign neg code.toNat, flagIf inexact fNX ||| flagIf (tiny && inexact) fUF)

/-- The canonical NaN with NV where `nv` holds (R35). -/
def nanRes (F : Fmt) (nv : Bool) : Nat × BitVec 8 := (F.nanCode, flagIf nv fNV)

/-- An infinity written to a format; FP8a treats it as an overflow of its sign (R37). -/
def infRes (F : Fmt) (v : Env) (neg : Bool) : Nat × BitVec 8 :=
  if F.noInf then (overflowCode F v neg, fOF ||| fNX) else (F.withSign neg F.infCode, 0)

/-- A datum written to a format (conversion between floating-point formats, R42). -/
def packX (F : Fmt) (v : Env) : X → Nat × BitVec 8
  | .nan s => nanRes F s
  | .inf n => infRes F v n
  | .num n m e => roundTo F v n m 1 e

/-! ## Exact sums (R38, R50) -/

def X.isNan : X → Bool | .nan _ => true | _ => false
def X.isSnan : X → Bool | .nan s => s | _ => false
def X.neg : X → X
  | .nan s => .nan s
  | .inf n => .inf !n
  | .num n m e => .num (!n) m e

def X.isNeg : X → Bool | .nan _ => false | .inf n => n | .num n _ _ => n
def X.isZero : X → Bool | .num _ 0 _ => true | _ => false
def X.isInf : X → Bool | .inf _ => true | _ => false

/-- An exact product of two data; `none` for zero times infinity. NaNs are the caller's to catch. -/
def mulX : X → X → Option X
  | .num a m e, .num b n f => some (.num (a != b) (m * n) (e + f))
  | .inf a, .inf b => some (.inf (a != b))
  | .inf a, .num b n _ => if n = 0 then none else some (.inf (a != b))
  | .num a m _, .inf b => if m = 0 then none else some (.inf (a != b))
  | x, _ => some x

/-- The least exponent among the data. -/
def minExp (xs : List X) : Int :=
  xs.foldl (fun a x => match x with | .num _ m e => if m = 0 then a else min a e | _ => a) 4096

/-- The exact sum of finite data as an integer times 2^`e0`. -/
def sumInt (e0 : Int) (xs : List X) : Int :=
  xs.foldl (fun a x =>
    match x with
    | .num n m e => if m = 0 then a else
      let t : Int := m * (2 ^ (e - e0).toNat : Nat)
      if n then a - t else a + t
    | _ => a) 0

/-- The exact sum of finite data as a datum; an exact zero takes its sign from R38: the common sign where all terms
agree, otherwise −0 under RDN and +0 in the other modes. -/
def sumX (rm : Rm) (xs : List X) : X :=
  let e0 := minExp xs
  let t := sumInt e0 xs
  if t = 0 then
    let neg := if xs.all X.isNeg then true else if xs.all (fun x => !x.isNeg) then false else rm == .rdn
    .num neg 0 0
  else .num (t < 0) t.natAbs e0

/-- A sum of data rounded once, NaNs and infinities by R35 and R47: a signalling NaN and infinities of both signs
raise NV. -/
def addRound (F : Fmt) (v : Env) (xs : List X) : Nat × BitVec 8 :=
  if xs.any X.isNan then nanRes F (xs.any X.isSnan)
  else
    let pos := xs.any (fun x => x.isInf && !x.isNeg)
    let neg := xs.any (fun x => x.isInf && x.isNeg)
    if pos && neg then nanRes F true
    else if pos then infRes F v false
    else if neg then infRes F v true
    else packX F v (sumX v.rm xs)

/-- x × y + z rounded once (R289): zero times infinity is invalid whatever z. -/
def fmaRound (F : Fmt) (v : Env) (x y z : X) : Nat × BitVec 8 :=
  if x.isSnan || y.isSnan || z.isSnan then
    nanRes F true
  else if x.isNan || y.isNan then nanRes F false
  else match mulX x y with
    | none => nanRes F true
    | some p => if z.isNan then nanRes F false else addRound F v [p, z]

def mulRound (F : Fmt) (v : Env) (x y : X) : Nat × BitVec 8 :=
  if x.isNan || y.isNan then nanRes F (x.isSnan || y.isSnan)
  else match mulX x y with
    | none => nanRes F true
    | some p => packX F v p

/-- Division (R286). -/
def divRound (F : Fmt) (v : Env) : X → X → Nat × BitVec 8
  | .nan s, y => nanRes F (s || y.isSnan)
  | _, .nan s => nanRes F s
  | .inf _, .inf _ => nanRes F true
  | .inf a, .num b _ _ => infRes F v (a != b)
  | .num a _ _, .inf b => (F.withSign (a != b) 0, 0)
  | .num a m e, .num b n f =>
    if n = 0 then (if m = 0 then nanRes F true else ((infRes F v (a != b)).1, fDZ))
    else if m = 0 then (F.withSign (a != b) 0, 0)
    else roundTo F v (a != b) m n (e - f)

/-- The integer square root, bit by bit from bit `k` down: the largest r with r × r ≤ n, given that r < 2^(k+1). -/
def isqrtFrom (n : Nat) : Nat → Nat → Nat
  | 0, r => if (r + 1) * (r + 1) ≤ n then r + 1 else r
  | k + 1, r => isqrtFrom n k (if (r + 2 ^ (k + 1)) * (r + 2 ^ (k + 1)) ≤ n then r + 2 ^ (k + 1) else r)

def isqrt (n : Nat) : Nat := isqrtFrom n (n.log2 / 2) 0

/-- Square root (R286): the root of m × 2^e is taken on an even power with enough bits that one sticky bit decides
the rounding. -/
def sqrtRound (F : Fmt) (v : Env) : X → Nat × BitVec 8
  | .nan s => nanRes F s
  | .inf n => if n then nanRes F true else infRes F v false
  | .num n m e =>
    if m = 0 then (F.withSign n 0, 0)
    else if n then nanRes F true
    else
      let sh := 2 * F.f + 8 + (if (e % 2) = 0 then 0 else 1)
      let a := m * 2 ^ sh
      let r := isqrt a
      let sticky := if r * r = a then 0 else 1
      roundTo F v false (2 * r + sticky) 1 ((e - sh) / 2 - 1)

/-! ## Comparisons of data -/

/-- Orders two data that are not NaN: −1, 0 or 1, with −0 equal to +0. -/
def cmpX (x y : X) : Int :=
  match x, y with
  | .inf a, .inf b => if a = b then 0 else if a then -1 else 1
  | .inf a, _ => if a then -1 else 1
  | _, .inf b => if b then 1 else -1
  | x, y =>
    let e0 := minExp [x, y]
    let d := sumInt e0 [x] - sumInt e0 [y]
    if d < 0 then -1 else if d = 0 then 0 else 1

/-- `cmpX` with −0 counted below +0 (R283, R287). -/
def ltTotal (x y : X) : Bool :=
  let c := cmpX x y
  c < 0 || (c = 0 && x.isNeg && !y.isNeg)

/-- R287: the smaller or larger of two codes. -/
def minmaxF (F : Fmt) (ftz wantMax : Bool) (a b : Nat) : Nat × BitVec 8 :=
  let x := unpack F ftz a
  let y := unpack F ftz b
  let wr (c : Nat) (x : X) : Nat := if x.isZero then F.withSign x.isNeg 0 else c
  if x.isNan || y.isNan then nanRes F (x.isSnan || y.isSnan)
  else if (if wantMax then ltTotal x y else ltTotal y x) then (wr b y, 0) else (wr a x, 0)

/-- R287: absolute value and negation follow R35 for a NaN, and turn a subnormal into a zero under FTZ. -/
def absF (F : Fmt) (ftz : Bool) (a : Nat) : Nat × BitVec 8 :=
  match unpack F ftz a with
  | .nan s => nanRes F s
  | .num _ 0 _ => (0, 0)
  | _ => (a % F.signBit, 0)

def negF (F : Fmt) (ftz : Bool) (a : Nat) : Nat × BitVec 8 :=
  match unpack F ftz a with
  | .nan s => nanRes F s
  | .num n 0 _ => (F.withSign (!n) 0, 0)
  | .inf n => (F.withSign (!n) F.infCode, 0)
  | .num n _ _ => (F.withSign (!n) (a % F.signBit), 0)

/-- R288: one floating-point compare, and whether it raises NV. -/
def fcmp (c : FCond) (x y : X) : Bool × BitVec 8 :=
  if x.isNan || y.isNan then
    let ordered := match c with | .lt | .le | .gt | .ge => true | _ => false
    let truth := match c with | .ne | .un => true | _ => false
    (truth, flagIf (ordered || x.isSnan || y.isSnan) fNV)
  else
    let d := cmpX x y
    (match c with
      | .eq => d == 0 | .ne => d != 0 | .lt => decide (d < 0) | .le => decide (d ≤ 0) | .gt => decide (0 < d)
      | .ge => decide (0 ≤ d) | .un => false, 0)

/-! ## Rounding to an integer -/

/-- The integer a finite datum rounds to, and whether that changes it. -/
def roundInt (rm : Rm) (neg : Bool) (n d : Nat) (e : Int) : Int × Bool :=
  let p := scaled n d e 0
  let m := roundMag rm neg (p.1 / p.2) (p.1 % p.2) p.2
  (if neg then -(m : Int) else m, p.1 % p.2 != 0)

/-- R293: rounding to an integral value in the same format. -/
def roundIntegral (F : Fmt) (v : Env) (a : Nat) : Nat × BitVec 8 :=
  match unpack F v.ftz a with
  | .nan s => nanRes F s
  | .inf n => (F.withSign n F.infCode, 0)
  | .num n m e =>
    let r := roundInt v.rm n m 1 e
    ((roundTo F ⟨.rne, false, true⟩ n r.1.natAbs 1 0).1, flagIf r.2 fNX)

/-- R292: the one-hot class of a code. -/
def classOf (F : Fmt) (a : Nat) : Nat :=
  match unpackRaw F a with
  | .nan s => if s then 2 ^ 8 else 2 ^ 9
  | .inf n => if n then 1 else 2 ^ 7
  | .num n m _ =>
    if m = 0 then (if n then 2 ^ 3 else 2 ^ 4)
    else if isSubnormal F a then (if n then 2 ^ 2 else 2 ^ 5)
    else if n then 2 else 2 ^ 6

/-! ## Integers (R42, R48) -/

/-- `z` clamped to `[lo, hi]`, and whether it was clamped. -/
def clampI (lo hi z : Int) : Int × Bool := if z < lo then (lo, true) else if hi < z then (hi, true) else (z, false)

/-- The range of `n`-bit integers. -/
def intRange (signed : Bool) (n : Nat) : Int × Int :=
  if signed then (-(2 ^ (n - 1) : Nat), (2 ^ (n - 1) : Nat) - 1) else (0, (2 ^ n : Nat) - 1)

/-- `SatAdd32` (R48) on exact integers, and ACCSAT. -/
def satAdd32 (a b : Int) : Int × BitVec 8 :=
  let r := clampI (-(2 ^ 31 : Nat)) ((2 ^ 31 : Nat) - 1) (a + b)
  (r.1, flagIf r.2 fACCSAT)

/-! ## Conversions by format code (Table 1-10, Table 2-7) -/

/-- The floating-point format of a code, where it is one. -/
def fmtOfCode (c : Nat) : Option Fmt :=
  match c with
  | 6 => some fp8a | 7 => some fp8b | 8 => some fp16 | 9 => some bf16 | 10 => some fp32 | 11 => some fp64
  | _ => none

/-- Element bits of a format code (Table 1-10). -/
def codeBits (c : Nat) : Nat :=
  match c with
  | 3 | 8 | 9 => 16
  | 4 | 10 => 32
  | 5 | 11 | 14 => 64
  | 12 | 20 => 2
  | 13 | 19 => 4
  | _ => 8

/-- Whether a format code is assigned (Table 1-10). -/
def codeAssigned (c : Nat) : Bool := c ≤ 14 || (16 ≤ c && c ≤ 20)

/-- A TERN code's value (Table 2-6): 0b10 reads as 0. -/
def ternVal (c : Nat) : Int := match c % 4 with | 1 => 1 | 3 => -1 | _ => 0

/-- The code of a TERN value. -/
def ternCode (z : Int) : Nat := if z = 1 then 1 else if z = -1 then 3 else 0

/-- An integer element's value by its format code (codes 1 to 5, 12, 13). -/
def intVal (c x : Nat) : Int :=
  match c with
  | 2 => (x % 2 ^ 8 : Nat)
  | 12 => ternVal x
  | _ => sgnN (codeBits c) x

/-- The range of an integer format code. -/
def codeRange (c : Nat) : Int × Int :=
  match c with
  | 2 => (0, 255)
  | 12 => (-1, 1)
  | _ => intRange true (codeBits c)

/-- An integer in range as the code of its format. -/
def intCode (c : Nat) (z : Int) : Nat := if c = 12 then ternCode z else wrapN (codeBits c) z

/-- TERNBAD where a TERN element holds 0b10 (R40). -/
def ternFlag (c x : Nat) : BitVec 8 := flagIf (c == 12 && x % 4 == 2) fTERNBAD

/-- A datum converted to an integer format: rounded by the mode, then clamped; a NaN gives 0 (Table 2-7). -/
def toIntCode (v : Env) (dst : Nat) (neg : Bool) (n d : Nat) (e : Int) : Nat × BitVec 8 :=
  let r := roundInt v.rm neg n d e
  let k := clampI (codeRange dst).1 (codeRange dst).2 r.1
  (intCode dst k.1, if k.2 then fNV else flagIf r.2 fNX)

/-- One element converted between two of the format codes 1 to 13 by R42. Table 2-7 speaks of narrower and wider integers: one of
the same width and the other sign is clamped too, with ACCSAT (DESIGN CHOICE, log entry 93). -/
def convert (v : Env) (src dst x : Nat) : Nat × BitVec 8 :=
  match fmtOfCode src, fmtOfCode dst with
  | some F, some G => packX G v (unpack F v.ftz x)
  | some F, none =>
    match unpack F v.ftz x with
    | .nan _ => (intCode dst 0, fNV)
    | .inf n => (intCode dst (if n then (codeRange dst).1 else (codeRange dst).2), fNV)
    | .num n m e => toIntCode v dst n m 1 e
  | none, some G =>
    let z := intVal src x
    let r := roundTo G v (z < 0) z.natAbs 1 0
    (r.1, r.2 ||| ternFlag src x)
  | none, none =>
    let k := clampI (codeRange dst).1 (codeRange dst).2 (intVal src x)
    (intCode dst k.1, flagIf k.2 fACCSAT ||| ternFlag src x)

/-! ## Scaled blocks (R43 to R45, R305) -/

/-- R44: a scale conforms where it is finite, positive and normal. -/
def scaleOk (s : Nat) : Bool := 0x0080 ≤ s && s ≤ 0x7F7F

/-- The datum of one element of a block format: 16 FP8a, 17 FP8b, 18 INT8, 19 INT4, 20 TERN. -/
def blockElem (code x : Nat) : X :=
  match code with
  | 16 => unpackRaw fp8a x
  | 17 => unpackRaw fp8b x
  | _ =>
    let z : Int := match code with | 18 => sgnN 8 x | 19 => sgnN 4 x | _ => ternVal x
    .num (z < 0) z.natAbs 0

/-- The largest magnitude Q(F) of a block format (Table 14-5). -/
def blockMax (code : Nat) : Nat :=
  match code with | 16 => 448 | 17 => 57344 | 18 => 127 | 19 => 7 | _ => 1

/-- The scale exponent of R305 for a largest magnitude `n × 2^x`: the smallest e with A ≤ Q × 2^e, cut to −126..127. -/
def quantExp (q n : Nat) (x : Int) : Int :=
  if n = 0 then 0
  else
    let e0 := expOf n q x
    let p := scaled n q x e0
    let e := if p.1 ≤ p.2 then e0 else e0 + 1
    min (max e (-126)) 127

/-- One element of R305: x divided by 2^e and rounded by RNE to the format, clamped to Q. -/
def quantElem (code : Nat) (e : Int) (x : X) : Nat × BitVec 8 :=
  match x with
  | .num n m f =>
    let q := blockMax code
    let F := if code = 16 then fp8a else fp8b
    if code = 16 ∨ code = 17 then
      let p := scaled m 1 f e
      if q * p.2 < p.1 ∧ (roundTo F (envRne true) n m 1 (f - e)).2 &&& fOF ≠ 0 then
        (F.withSign n F.maxCode, fACCSAT ||| fNX)
      else
        let r := roundTo F (envRne true) n m 1 (f - e)
        r
    else
      let r := roundInt .rne n m 1 (f - e)
      let k := clampI (-(q : Int)) q r.1
      (if code = 20 then ternCode k.1 else wrapN (codeBits code) k.1,
        flagIf k.2 fACCSAT ||| flagIf (r.2 || k.2) fNX)
  | _ => (0, 0)

/-- The quantisation rule of R305 over a block's data: scale, elements, flags. -/
def quantRule (code : Nat) (xs : List X) : Nat × List Nat × BitVec 8 :=
  if xs.any (fun x => x.isNan || x.isInf) then (0x7FC0, xs.map (fun _ => 0), fNV)
  else
    let e0 := minExp xs
    let big := xs.foldl (fun a x => max a (sumInt e0 [x]).natAbs) 0
    let e := quantExp (blockMax code) big e0
    let els := xs.map (quantElem code e)
    ((e + 127).toNat * 128, els.map (·.1), els.foldl (fun a r => a ||| r.2) 0)

end Sys2Proof.Machine
end

