-- ==== Sys2Proof/Machine/Exact.lean ====
section
/-! DEFINITION. Exact rationals: the prime table, residues and the bounded Euclid step of spec/03_rationals.md, and
the rational bounds that hold the special functions of spec/13_isa_vector.md to R294. -/

namespace Sys2Proof.Machine

/-! ## The prime table (Table 3-2) -/

/-- p and k of an entry. -/
def primeOf (idx : Nat) : Nat × Nat :=
  match idx with
  | 0 => (3, 39) | 1 => (5, 27) | 2 => (7, 22) | 3 => (11, 18) | 4 => (13, 17) | 5 => (17, 15) | 6 => (19, 14)
  | 7 => (23, 13) | 8 => (29, 12) | 9 => (31, 12) | 10 => (251, 7) | 11 => (65521, 3) | 12 => (1048573, 3)
  | 13 => (2147483647, 2) | 14 => (4294967291, 1) | _ => (9223372036854775783, 1)

/-- M = p^k (R57). -/
def modulus (idx : Nat) : Nat := (primeOf idx).1 ^ (primeOf idx).2

/-- ⌈log₂ M⌉ (Table 3-2). -/
def modLog (idx : Nat) : Nat := (modulus idx - 1).log2 + 1

/-- The step limit 2·⌈log₂ M⌉ + 2 (R57). -/
def stepLimit (idx : Nat) : Nat := 2 * modLog idx + 2

/-- The decode bound N = ⌊√((M − 1)/2)⌋ (R65). -/
def decodeBound (idx : Nat) : Nat := isqrt ((modulus idx - 1) / 2)

/-- `Mod(a, M)` (R60). -/
def modI (a : Int) (M : Nat) : Nat := (a % (M : Int)).toNat

/-- Extended Euclid on (r0, r1) with cofactors (t0, t1), for at most `fuel` steps, while `r1` exceeds `stop`. -/
def euclid (stop : Nat) : Nat → Nat → Nat → Int → Int → Nat × Int
  | 0, _, r1, _, t1 => (r1, t1)
  | fuel + 1, r0, r1, t0, t1 =>
    if r1 ≤ stop then (r1, t1)
    else
      let q := r0 / r1
      euclid stop fuel r1 (r0 - q * r1) t1 (t0 - q * t1)

/-- The greatest common divisor, by at most `fuel` Euclid steps. -/
def gcdFuel : Nat → Nat → Nat → Nat
  | 0, a, _ => a
  | fuel + 1, a, b => if b = 0 then a else gcdFuel fuel b (a % b)

/-- `Inv(a)`: the inverse of a residue modulo M (R60), for a that p does not divide. -/
def invMod (a M : Nat) : Nat :=
  if M = 1 then 0 else modI (euclid 1 200 M (a % M) 0 1).2 M

/-- The valuation of a residue: trailing zero base-p digits, k for zero (R62). -/
def valuation (p : Nat) : Nat → Nat → Nat
  | 0, _ => 0
  | k + 1, x => if x % p = 0 then 1 + valuation p k (x / p) else 0

/-- R65: the pair a residue decodes to, and whether none was found within the bound. -/
def reconstruct (idx x : Nat) : Int × Int × Bool :=
  let N := decodeBound idx
  let r := euclid N (stepLimit idx) (modulus idx) x 0 1
  if N < r.2.natAbs ∨ gcdFuel 200 r.1 r.2.natAbs ≠ 1 then (0, 1, true)
  else if r.2 < 0 then (-(r.1 : Int), -r.2, false) else (r.1, r.2, false)

end Sys2Proof.Machine
end

