-- ==== Sys2Proof/Machine/Ops.lean ====
section
/-! DEFINITION. The named operations over the state: tables, memory, registers, waits, taking an exception and
returning from one (R196 to R200), and the plumbing by which an instruction's meaning becomes a step. -/

namespace Sys2Proof.Machine

/-! ## Tables -/

/-- The entry under a key, where there is one. -/
def tfind {α : Type} (t : List (Nat × α)) (k : Nat) : Option α :=
  match t with
  | [] => none
  | (j, x) :: r => if j = k then some x else tfind r k

/-- The entry under a key, or `d`. -/
def tget {α : Type} (t : List (Nat × α)) (k : Nat) (d : α) : α := (tfind t k).getD d

/-- A table with the entry under `k` replaced or added. -/
def tset {α : Type} (t : List (Nat × α)) (k : Nat) (x : α) : List (Nat × α) :=
  match t with
  | [] => [(k, x)]
  | (j, y) :: r => if j = k then (k, x) :: r else if k < j then (k, x) :: (j, y) :: r else (j, y) :: tset r k x

/-- A table without the entries under `k`. -/
def tdel {α : Type} (t : List (Nat × α)) (k : Nat) : List (Nat × α) := t.filter (fun p => p.1 != k)

/-- A list with the first element that meets `p` replaced. -/
def lupd {α : Type} (p : α → Bool) (f : α → α) : List α → List α
  | [] => []
  | x :: r => if p x then f x :: r else x :: lupd p f r

/-! ## Memory: a canonical list of cells (sorted, no cell holding what an unlisted address reads as) -/

/-- What an unlisted byte reads as: zero (R154: a page reads zero when it is issued; log entry 4). -/
def blankByte : Byte := 0

/-- The byte at an address. -/
def readByte (m : List Host.Cell) (a : Nat) : Byte :=
  match m with
  | [] => blankByte
  | (j, x) :: r => if j = a then x else readByte r a

/-- One byte written, keeping the canonical form. -/
def writeByte (m : List Host.Cell) (a : Nat) (b : Byte) : List Host.Cell :=
  match m with
  | [] => if b = blankByte then [] else [(a, b)]
  | (j, x) :: r =>
    if j = a then (if b = blankByte then r else (a, b) :: r)
    else if a < j then (if b = blankByte then (j, x) :: r else (a, b) :: (j, x) :: r)
    else (j, x) :: writeByte r a b

/-- The canonical form: addresses strictly rising from `lo`, and no cell equal to what an unlisted address reads as. -/
def wfFrom (lo : Nat) : List Host.Cell → Bool
  | [] => true
  | (a, b) :: r => lo ≤ a && b != blankByte && wfFrom (a + 1) r

/-- A memory in canonical form. -/
def Memory.wf (m : List Host.Cell) : Bool := wfFrom 0 m

/-- `n` bytes from `a` up. -/
def readBytes (m : List Host.Cell) (a n : Nat) : List Byte := (List.range n).map (fun i => readByte m (a + i))

/-- Bytes written from `a` up. -/
def writeBytes (m : List Host.Cell) (a : Nat) : List Byte → List Host.Cell
  | [] => m
  | b :: r => writeBytes (writeByte m a b) (a + 1) r

/-- Bytes as a little-endian number (R1). -/
def leNat : List Byte → Nat
  | [] => 0
  | b :: r => b.toNat + 256 * leNat r

/-- The low `n` bytes of a number, little-endian (R1). -/
def leBytes (n x : Nat) : List Byte := (List.range n).map (fun i => BitVec.ofNat 8 (x / 256 ^ i))

/-- A 64-bit word of memory. -/
def readWord (m : List Host.Cell) (a : Nat) : Word := BitVec.ofNat 64 (leNat (readBytes m a 8))

def writeWord (m : List Host.Cell) (a : Nat) (w : Word) : List Host.Cell := writeBytes m a (leBytes 8 w.toNat)

/-- `n` 64-bit words of memory. -/
def readWords (m : List Host.Cell) (a n : Nat) : List Word := (List.range n).map (fun i => readWord m (a + 8 * i))

/-- A word list's entry, zero beyond its end. -/
def wordAt (ws : List Word) (i : Nat) : Nat := (ws.getD i 0).toNat

/-! ## Places (R8) -/

def keyOf (tile slot : Nat) : Nat := tile * 16 + slot
def tileOf (key : Nat) : Nat := key / 16
def slotOf (key : Nat) : Nat := key % 16
def dieOf (tile : Nat) : Nat := tile / 1024
def rowOf (tile : Nat) : Nat := tile / 32 % 32
def colOf (tile : Nat) : Nat := tile % 32
/-- Package column and row (R8). -/
def pkgCol (tile : Nat) : Nat := colOf tile + 32 * (dieOf tile % 2)
def pkgRow (tile : Nat) : Nat := rowOf tile + 32 * (dieOf tile / 2)
/-- The quad of a tile within the package: die × 256 + (y >> 1) × 16 + (x >> 1) (R8). -/
def quadOf (tile : Nat) : Nat := dieOf tile * 256 + rowOf tile / 2 * 16 + colOf tile / 2
/-- CORE_ID[19:0] of a tile of this package (Table 1-2). -/
def coreId (s : State) (tile : Nat) : Nat := s.pkg * 4096 + tile

/-! ## Access to the parts of the state -/

def State.thr (s : State) (k : Nat) : Thread := tget s.threads k .reset
/-- A tile's core. One of which nothing is recorded has stepped its rotation with the others, from entry 31 at package reset
(R11; DESIGN CHOICE, log entry 80). -/
def State.core (s : State) (t : Nat) : Core := tget s.cores t { Core.reset with rotPos := (s.cycle + 31) % 32 }
def State.bank (s : State) (t : Nat) : Bank := tget s.banks t .reset
def State.quad (s : State) (q : Nat) : Quad := tget s.quads q .reset
def State.die (s : State) (d : Nat) : Die := tget s.dies d .reset
def State.ctx (s : State) (c : Nat) : Ctx := tget s.ctxs c .reset
def State.launch (s : State) (l : Nat) : Launch := tget s.launches l .reset
def State.port (s : State) (p : Nat) : Port := tget s.ports p .reset

def State.setThr (s : State) (k : Nat) (t : Thread) : State := { s with threads := tset s.threads k t }
def State.setCore (s : State) (t : Nat) (c : Core) : State := { s with cores := tset s.cores t c }
def State.setBank (s : State) (t : Nat) (b : Bank) : State := { s with banks := tset s.banks t b }
def State.setQuad (s : State) (q : Nat) (x : Quad) : State := { s with quads := tset s.quads q x }
def State.setDie (s : State) (d : Nat) (x : Die) : State := { s with dies := tset s.dies d x }
def State.setCtx (s : State) (c : Nat) (x : Ctx) : State := { s with ctxs := tset s.ctxs c x }
def State.setLaunch (s : State) (l : Nat) (x : Launch) : State := { s with launches := tset s.launches l x }
def State.setPort (s : State) (p : Nat) (x : Port) : State := { s with ports := tset s.ports p x }

def State.updThr (s : State) (k : Nat) (f : Thread → Thread) : State := s.setThr k (f (s.thr k))
def State.updCore (s : State) (t : Nat) (f : Core → Core) : State := s.setCore t (f (s.core t))
def State.updBank (s : State) (t : Nat) (f : Bank → Bank) : State := s.setBank t (f (s.bank t))
def State.updQuad (s : State) (q : Nat) (f : Quad → Quad) : State := s.setQuad q (f (s.quad q))
def State.updDie (s : State) (d : Nat) (f : Die → Die) : State := s.setDie d (f (s.die d))
def State.updCtx (s : State) (c : Nat) (f : Ctx → Ctx) : State := s.setCtx c (f (s.ctx c))
def State.updLaunch (s : State) (l : Nat) (f : Launch → Launch) : State := s.setLaunch l (f (s.launch l))
def State.updPort (s : State) (p : Nat) (f : Port → Port) : State := s.setPort p (f (s.port p))

/-! ## The context mailbox block of a function (R168) -/

/-- Where a function's block stands in its BAR0: the physical function's has the number 0. -/
def boxBase (ctx : Nat) : Nat := if ctx = 0 then 0x0600_2000 else 0x1000
/-- The places of the attestation, the observation and the call mailbox in the block. -/
def attestAt : Nat := 0x000
def obsAt : Nat := 0x100
def callAt : Nat := 0x180
/-- The byte at an offset of a function's block. -/
def State.boxByte (s : State) (ctx i : Nat) : Byte := (tget s.boxes ctx []).getD i 0
def State.boxBytes (s : State) (ctx off n : Nat) : List Byte := (List.range n).map fun i => s.boxByte ctx (off + i)
/-- Bytes written from an offset of a function's block on. -/
def State.putBox (s : State) (ctx off : Nat) (bs : List Byte) : State :=
  { s with boxes := tset s.boxes ctx ((List.range 512).map fun i =>
      if off ≤ i ∧ i < off + bs.length then bs.getD (i - off) 0 else s.boxByte ctx i) }
/-- The mailboxes of a function: bytes of the attestation and the call mailbox, words of the observation mailbox. -/
def State.attest (s : State) (ctx : Nat) : List Byte := s.boxBytes ctx attestAt 256
def State.callBox (s : State) (ctx : Nat) : List Byte := s.boxBytes ctx callAt 96
def State.obs (s : State) (ctx : Nat) : List Word :=
  (List.range 16).map fun i => BitVec.ofNat 64 (leNat (s.boxBytes ctx (obsAt + 8 * i) 8))
def State.putObs (s : State) (ctx : Nat) (ws : List Word) : State :=
  s.putBox ctx obsAt (ws.map fun w => leBytes 8 w.toNat).flatten

/-- The thread whose instruction is under way. -/
def State.me (s : State) : Thread := s.thr s.cur
/-- Its core. -/
def State.myCore (s : State) : Core := s.core (tileOf s.cur)
def State.updMe (s : State) (f : Thread → Thread) : State := s.updThr s.cur f
def State.updMyCore (s : State) (f : Core → Core) : State := s.updCore (tileOf s.cur) f

/-- The launch a tile's core belongs to. -/
def lidOf (s : State) (tile : Nat) : Nat := (s.core tile).launch.getD 0
/-- The context a tile's core works for: that of its launch, 0 where it has none. -/
def ctxOf (s : State) (tile : Nat) : Nat :=
  match (s.core tile).launch with
  | some l => (s.launch l).ctx
  | none => 0

/-- A thread in slot 13, 14 or 15 is privileged (R10). -/
def privileged (key : Nat) : Bool := 13 ≤ slotOf key

/-- The capability a thread's messages and accesses carry: the PKEY of its context, 0 for firmware (R155, R156). -/
def capOf (s : State) (key : Nat) : Nat :=
  if privileged key then 0 else (s.ctx (ctxOf s (tileOf key))).pkey.toNat

/-! ## Registers (R15): `s0`, `k0`, `m0` read as zero, true, all ones, and ignore writes -/

/-- The registers an instruction reads: those before the pair in the second half of one (R235). -/
def Thread.src (t : Thread) : Regs := t.view.getD t.regs

def Regs.rs (r : Regs) (i : Nat) : Word := if i = 0 then 0 else if h : i < 32 then r.s[i] else 0
def Regs.rk (r : Regs) (i : Nat) : Bool := if i = 0 then true else if h : i < 8 then r.k[i] else false
def Regs.rm (r : Regs) (i : Nat) : Mask := if i = 0 then BitVec.allOnes 16 else if h : i < 8 then r.m[i] else 0
def Regs.rv (r : Regs) (i : Nat) : Vec := if h : i < 24 then r.v[i] else 0

/-- A scalar word written whole: an error it held is gone (R208). -/
def Regs.ws (r : Regs) (i : Nat) (x : Word) : Regs :=
  if i = 0 then r else { r with s := r.s.setIfInBounds i x, lost := r.lost.filter (· != i) }
def Regs.wk (r : Regs) (i : Nat) (x : Bool) : Regs := if i = 0 then r else { r with k := r.k.setIfInBounds i x }
def Regs.wm (r : Regs) (i : Nat) (x : Mask) : Regs := if i = 0 then r else { r with m := r.m.setIfInBounds i x }
/-- A vector register written whole: the errors its elements held are gone (R208). -/
def Regs.wv (r : Regs) (i : Nat) (x : Vec) : Regs :=
  { r with v := r.v.setIfInBounds i x, lost := r.lost.filter fun n => !(32 ≤ n && (n - 32) / 8 == i) }

def State.rs (s : State) (i : SReg) : Word := s.me.src.rs i.val
def State.rk (s : State) (i : KReg) : Bool := s.me.src.rk i.val
def State.rm (s : State) (i : MReg) : Mask := s.me.src.rm i.val
def State.rv (s : State) (i : Nat) : Vec := s.me.src.rv i

def State.ws (s : State) (i : SReg) (x : Word) : State := s.updMe fun t => { t with regs := t.regs.ws i.val x }
def State.wk (s : State) (i : KReg) (x : Bool) : State := s.updMe fun t => { t with regs := t.regs.wk i.val x }
def State.wm (s : State) (i : MReg) (x : Mask) : State := s.updMe fun t => { t with regs := t.regs.wm i.val x }
def State.wv (s : State) (i : Nat) (x : Vec) : State := s.updMe fun t => { t with regs := t.regs.wv i x }

/-- An operation that raises flags sets their bits; none clears one (R32). -/
def State.raise (s : State) (f : BitVec 8) : State := s.updMe fun t => { t with fpflags := t.fpflags ||| f }

/-- Flags that reach a thread from elsewhere (an engine command, a helper's `stop`): they stay where an access that is
outstanding takes its instruction back (R32, R33). -/
def raiseTo (s : State) (key : Nat) (f : BitVec 8) : State :=
  let mine (r : Req) : Bool := match r.owner with | .thread k => k == key | _ => false
  { s.updThr key (fun t => { t with fpflags := t.fpflags ||| f }) with
    reqs := s.reqs.map fun r =>
      if mine r then { r with undo := r.undo.map fun u => { u with flags := u.flags ||| f } } else r }

/-! ## Stops of an instruction -/

/-- Why an instruction does not run to its end now. What each leaves is in `settle`. -/
inductive Halt where
  | fault (f : FaultRec)             -- it raises a fault (R197)
  | wait (w : Wait)                  -- its thread is not ready (Table 5-1)
  | drain                            -- it waits for earlier accesses, and the combining buffer drains (R73, R74)
  | failure                          -- a failed earlier access is reported here (R75, R310)
  | report                           -- a diverted or failed message is reported here (R158, R214)
  | miss (vpn : Nat)                 -- a TLB miss on a page (R150)
  | stopCore                         -- a watch or breakpoint halts the core (R221)
  | stash (r : Req)                  -- it reads words that it goes on with when they have come
  | ask (k : KeeperReq)              -- it waits for its keeper's answer (R107)
  | offer (op : Compared)            -- the leading thread of a pair presents an operation (R209)
  | judge (op : Compared) (v : Verdict)   -- the trailing thread compares its own with it
  | call (c : Call)                  -- a request to the driver joins the context's queue (R356)
  | finish (x : Word)                -- `done`: the core's part ends when its waits end (R132)
  deriving DecidableEq, Repr

/-- A step of an instruction's meaning. -/
abbrev M (α : Type) := Except Halt α

/-- A precise fault (R197). -/
def raisePrecise {α : Type} (c : Code) (detail val : Nat) : M α := .error (.fault ⟨c, detail, val, none, false⟩)

/-- A wait that begins or goes on (R93). -/
def blockOn {α : Type} (w : Wait) : M α := .error (.wait w)

/-- Go on where `c` holds, otherwise raise. -/
def ensure (c : Bool) (k : Code) (detail val : Nat) : M Unit := if c then .ok () else raisePrecise k detail val

/-- Go on where `c` holds, otherwise wait. -/
def await (c : Bool) (w : Wait) : M Unit := if c then .ok () else blockOn w

/-! ## Fault codes (Table 9-1) -/

def Code.num : Code → Nat
  | .debug => 0x01 | .sched => 0x02 | .lane => 0x03 | .qdiv => 0x04 | .align => 0x05 | .format => 0x06
  | .pair => 0x07 | .illegal => 0x08 | .priv => 0x09 | .xlate => 0x0A | .tag => 0x0B | .lapsed => 0x0C
  | .deadline => 0x0D | .barlate => 0x0E | .pool => 0x0F | .stall => 0x10 | .engine => 0x11 | .contain => 0x12
  | .redund => 0x13 | .uncorr => 0x14

def codeOfNum (n : Nat) : Option Code :=
  match n with
  | 0x01 => some .debug | 0x02 => some .sched | 0x03 => some .lane | 0x04 => some .qdiv | 0x05 => some .align
  | 0x06 => some .format | 0x07 => some .pair | 0x08 => some .illegal | 0x09 => some .priv | 0x0A => some .xlate
  | 0x0B => some .tag | 0x0C => some .lapsed | 0x0D => some .deadline | 0x0E => some .barlate | 0x0F => some .pool
  | 0x10 => some .stall | 0x11 => some .engine | 0x12 => some .contain | 0x13 => some .redund | 0x14 => some .uncorr
  | _ => none

/-! ## Trap registers (Table 9-2) -/

/-- HADDR × 4 (Table 9-2). -/
def Thread.handler (t : Thread) : Nat := t.trapvec.toNat % 2 ^ 48 / 4 * 4
/-- TRAPCAUSE.ACT. -/
def Thread.act (t : Thread) : Bool := t.trapcause.toNat / 2 ^ 18 % 2 == 1

/-- TRAPCAUSE as a fault writes it: SEQ, ACT = 1, DLX, IMPR, DETAIL, CODE (R198). -/
def causeWord (f : FaultRec) (dlx : Bool) : Word :=
  BitVec.ofNat 64 ((f.impr.getD 0 % 2 ^ 16) * 2 ^ 32 + 2 ^ 18 + (if dlx then 2 ^ 17 else 0) +
    (if f.impr.isSome then 2 ^ 16 else 0) + f.detail % 2 ^ 8 * 2 ^ 8 + f.code.num)

/-! ## The trace encoder (R226) -/

/-- A trace record offered by a core: buffered while TREN is 1, dropped and counted where 64 stand waiting. The first place
that then comes free is the loss record's (`traceDrain`). -/
def traceRecord (s : State) (key kind addr : Nat) (data : Word) : State :=
  let tile := tileOf key
  let c := s.core tile
  match c.trace with
  | none => s
  | some t =>
    if c.dbgctl.getLsbD 8 then
      let w0 : Word := BitVec.ofNat 64 (kind * 2 ^ 60 + slotOf key * 2 ^ 56 + addr % 2 ^ 48)
      if 64 ≤ t.buf.length then s.setCore tile { c with trace := some { t with drops := t.drops + 1 } }
      else s.setCore tile { c with trace := some { t with buf := t.buf ++ [(w0, data)] } }
    else s

/-! ## What a thread has outstanding (R72 to R75) -/

def Req.ofThread (r : Req) (key : Nat) : Bool := match r.owner with | .thread k => k == key | .engine _ _ _ | .peer _ _ _ _ _ => false

/-- The accesses a thread has in flight. -/
def State.inFlight (s : State) (key : Nat) : List Req := s.reqs.filter (·.ofThread key)

/-- A combining buffer entry put in flight: one store of all its bytes, performed at one instant (R74). Should it fail, TRAPVAL
holds the address of the first of the stores merged in it (DESIGN CHOICE, log entry 94). -/
def combReq (s : State) (key id : Nat) (c : Comb) : Req where
  id := id
  owner := .thread key
  ctx := ctxOf s (tileOf key)
  lid := lidOf s (tileOf key)
  va := c.va
  rlx := true
  kind := .store
  size := c.bytes.length
  parts := [⟨c.va, (List.range c.bytes.length).map (fun i => ((c.bytes.getD i (0, 0)).1, i)), .waiting⟩]
  buf := c.bytes.map (·.2)
  fin := .none
  undo := none
  fault := none
  stamp := none
  seq := c.seq
  last := false

/-- Entries of a thread's combining buffer that meet `p` drain (R74). -/
def drainWhere (p : Comb → Bool) (key : Nat) (s : State) : State :=
  (s.thr key).comb.foldl
    (fun s c =>
      if p c then
        { s.updThr key (fun t => { t with comb := t.comb.filter (fun x => !(x.granule == c.granule)) }) with
          reqs := s.reqs ++ [combReq s key s.nextId c], nextId := s.nextId + 1 }
      else s) s

def drainAll (key : Nat) (s : State) : State := drainWhere (fun _ => true) key s

/-- A thread has accesses that are neither performed nor failed. -/
def State.busy (s : State) (key : Nat) : Bool := (s.inFlight key).length != 0 || (s.thr key).comb.length != 0

/-! ## Ending a thread, and terminal faults (R199) -/

/-- The largest fault code a launch's core has seen (WORST, Table 6-9). -/
def noteWorst (s : State) (key : Nat) (code : Nat) (terminal : Bool) : State :=
  s.updCore (tileOf key) fun c =>
    { c with worst := max c.worst code, faulted := c.faulted || terminal }

/-- A queued `hcall` of a thread (R356). -/
def callOf (s : State) (key : Nat) (q : Call) : Bool :=
  q.lid == lidOf s (tileOf key) && q.index == (s.core (tileOf key)).index && q.slot == slotOf key

/-- A thread's `hcall` is abandoned: its request leaves the queue, or is answered into nothing (R356). -/
def dropCall (s : State) (key : Nat) : State :=
  s.updCtx (ctxOf s (tileOf key)) fun c =>
    { c with
      calls := c.calls.filter fun q => !callOf s key q
      orphan := c.orphan || (match c.posted with | some q => callOf s key q | none => false) }

/-- R158, R214: reports of messages that a thread leaves behind at its end are taken by slot 0 of its core. -/
def passReports (s : State) (key : Nat) : State :=
  let zero := keyOf (tileOf key) 0
  if key = zero ∨ !(s.thr zero).live then s
  else s.updThr zero fun t =>
    { t with contain := t.contain ++ (s.thr key).contain, stalls := t.stalls ++ (s.thr key).stalls }

/-- A slot ends: its combining buffer drains, and no thread is live there (R95). -/
def endThread (s : State) (key : Nat) : State :=
  let s := passReports (drainAll key (if (s.thr key).wait = some .call then dropCall s key else s)) key
  s.updThr key fun t =>
    { t with live := false, wait := none, role := .alone, cmp := none, lvq := [], got := none, view := none, oldDl := none
             parked := false, contain := [], stalls := [] }

/-- The other slot of a protected pair (R209: slots 2j − 1 and 2j). -/
def partnerOf (key : Nat) : Nat := if slotOf key % 2 = 1 then key + 1 else key - 1

/-- A terminal fault in slot 0: the core stops its helpers, slots 1 to 10, at their next boundary, and its part of the launch
ends as by `done` with operand 0 (R199): no thread is live in slot 0 from then on, a handler in slot 11 or 12 runs on to its
stop (R101), and CORE_COMPLETION waits for the rest. In slots 1 to 12 the slot ends as by `stop`, its flags joining slot 0's (R332); the
firmware slots end likewise. Both threads of a protected pair end together (R210). -/
def endByFault (s : State) (key : Nat) (code : Nat) : State :=
  let s := noteWorst s key code true
  let tile := tileOf key
  if slotOf key = 0 then
    let s := (List.range 10).foldl (fun s i => endThread s (keyOf tile (i + 1))) s
    endThread (s.updCore tile fun c => { c with doneOp := some 0 }) key
  else
    let t := s.thr key
    let s := raiseTo s (keyOf tile 0) t.fpflags
    let s := if t.role = .alone then s else endThread s (partnerOf key)
    endThread s key

/-! ## Taking a fault (R198 to R200), and returning (R355) -/

/-- A code address: the low two bits of a word that gives one are ignored, as in TRAPVEC (DESIGN CHOICE, log entry 13). -/
def codeAddr (w : Word) : VAddr := BitVec.ofNat 48 (w.toNat % 2 ^ 48 / 4 * 4)

/-- Whether a fault taken by a thread now is terminal: no handler, a double fault of a precise fault, or one that
Table 9-6 marks (R199). -/
def isTerminal (t : Thread) (f : FaultRec) : Bool :=
  f.terminal || t.handler == 0 || (f.impr.isNone && t.act)

/-- A STEP of the slot is over: its instruction has issued, or it stands at the first boundary of a handler (R223). -/
def endStep (s : State) (key : Nat) : State :=
  if (s.core (tileOf key)).step = some (slotOf key) then s.updCore (tileOf key) fun c => { c with step := none } else s

/-- Whether a thread's budget has run out and is not yet taken. A budget written with EN set and LEFT 0 has run out at once
(DESIGN CHOICE, log entry 95). -/
def deadlineDue (t : Thread) : Bool := t.dlDue || (t.dlEn && t.dlLeft == 0)

/-- The trap registers as a fault writes them (R196, R198): ACT is set, and DLX where a DEADLINE due at the same boundary is
not taken (R200). -/
def trapNote (f : FaultRec) (t : Thread) : Thread :=
  { t with
    trappc := BitVec.ofNat 64 t.pc.toNat
    trapcause := causeWord f (deadlineDue t && f.code != .deadline)
    trapval := BitVec.ofNat 64 f.val }

/-- R198: take a fault at the boundary whose address is the thread's program counter. The combining buffer has drained
(its entries are put in flight by the caller). TRAPPC, TRAPCAUSE and TRAPVAL are written, ACT is set, and the thread
goes on at HADDR × 4. A DEADLINE due at the same boundary is not taken: EN is clear and DLX is set (R200). A fault of
a leading thread parks the trailing one, whose budget it takes with its own (R118, R210). -/
def takeFault (s : State) (key : Nat) (f : FaultRec) : State :=
  let x := s.thr key
  let t := { x with dlDue := x.dlDue || (x.role == .leading && deadlineDue (s.thr (partnerOf key))) }
  if isTerminal t f then endByFault s key f.code.num
  else
    let t' := { trapNote f t with
      dlDue := false
      dlEn := if deadlineDue t then false else t.dlEn
      pc := BitVec.ofNat 48 t.handler
      npc := BitVec.ofNat 48 t.handler
      wait := none
      view := none
      oldDl := none
      ibuf := []
      noHit := false
      walkFault := none
      got := none
      cmp := none
      role := if t.role = .leading then .handling else t.role }
    let s := noteWorst (s.setThr key t') key f.code.num false
    let s := if t.role = .leading then
        s.updThr (partnerOf key) fun p =>
          { p with parked := true, dlEn := if deadlineDue p then false else p.dlEn, dlDue := false }
      else s
    traceRecord (endStep s key) key 4 t.pc.toNat t'.trapcause

/-- The class of a wait's rotation entries: 1 memory, 2 message (Table 5-1). -/
def Wait.cls : Wait → Nat
  | .load _ | .accessSlot | .sfu | .engine | .reservation | .granule | .engineQueue | .translation | .keeper _
  | .tlbInvalidate | .pair => 1
  | .channel | .placement | .barrier _ _ _ | .podBarrier _ _ _ | .join | .time _ | .pool _ | .call | .completion | .probe
  | .stagger _ => 2

/-- Waits that DEADLINE abandons (R118). The rule names the delay of a stagger (R137) on neither side: it is not abandoned, and the
fault is kept until it ends (DESIGN CHOICE, log entry 108). -/
def Wait.abandonable : Wait → Bool
  | .granule | .channel | .placement | .barrier _ _ _ | .podBarrier _ _ _ | .join | .time _ | .reservation | .engineQueue
  | .pool _ | .call | .completion | .probe | .pair => true
  | _ => false

/-! ## Channels that an instruction popped and pushed are settled with it (R17, R98) -/

/-- The channel number that stands for the inbox bound to `ch0` of slot 11 (R102). -/
def inboxChan : Nat := 1000

/-- One popped message's credit starts back to the writer (R98); its place in the inbox is free (R102). -/
def releasePop (s : State) (tile lid : Nat) (p : Nat × Vec) : State :=
  if p.1 = inboxChan then s.updCore tile fun c => { c with inboxDue := c.inboxDue - 1 }
  else s.updLaunch lid fun l =>
    { l with chans := l.chans.mapIdx (fun i c => if i = p.1 then { c with returns := c.returns + 1 } else c) }

/-- One pushed message starts to its reader (R98); a push of slot 11 stands at the head of the inbox (R102). -/
def releasePush (s : State) (tile lid : Nat) (p : Nat × Vec) : State :=
  if p.1 = inboxChan then s.updCore tile fun c => { c with inbox := p.2 :: c.inbox, inboxDue := c.inboxDue - 1 }
  else s.updLaunch lid fun l =>
    { l with chans := l.chans.mapIdx (fun i c => if i = p.1 then { c with flight := c.flight ++ [p.2] } else c) }

/-- A thread has an access outstanding whose failure takes its instruction back. -/
def takesBack (s : State) (key : Nat) : Bool := s.reqs.any fun r => r.ofThread key && r.undo.isSome

/-- A thread's pops and pushes kept with the plain load or atomic that is outstanding, until its value arrives (R197). -/
def keepChans (s : State) (key : Nat) (ps qs : List (Nat × Vec)) : State :=
  let keep (u : Undo) : Undo := { u with pops := u.pops ++ ps, pushes := u.pushes ++ qs }
  { s with reqs := lupd (fun r => r.ofThread key && r.undo.isSome) (fun q => { q with undo := q.undo.map keep }) s.reqs }

/-- At the end of an instruction: its pops and pushes take effect, unless a plain load or atomic of it is outstanding,
which keeps them until its value arrives (R197). -/
def settleChans (s : State) (key : Nat) : State :=
  let t := s.thr key
  match t.pops, t.pushes with
  | [], [] => s
  | ps, qs =>
    let lid := lidOf s (tileOf key)
    let s := s.updThr key fun t => { t with pops := [], pushes := [] }
    if takesBack s key then keepChans s key ps qs
    else qs.foldl (fun s q => releasePush s (tileOf key) lid q) (ps.foldl (fun s p => releasePop s (tileOf key) lid p) s)

/-- A message under way that the running thread has sent. -/
def ownMsg (s : State) (m : Msg) : Bool := m.key == s.cur && m.lid == lidOf s (tileOf s.cur)

/-! ## From a meaning to a step -/

/-- A wait for a pool entry counts from the first time it was met (R135). -/
def sinceFirst (old : Option Wait) (w : Wait) : Wait :=
  match old, w with
  | some (.pool t), .pool _ => .pool t
  | _, w => w

/-- The thread waits, and nothing of its instruction has been done. -/
def stay (s : State) (w : Wait) : State :=
  { s.updMe (fun t => { t with wait := some (sinceFirst t.wait w) }) with did := .blocked w }

/-- The oldest of a thread's failures. -/
def oldest (l : List Failure) : Option Failure :=
  l.foldl (fun a x => match a with | none => some x | some y => if x.seq < y.seq then some x else some y) none

/-- A failure of an access leaves those that wait to be reported. -/
def dropFailure (s : State) (key : Nat) (x : Failure) : State :=
  s.updThr key fun t => { t with failures := t.failures.filter fun y => !(y.seq == x.seq) }

/-- Sequence of a ring entry counted from the oldest that the ring can hold (R203). -/
def ringAge (c : Core) (e : RingEntry) : Nat := (e.seq - c.eseq + 64).toNat

/-- The thread that pushed a command has not ended. -/
def pusherLive (s : State) (tile : Nat) (e : RingEntry) : Bool :=
  (s.thr (keyOf tile e.slot)).live && (s.thr (keyOf tile e.slot)).born == e.own

/-- R203: the failed command that a thread is to be told of: its own, or for slot 0 one pushed by a thread that has
executed `stop`; the oldest first. -/
def pendingImprecise (s : State) (key : Nat) : Option (Nat × RingEntry) :=
  let c := s.core (tileOf key)
  (c.ring.filter fun e => e.2.state == 3 && !e.2.taken &&
    (if pusherLive s (tileOf key) e.2 then e.2.slot == slotOf key else slotOf key == 0)).foldl
    (fun a e => match a with
      | none => some e
      | some x => if ringAge c e.2 < ringAge c x.2 then some e else some x) none

/-- An imprecise report that a thread takes at its next boundary. -/
def impreciseDue (s : State) (key : Nat) : Bool := !(s.thr key).act && (pendingImprecise s key).isSome

/-- The report that a boundary takes before a DEADLINE or a fault of the instruction (R200): a failed access, the oldest first
(R75); then CONTAIN of a diverted message, or STALL of one that was not placed, with its header (R158, R214). The others
come on later executions. -/
def earlierReport (s : State) (key : Nat) : Option (FaultRec × State) :=
  let t := s.thr key
  match oldest t.failures with
  | some x => some (x.fault, dropFailure s key x)
  | none =>
    match t.contain, t.stalls with
    | h :: r, _ => some (⟨.contain, 0, h.toNat, none, false⟩, s.updThr key fun t => { t with contain := r })
    | [], (p, h) :: r => some (⟨.stall, p, h.toNat, none, false⟩, s.updThr key fun t => { t with stalls := r })
    | [], [] => none

/-- A fault of the instruction under way is taken once every access of the thread is performed or has failed (R75,
R197); until then the combining buffer drains and the instruction is met again. An imprecise report that is due comes first,
then a failure or a message that waits to be reported (R200, R310). A trailing thread leaves its faults to the leading one
(R210). -/
def trapOn (s : State) (f : FaultRec) (t : State) : State :=
  if s.me.role = .trailing then stay s .pair
  else if s.busy s.cur then stay (drainAll s.cur s) .accessSlot
  else if impreciseDue s s.cur then stay (s.updMe fun t => { t with got := none }) .accessSlot
  else match earlierReport s s.cur with
    | some (g, u) => { takeFault u s.cur g with did := .trapped g }
    | none => { takeFault t s.cur f with did := .trapped f }

/-- What waits to be reported is reported. -/
def reportEarlier (s : State) : State :=
  match earlierReport s s.cur with
  | some (f, t) => trapOn s f t
  | none => s

/-- R150: the miss joins the walk of its page where one is queued, or the queue where its context has room. -/
def joinWalk (s : State) (vpn : Nat) : State :=
  let tile := tileOf s.cur
  let ctx := ctxOf s tile
  let d := s.die (dieOf tile)
  let here (w : Walk) : Bool := w.ctx == ctx && w.vpn == vpn
  if d.walks.any here then
    (s.setDie (dieOf tile)
      { d with walks := lupd here (fun w => { w with waiters := w.waiters ++ [s.cur] }) d.walks }).updMe
      fun t => { t with missPage := some vpn }
  else if (d.walks.filter fun w => w.ctx == ctx).length < 32 then
    { (s.setDie (dieOf tile)
        { d with walks := d.walks ++ [⟨s.nextId, ctx, vpn, [s.cur], [], false, false⟩] }).updMe
        (fun t => { t with missPage := some vpn }) with nextId := s.nextId + 1 }
  else s.updMe fun t => { t with missPage := none }

/-- DBGCTL.HALT of a core (R222). -/
def Core.halt (c : Core) : Bool := c.dbgctl.getLsbD 16

/-- R222: the core halts. -/
def haltCore (s : State) (tile : Nat) : State :=
  let s := s.updCore tile fun c => { c with dbgctl := c.dbgctl ||| (1 <<< 16) }
  (List.range 16).foldl (fun s i => drainAll (keyOf tile i) s) s

/-- An access put in flight. -/
def issue (s : State) (r : Req) : State :=
  { s.updMe (fun t => { t with seq := t.seq + 1 }) with reqs := s.reqs ++ [r], nextId := s.nextId + 1 }

/-- The core that a queued call came from, by the launch it names (R206). -/
def callTile (s : State) (c : Call) : Nat :=
  let l := s.launch c.lid
  (l.tiles[c.index]?).getD (l.old.getD c.index 0)

/-- A call posted in its mailbox (Table 16-8): REQ, FROM, and PEND in STATE; ANSWER and DONE stand as they were. -/
def postedBox (s : State) (c : Call) (box : List Byte) : List Byte :=
  (c.req.map fun w => leBytes 8 w.toNat).flatten ++ leBytes 8 (coreId s (callTile s c) % 2 ^ 20 + c.slot * 2 ^ 20) ++
    leBytes 8 1 ++ box.drop 80

/-- R356: the Brim posts the oldest queued call where none is posted, and raises interrupt vector 2. -/
def postCall (s : State) (ctx : Nat) : State :=
  match (s.ctx ctx).posted, (s.ctx ctx).calls with
  | none, c :: r =>
    (s.updCtx ctx fun x => { x with posted := some c, calls := r, irqs := x.irqs ++ [2] }).putBox ctx callAt
      (postedBox s c (s.callBox ctx))
  | _, _ => s

/-- A call answered in its mailbox: the driver has written ANSWER and DONE, and the Brim clears PEND (Table 16-8). -/
def answeredBox (answer : Word) (box : List Byte) : List Byte :=
  box.take 72 ++ leBytes 8 0 ++ leBytes 8 answer.toNat ++ leBytes 8 1

/-- What an instruction leaves: its state where it ran to its end; otherwise nothing of it, but what its stop brings. -/
def settle (s : State) (r : M State) : State :=
  match r with
  | .ok t => { settleChans t t.cur with did := .ran }
  | .error (.fault f) => trapOn s f s
  | .error (.wait w) => stay s w
  | .error .drain => stay (drainAll s.cur s) .accessSlot
  | .error .failure | .error .report => reportEarlier s
  | .error (.miss vpn) => stay (joinWalk s vpn) .translation
  | .error .stopCore => { haltCore s (tileOf s.cur) with did := .nothing }
  | .error (.stash r) => stay ((issue s r).updMe fun t => { t with asked := s.ptb }) (.load r.id)
  | .error (.ask k) =>
    stay { (s.updDie (dieOf (tileOf s.cur)) fun d => { d with keeper := d.keeper ++ [k] }).updMe
        (fun t => { t with got := none }) with nextId := s.nextId + 1 } (.keeper k.id)
  | .error (.offer op) => stay (s.updMe fun t => { t with cmp := some (op, .waiting) }) .pair
  | .error (.judge op v) =>
    stay ((s.updThr (partnerOf s.cur) fun t =>
      { t with cmp := t.cmp.map fun p => (p.1, v) }).updMe fun t =>
      { t with cmp := if v = .agreed then some (op, .agreed) else none }) .pair
  | .error (.finish x) => stay (s.updMyCore fun c => { c with doneOp := some x }) .completion
  | .error (.call c) =>
    let ctx := ctxOf s (tileOf s.cur)
    stay (postCall ((s.updCtx ctx fun x => { x with calls := x.calls ++ [c] }).updMe fun t => { t with got := none }) ctx)
      .call

/-- The next state of an instruction of the running thread. -/
def run (s : State) (r : M State) : Host.Outcome State Fault Refusal := .next (settle s r)

/-- R236: a scalar-class or solo word whose guard is false does nothing. -/
def guarded (s : State) (g : KReg) (r : M State) : M State := if s.rk g then r else .ok s

/-- A step of the machine where its condition holds; refused by name where the machine makes no such step. -/
def event (name : String) (s : State) (r : Option State) : Host.Outcome State Fault Refusal :=
  match s.fatal with
  | some c => .fault (.packageStopped c)
  | none =>
    match r with
    | some t => .next { t with did := .nothing }
    | none => .refused (.notEnabled name)

/-- Writes a scalar result under a guard. -/
def scalarOp (d : SReg) (g : KReg) (s : State) (x : Word) : Host.Outcome State Fault Refusal :=
  run s (guarded s g (.ok (s.ws d x)))

/-- Writes a predicate result under a guard. -/
def predOp (d : KReg) (g : KReg) (s : State) (x : Bool) : Host.Outcome State Fault Refusal :=
  run s (guarded s g (.ok (s.wk d x)))

end Sys2Proof.Machine
end

