-- ==== Sys2Proof/Machine/Operands.lean ====
section
/-! DEFINITION. Operand forms: vector elements and masks (R16), channel operands (R17), and the shapes in which the
vector families read their sources and write their destinations. -/

namespace Sys2Proof.Machine

/-! ## Elements (R16) -/

/-- Element `i` of width `w` of a vector. -/
def elem (x : Vec) (w i : Nat) : Nat := x.toNat / 2 ^ (w * i) % 2 ^ w

/-- The first `n` elements of `f`, packed at width `w` from bit 0 up. -/
def packN (w : Nat) (f : Nat → Nat) : Nat → Nat
  | 0 => 0
  | n + 1 => packN w f n + f n % 2 ^ w * 2 ^ (w * n)

/-- The vector whose element `i` of width `w` is `f i`. -/
def mkVec (w : Nat) (f : Nat → Nat) : Vec := BitVec.ofNat 512 (packN w f (512 / w))

/-- The mask bit that governs element `e` of width `w`. -/
def maskBit (w e : Nat) : Nat := if w = 64 then e else e * w / 32

/-- Whether element `e` of width `w` is active under a mask. -/
def active (w : Nat) (m : Mask) (e : Nat) : Bool := m.getLsbD (maskBit w e)

/-- A vector with the active elements of width `w` replaced. -/
def merge (w : Nat) (m : Mask) (old : Vec) (f : Nat → Nat) : Vec :=
  mkVec w fun i => if active w m i then f i else elem old w i

/-- A vector's bytes, byte 0 first. -/
def vecBytes (x : Vec) : List Byte := (List.range 64).map fun i => BitVec.ofNat 8 (elem x 8 i)

/-- The vector whose bytes these are. -/
def vecOf (bs : List Byte) : Vec := BitVec.ofNat 512 (leNat bs)

/-- A vector's eight 64-bit words. -/
def vecWords (x : Vec) : List Word := (List.range 8).map fun i => BitVec.ofNat 64 (elem x 64 i)

/-! ## Channels (R17, R98, R102, R129) -/

/-- The first index of a list at which `p` holds, counted from `i`. -/
def idxOf {α : Type} (p : α → Bool) : List α → Nat → Option Nat
  | [], _ => none
  | x :: r, i => if p x then some i else idxOf p r (i + 1)

/-- The number, within its launch, of the channel a thread's register is the reading end of. -/
def readEnd (s : State) (key ch : Nat) : Option Nat :=
  if slotOf key = 11 ∧ ch = 0 then some inboxChan
  else if slotOf key = 0 then
    idxOf (fun c => c.rTile == tileOf key && c.rCh == ch) (s.launch (lidOf s (tileOf key))).chans 0
  else none

/-- The number of the channel a thread's register is the writing end of. -/
def writeEnd (s : State) (key ch : Nat) : Option Nat :=
  if slotOf key = 11 ∧ ch = 0 then some inboxChan
  else if slotOf key = 0 then
    idxOf (fun c => c.wTile == tileOf key && c.wCh == ch) (s.launch (lidOf s (tileOf key))).chans 0
  else none

/-- The messages a channel holds for its reader. -/
def chanBuf (s : State) (key n : Nat) : List Vec :=
  if n = inboxChan then (s.core (tileOf key)).inbox
  else match (s.launch (lidOf s (tileOf key))).chans[n]? with | some c => c.buf | none => []

/-- Whether a push may issue: a credit, or room in the inbox (R98, R102). -/
def canPush (s : State) (key n : Nat) : Bool :=
  if n = inboxChan then (s.core (tileOf key)).inbox.length + (s.core (tileOf key)).inboxDue < 64
  else match (s.launch (lidOf s (tileOf key))).chans[n]? with | some c => 0 < c.credits | none => false

/-- The word at the thread's program counter, for TRAPVAL of ILLEGAL and PRIV; held in the fetch buffer. -/
def curWord (s : State) : Nat :=
  match s.me.ibuf with
  | [] => 0
  | (_, w) :: r => if s.me.view.isSome then (match r with | [] => w.toNat | (_, w2) :: _ => w2.toNat) else w.toNat

/-- ILLEGAL with a DETAIL, the word in TRAPVAL (Table 9-1). -/
def illegal {α : Type} (s : State) (detail : Nat) : M α := raisePrecise .illegal detail (curWord s)

/-- R17: every channel an instruction names is bound to the thread. -/
def checkBound (s : State) (srcs : List VFld) (dst : Option VFld) : M Unit :=
  let bad (e : Option Nat) : Bool := e.isNone
  if srcs.any (fun f => isChan f && bad (readEnd s s.cur (f.val - 24))) then illegal s 2
  else match dst with
    | some d => if isChan d && bad (writeEnd s s.cur (d.val - 24)) then illegal s 2 else .ok ()
    | none => .ok ()

/-- How often a source list pops channel register `ch`. -/
def popCount (srcs : List VFld) (ch : Nat) : Nat := (srcs.filter (fun f => isChan f && f.val - 24 == ch)).length

/-- R17: every message the instruction pops is present, and its push has allowance; slot 11 pushes only spilled
messages (R102). An instruction that pops an empty channel waits before its push is looked at (DEDUCED, log entry 73). -/
def checkReady (s : State) (srcs : List VFld) (dst : Option VFld) : M Unit := do
  await ((List.range 8).all fun ch =>
    match readEnd s s.cur ch with
    | some n => popCount srcs ch ≤ (chanBuf s s.cur n).length
    | none => true) .channel
  match dst with
  | some d =>
    if isChan d then
      match writeEnd s s.cur (d.val - 24) with
      | some n => do
        if n = inboxChan ∧ s.myCore.spill = 0 then illegal s 2
        await (canPush s s.cur n) .channel
      | none => illegal s 2
    else .ok ()
  | none => .ok ()

/-- One message popped from a channel, its credit withheld until the instruction settles. -/
def pop (s : State) (ch : Nat) : Vec × State :=
  match readEnd s s.cur ch with
  | none => (0, s)
  | some n =>
    match chanBuf s s.cur n with
    | [] => (0, s)
    | x :: r =>
      let s :=
        if n = inboxChan then s.updMyCore fun c => { c with inbox := r, spill := c.spill + 1, inboxDue := c.inboxDue + 1 }
        else s.updLaunch (lidOf s (tileOf s.cur)) fun l =>
          { l with chans := l.chans.mapIdx fun i c => if i = n then { c with buf := r } else c }
      (x, s.updMe fun t => { t with pops := t.pops ++ [(n, x)] })

/-- A source: a vector register as it stood before the pair, or a message popped. -/
def source (s : State) (f : VFld) : Vec × State := if isChan f then pop s (f.val - 24) else (s.rv f.val, s)

/-- A destination written: a register, or a message pushed, its credit taken now. -/
def putVec (s : State) (d : VFld) (x : Vec) : State :=
  if isChan d then
    match writeEnd s s.cur (d.val - 24) with
    | none => s
    | some n =>
      let s :=
        if n = inboxChan then s.updMyCore fun c => { c with spill := c.spill - 1, inboxDue := c.inboxDue + 1 }
        else s.updLaunch (lidOf s (tileOf s.cur)) fun l =>
          { l with chans := l.chans.mapIdx fun i c => if i = n then { c with credits := c.credits - 1 } else c }
      s.updMe fun t => { t with pushes := t.pushes ++ [(n, x)] }
  else s.wv d.val x

/-- The old value a guarded write keeps: a register's, or zero for a message. -/
def oldOf (s : State) (d : VFld) : Vec := if isChan d then 0 else s.rv d.val

/-- R17: the sources of a vector-class word, in the order a, b, popped together once everything can issue. -/
def sources1 (s : State) (a : VFld) (dst : Option VFld) : M (Vec × State) := do
  checkBound s [a] dst
  checkReady s [a] dst
  .ok (source s a)

def sources2 (s : State) (a b : VFld) (dst : Option VFld) : M (Vec × Vec × State) := do
  checkBound s [a, b] dst
  checkReady s [a, b] dst
  let (x, s) := source s a
  let (y, s) := source s b
  .ok (x, y, s)

/-! ## Shapes of the vector families -/

/-- A width as the number of its bits, and how many elements a vector holds. -/
def count (w : Nat) : Nat := 512 / w

/-- Element-wise over one source: a value and the flags it raises, for each active element (R274). -/
def vmap1 (w : Nat) (d a : VFld) (g : MReg) (s : State) (f : Nat → Nat × BitVec 8) : M State := do
  let (x, s) ← sources1 s a (some d)
  let m := s.rm g
  let r (i : Nat) := f (elem x w i)
  let s := putVec s d (merge w m (oldOf s d) fun i => (r i).1)
  .ok (s.raise (orFlags (count w) fun i => if active w m i then (r i).2 else 0))

/-- Element-wise over two sources. -/
def vmap2 (w : Nat) (d a b : VFld) (g : MReg) (s : State) (f : Nat → Nat → Nat × BitVec 8) : M State := do
  let (x, y, s) ← sources2 s a b (some d)
  let m := s.rm g
  let r (i : Nat) := f (elem x w i) (elem y w i)
  let s := putVec s d (merge w m (oldOf s d) fun i => (r i).1)
  .ok (s.raise (orFlags (count w) fun i => if active w m i then (r i).2 else 0))

/-- Element-wise over two sources and the destination's old value. -/
def vmap3 (w : Nat) (d : VReg) (a b : VFld) (g : MReg) (s : State) (f : Nat → Nat → Nat → Nat × BitVec 8) :
    M State := do
  let (x, y, s) ← sources2 s a b none
  let m := s.rm g
  let z := s.rv d.val
  let r (i : Nat) := f (elem x w i) (elem y w i) (elem z w i)
  let s := s.wv d.val (merge w m z fun i => (r i).1)
  .ok (s.raise (orFlags (count w) fun i => if active w m i then (r i).2 else 0))

/-- The mask an element-wise compare writes: active bits set by `f`, inactive bits kept, and bits 15:8 zero for
64-bit elements (R16, R279). -/
def cmpMask (w : Nat) (g old : Mask) (f : Nat → Bool) : Mask :=
  BitVec.ofNat 16 (packN 1 (fun i =>
    if w = 64 ∧ 8 ≤ i then 0
    else if (if g.getLsbD i then f i else old.getLsbD i) then 1 else 0) 16)

/-- An element-wise compare over two sources. -/
def vcmp2 (w : Nat) (d : MReg) (a b : VFld) (g : MReg) (s : State) (f : Nat → Nat → Bool × BitVec 8) : M State := do
  let (x, y, s) ← sources2 s a b none
  let m := s.rm g
  let r (i : Nat) := f (elem x w i) (elem y w i)
  let s := s.wm d (cmpMask w m (s.rm d) fun i => (r i).1)
  .ok (s.raise (orFlags (count w) fun i => if active w m i then (r i).2 else 0))

/-- The set of mask bits of the elements in a list (R280). -/
def bitSet (w : Nat) (es : List Nat) : Nat :=
  packN 1 (fun i => if es.any (fun e => maskBit w e == i) then 1 else 0) 16

/-- R280: the inactive elements an instruction would read; LANE unless `.z` is given. -/
def laneCheck (w : Nat) (z : Bool) (m : Mask) (reads : List Nat) : M Unit :=
  let bad := reads.filter (fun e => !active w m e)
  if z || bad.isEmpty then .ok () else raisePrecise .lane 0 (bitSet w bad)

end Sys2Proof.Machine
end

