-- ==== Sys2Proof/Machine/Scalar.lean ====
section
/-! DEFINITION. Majors 0x01 to 0x09 and 0x0E: the scalar work of a thread (spec/12_isa_scalar.md R255 to R267). -/

namespace Sys2Proof.Machine

/-! ## Values (Tables 12-2, 12-5, 12-6) -/

/-- A truth value as 1 or 0. -/
def boolWord (b : Bool) : Word := if b then 1 else 0

/-- A shift amount: bits 5:0 (R256). -/
def shamt (y : Word) : Nat := y.toNat % 64

def minS (x y : Word) : Word := if y.slt x then y else x
def maxS (x y : Word) : Word := if x.slt y then y else x
def minU (x y : Word) : Word := if y.ult x then y else x
def maxU (x y : Word) : Word := if x.ult y then y else x

/-- R258: high products, signed, unsigned, and mixed. -/
def mulHigh (x y : Word) : Word := BitVec.ofInt 64 (x.toInt * y.toInt / (2 ^ 64 : Nat))
def mulHighU (x y : Word) : Word := BitVec.ofNat 64 (x.toNat * y.toNat / 2 ^ 64)
def mulHighM (x y : Word) : Word := BitVec.ofInt 64 (x.toInt * (y.toNat : Int) / (2 ^ 64 : Nat))

/-- R258: quotients toward zero, and their corners: a zero divisor gives all ones, and −2^63 by −1 gives itself (the
quotient 2^63 cut to 64 bits). -/
def divS (x y : Word) : Word := if y = 0 then BitVec.allOnes 64 else BitVec.ofInt 64 (Int.tdiv x.toInt y.toInt)
def divU (x y : Word) : Word := if y = 0 then BitVec.allOnes 64 else BitVec.ofNat 64 (x.toNat / y.toNat)
def remS (x y : Word) : Word := if y = 0 then x else BitVec.ofInt 64 (Int.tmod x.toInt y.toInt)
def remU (x y : Word) : Word := if y = 0 then x else BitVec.ofNat 64 (x.toNat % y.toNat)

/-- Zero bits above the highest 1 (R259). -/
def clz64 (x : Word) : Nat := if x = 0 then 64 else 63 - x.toNat.log2

/-- Zero bits below the lowest 1, looking at most `n` bits on. -/
def ctzFrom (x : Nat) : Nat → Nat
  | 0 => 0
  | n + 1 => if x % 2 = 1 then 0 else 1 + ctzFrom (x / 2) n

/-- 1 bits among the low `n`. -/
def popcFrom (x : Nat) : Nat → Nat
  | 0 => 0
  | n + 1 => x % 2 + popcFrom (x / 2) n

/-- Bit i placed at bit 63 − i (R259). -/
def brev64 (x : Word) : Word := BitVec.ofNat 64 (packN 1 (fun i => x.toNat / 2 ^ (63 - i) % 2) 64)

/-- `Sext` and `Zext` of the low `w` bits to 64 (Table 11-1). -/
def sext64 (w x : Nat) : Word := BitVec.ofInt 64 (sgnN w x)
def zext64 (w x : Nat) : Word := BitVec.ofNat 64 (x % 2 ^ w)

/-- Position and length of a field control word (R260). -/
def fieldPos (c : Word) : Nat := c.toNat % 64
def fieldLen (c : Word) : Nat := let l := c.toNat / 2 ^ 8 % 64; if l = 0 then 64 else l

def fieldOf (x c : Word) : Nat := x.toNat / 2 ^ fieldPos c % 2 ^ fieldLen c

/-- R260: `x`'s low bits inserted into `d` under the field's mask. -/
def fieldInsert (d x c : Word) : Word :=
  let mask : Word := BitVec.ofNat 64 ((2 ^ fieldLen c - 1) * 2 ^ fieldPos c)
  let y : Word := BitVec.ofNat 64 (x.toNat * 2 ^ fieldPos c)
  (d &&& ~~~mask) ||| (y &&& mask)

/-- The conditions of Table 12-11 on 64-bit words. -/
def condHolds (c : Cond) (x y : Word) : Bool :=
  match c with
  | .eq => x == y | .ne => x != y | .lt => x.slt y | .ge => !x.slt y | .ltu => x.ult y | .geu => !x.ult y

/-! ## Major 0x01 (R256) -/

def execAdd (d a b : SReg) (g : KReg) (s : State) : Host.Outcome State Fault Refusal :=
  scalarOp d g s (s.rs a + s.rs b)

def execSub (d a b : SReg) (g : KReg) (s : State) : Host.Outcome State Fault Refusal :=
  scalarOp d g s (s.rs a - s.rs b)

def execAnd (d a b : SReg) (g : KReg) (s : State) : Host.Outcome State Fault Refusal :=
  scalarOp d g s (s.rs a &&& s.rs b)

def execOr (d a b : SReg) (g : KReg) (s : State) : Host.Outcome State Fault Refusal :=
  scalarOp d g s (s.rs a ||| s.rs b)

def execXor (d a b : SReg) (g : KReg) (s : State) : Host.Outcome State Fault Refusal :=
  scalarOp d g s (s.rs a ^^^ s.rs b)

def execAndn (d a b : SReg) (g : KReg) (s : State) : Host.Outcome State Fault Refusal :=
  scalarOp d g s (s.rs a &&& ~~~(s.rs b))

def execSll (d a b : SReg) (g : KReg) (s : State) : Host.Outcome State Fault Refusal :=
  scalarOp d g s (s.rs a <<< shamt (s.rs b))

def execSrl (d a b : SReg) (g : KReg) (s : State) : Host.Outcome State Fault Refusal :=
  scalarOp d g s (s.rs a >>> shamt (s.rs b))

def execSra (d a b : SReg) (g : KReg) (s : State) : Host.Outcome State Fault Refusal :=
  scalarOp d g s ((s.rs a).sshiftRight (shamt (s.rs b)))

def execMin (d a b : SReg) (g : KReg) (s : State) : Host.Outcome State Fault Refusal :=
  scalarOp d g s (minS (s.rs a) (s.rs b))

def execMax (d a b : SReg) (g : KReg) (s : State) : Host.Outcome State Fault Refusal :=
  scalarOp d g s (maxS (s.rs a) (s.rs b))

def execMinu (d a b : SReg) (g : KReg) (s : State) : Host.Outcome State Fault Refusal :=
  scalarOp d g s (minU (s.rs a) (s.rs b))

def execMaxu (d a b : SReg) (g : KReg) (s : State) : Host.Outcome State Fault Refusal :=
  scalarOp d g s (maxU (s.rs a) (s.rs b))

def execSlt (d a b : SReg) (g : KReg) (s : State) : Host.Outcome State Fault Refusal :=
  scalarOp d g s (boolWord ((s.rs a).slt (s.rs b)))

def execSltu (d a b : SReg) (g : KReg) (s : State) : Host.Outcome State Fault Refusal :=
  scalarOp d g s (boolWord ((s.rs a).ult (s.rs b)))

/-! ## Major 0x02 (R257): no guard, so the guard is `k0` -/

def execAddi (d a : SReg) (imm : BitVec 12) (s : State) : Host.Outcome State Fault Refusal :=
  scalarOp d 0 s (s.rs a + imm.signExtend 64)

def execAndi (d a : SReg) (imm : BitVec 12) (s : State) : Host.Outcome State Fault Refusal :=
  scalarOp d 0 s (s.rs a &&& imm.signExtend 64)

def execOri (d a : SReg) (imm : BitVec 12) (s : State) : Host.Outcome State Fault Refusal :=
  scalarOp d 0 s (s.rs a ||| imm.signExtend 64)

def execXori (d a : SReg) (imm : BitVec 12) (s : State) : Host.Outcome State Fault Refusal :=
  scalarOp d 0 s (s.rs a ^^^ imm.signExtend 64)

def execSlli (d a : SReg) (sh : Fin 64) (s : State) : Host.Outcome State Fault Refusal :=
  scalarOp d 0 s (s.rs a <<< sh.val)

def execSrli (d a : SReg) (sh : Fin 64) (s : State) : Host.Outcome State Fault Refusal :=
  scalarOp d 0 s (s.rs a >>> sh.val)

def execSrai (d a : SReg) (sh : Fin 64) (s : State) : Host.Outcome State Fault Refusal :=
  scalarOp d 0 s ((s.rs a).sshiftRight sh.val)

def execSlti (d a : SReg) (imm : BitVec 12) (s : State) : Host.Outcome State Fault Refusal :=
  scalarOp d 0 s (boolWord ((s.rs a).slt (imm.signExtend 64)))

/-! ## Major 0x03 (R258) -/

def execMul (d a b : SReg) (g : KReg) (s : State) : Host.Outcome State Fault Refusal :=
  scalarOp d g s (s.rs a * s.rs b)

def execMulh (d a b : SReg) (g : KReg) (s : State) : Host.Outcome State Fault Refusal :=
  scalarOp d g s (mulHigh (s.rs a) (s.rs b))

def execMulhu (d a b : SReg) (g : KReg) (s : State) : Host.Outcome State Fault Refusal :=
  scalarOp d g s (mulHighU (s.rs a) (s.rs b))

def execMulhm (d a b : SReg) (g : KReg) (s : State) : Host.Outcome State Fault Refusal :=
  scalarOp d g s (mulHighM (s.rs a) (s.rs b))

def execDiv (d a b : SReg) (g : KReg) (s : State) : Host.Outcome State Fault Refusal :=
  scalarOp d g s (divS (s.rs a) (s.rs b))

def execDivu (d a b : SReg) (g : KReg) (s : State) : Host.Outcome State Fault Refusal :=
  scalarOp d g s (divU (s.rs a) (s.rs b))

def execRem (d a b : SReg) (g : KReg) (s : State) : Host.Outcome State Fault Refusal :=
  scalarOp d g s (remS (s.rs a) (s.rs b))

def execRemu (d a b : SReg) (g : KReg) (s : State) : Host.Outcome State Fault Refusal :=
  scalarOp d g s (remU (s.rs a) (s.rs b))

/-! ## Major 0x04 (R259, R260) -/

def execClz (d a : SReg) (g : KReg) (s : State) : Host.Outcome State Fault Refusal :=
  scalarOp d g s (BitVec.ofNat 64 (clz64 (s.rs a)))

def execCtz (d a : SReg) (g : KReg) (s : State) : Host.Outcome State Fault Refusal :=
  scalarOp d g s (BitVec.ofNat 64 (ctzFrom (s.rs a).toNat 64))

def execPopc (d a : SReg) (g : KReg) (s : State) : Host.Outcome State Fault Refusal :=
  scalarOp d g s (BitVec.ofNat 64 (popcFrom (s.rs a).toNat 64))

def execBrev (d a : SReg) (g : KReg) (s : State) : Host.Outcome State Fault Refusal :=
  scalarOp d g s (brev64 (s.rs a))

def execSextB (d a : SReg) (g : KReg) (s : State) : Host.Outcome State Fault Refusal :=
  scalarOp d g s (sext64 8 (s.rs a).toNat)

def execSextH (d a : SReg) (g : KReg) (s : State) : Host.Outcome State Fault Refusal :=
  scalarOp d g s (sext64 16 (s.rs a).toNat)

def execSextW (d a : SReg) (g : KReg) (s : State) : Host.Outcome State Fault Refusal :=
  scalarOp d g s (sext64 32 (s.rs a).toNat)

def execZextB (d a : SReg) (g : KReg) (s : State) : Host.Outcome State Fault Refusal :=
  scalarOp d g s (zext64 8 (s.rs a).toNat)

def execZextH (d a : SReg) (g : KReg) (s : State) : Host.Outcome State Fault Refusal :=
  scalarOp d g s (zext64 16 (s.rs a).toNat)

def execZextW (d a : SReg) (g : KReg) (s : State) : Host.Outcome State Fault Refusal :=
  scalarOp d g s (zext64 32 (s.rs a).toNat)

def execBfx (d a b : SReg) (g : KReg) (s : State) : Host.Outcome State Fault Refusal :=
  scalarOp d g s (sext64 (fieldLen (s.rs b)) (fieldOf (s.rs a) (s.rs b)))

def execBfxu (d a b : SReg) (g : KReg) (s : State) : Host.Outcome State Fault Refusal :=
  scalarOp d g s (BitVec.ofNat 64 (fieldOf (s.rs a) (s.rs b)))

/-- `bfi` reads its destination as a third source (R260). -/
def execBfi (d a b : SReg) (g : KReg) (s : State) : Host.Outcome State Fault Refusal :=
  scalarOp d g s (fieldInsert (s.rs d) (s.rs a) (s.rs b))

/-! ## Majors 0x05 and 0x06 (R261) -/

def execLi (d : SReg) (imm : BitVec 20) (s : State) : Host.Outcome State Fault Refusal :=
  scalarOp d 0 s (imm.signExtend 64)

/-- `lio` reads its own destination (R261). -/
def execLio (d : SReg) (imm : BitVec 20) (s : State) : Host.Outcome State Fault Refusal :=
  scalarOp d 0 s (s.rs d <<< 20 ||| imm.zeroExtend 64)

/-! ## Major 0x07, pointers (R262 to R264) -/

/-- The VA of a pointer (Table 1-9). -/
def ptrVa (p : Word) : Nat := p.toNat % 2 ^ 48
def ptrGen (p : Word) : Nat := p.toNat / 2 ^ 48 % 2 ^ 8
def ptrBlen (p : Word) : Nat := p.toNat / 2 ^ 56 % 2 ^ 3
def ptrFmt (p : Word) : Nat := p.toNat / 2 ^ 59

/-- R262: a pointer moved by a signed offset, its bits 63:48 kept; none where the VA would leave 48 bits. -/
def ptrMove (p : Word) (off : Int) : Option Word :=
  let n : Int := ptrVa p + off
  if n < 0 ∨ (2 ^ 48 : Nat) ≤ n then none else some (BitVec.ofNat 64 (p.toNat / 2 ^ 48 * 2 ^ 48 + n.toNat))

/-- The pointer moved, or TAG with the source pointer in TRAPVAL and no result (R27). -/
def ptrMoveOp (d : SReg) (g : KReg) (s : State) (p : Word) (off : Int) : Host.Outcome State Fault Refusal :=
  run s (guarded s g (match ptrMove p off with
    | some q => .ok (s.ws d q)
    | none => raisePrecise .tag 0 p.toNat))

/-- R263: a field of `p`, `w` bits from `lo`, replaced by `x`; none where `x` does not fit. -/
def ptrPut (p : Word) (lo w : Nat) (x : Word) : Option Word :=
  if x.toNat < 2 ^ w then
    some (BitVec.ofNat 64 (p.toNat - p.toNat / 2 ^ lo % 2 ^ w * 2 ^ lo + x.toNat * 2 ^ lo))
  else none

def ptrSetOp (d : SReg) (g : KReg) (s : State) (p : Word) (lo w : Nat) (x : Word) :
    Host.Outcome State Fault Refusal :=
  run s (guarded s g (match ptrPut p lo w x with
    | some q => .ok (s.ws d q)
    | none => raisePrecise .tag 0 p.toNat))

/-- R264: the form of a pointer against a length. -/
def ptrFormOk (p len : Word) : Bool :=
  ptrGen p != 0 && codeAssigned (ptrFmt p) && len.toNat ≤ 2 ^ 48 - ptrVa p &&
    (!(16 ≤ ptrFmt p && ptrFmt p ≤ 20) || ptrVa p % 32 == 0)

def execPtrAdd (d a b : SReg) (g : KReg) (s : State) : Host.Outcome State Fault Refusal :=
  ptrMoveOp d g s (s.rs a) (s.rs b).toInt

def execPtrSub (d a b : SReg) (g : KReg) (s : State) : Host.Outcome State Fault Refusal :=
  ptrMoveOp d g s (s.rs a) (-(s.rs b).toInt)

def execPtrSetFmt (d a b : SReg) (g : KReg) (s : State) : Host.Outcome State Fault Refusal :=
  ptrSetOp d g s (s.rs a) 59 5 (s.rs b)

def execPtrSetBlen (d a b : SReg) (g : KReg) (s : State) : Host.Outcome State Fault Refusal :=
  ptrSetOp d g s (s.rs a) 56 3 (s.rs b)

def execPtrSetGen (d a b : SReg) (g : KReg) (s : State) : Host.Outcome State Fault Refusal :=
  ptrSetOp d g s (s.rs a) 48 8 (s.rs b)

def execPtrSetVa (d a b : SReg) (g : KReg) (s : State) : Host.Outcome State Fault Refusal :=
  ptrSetOp d g s (s.rs a) 0 48 (s.rs b)

def execPtrGetFmt (d a : SReg) (g : KReg) (s : State) : Host.Outcome State Fault Refusal :=
  scalarOp d g s (BitVec.ofNat 64 (ptrFmt (s.rs a)))

def execPtrGetBlen (d a : SReg) (g : KReg) (s : State) : Host.Outcome State Fault Refusal :=
  scalarOp d g s (BitVec.ofNat 64 (ptrBlen (s.rs a)))

def execPtrGetGen (d a : SReg) (g : KReg) (s : State) : Host.Outcome State Fault Refusal :=
  scalarOp d g s (BitVec.ofNat 64 (ptrGen (s.rs a)))

def execPtrGetVa (d a : SReg) (g : KReg) (s : State) : Host.Outcome State Fault Refusal :=
  scalarOp d g s (BitVec.ofNat 64 (ptrVa (s.rs a)))

def execPtrChk (d : KReg) (a b : SReg) (g : KReg) (s : State) : Host.Outcome State Fault Refusal :=
  predOp d g s (ptrFormOk (s.rs a) (s.rs b))

/-! ## Majors 0x08 and 0x0E (R265) -/

def execCmp (c : Cond) (d : KReg) (a b : SReg) (g : KReg) (s : State) : Host.Outcome State Fault Refusal :=
  predOp d g s (condHolds c (s.rs a) (s.rs b))

def execKand (d a b : KReg) (g : KReg) (s : State) : Host.Outcome State Fault Refusal :=
  predOp d g s (s.rk a && s.rk b)

def execKor (d a b : KReg) (g : KReg) (s : State) : Host.Outcome State Fault Refusal :=
  predOp d g s (s.rk a || s.rk b)

def execKxor (d a b : KReg) (g : KReg) (s : State) : Host.Outcome State Fault Refusal :=
  predOp d g s (s.rk a != s.rk b)

def execKnot (d a : KReg) (g : KReg) (s : State) : Host.Outcome State Fault Refusal :=
  predOp d g s (!s.rk a)

def execKset (d : KReg) (v : Bool) (g : KReg) (s : State) : Host.Outcome State Fault Refusal :=
  predOp d g s v

def execCmpi (c : Cond) (d : KReg) (a : SReg) (imm : BitVec 12) (s : State) : Host.Outcome State Fault Refusal :=
  predOp d 0 s (condHolds c (s.rs a) (imm.signExtend 64))

/-! ## Major 0x09, transfers (R266, R267) -/

/-- Writes a vector register whole under a `k` guard: transfers name `v0` to `v23` only. -/
def vectorOp (d : VReg) (g : KReg) (s : State) (x : Vec) : Host.Outcome State Fault Refusal :=
  run s (guarded s g (.ok (s.wv d.val x)))

/-- Writes a mask register under a `k` guard. -/
def maskOp (d : MReg) (g : KReg) (s : State) (x : Mask) : Host.Outcome State Fault Refusal :=
  run s (guarded s g (.ok (s.wm d x)))

/-- The element a transfer's index register names (R266). -/
def pick (w : Nat) (x : Vec) (i : Word) : Nat := elem x w (i.toNat % (512 / w))

def execVbcast (w : Width) (d : VReg) (a : SReg) (g : KReg) (s : State) : Host.Outcome State Fault Refusal :=
  vectorOp d g s (mkVec w.bits fun _ => (s.rs a).toNat)

def execVins (w : Width) (d : VReg) (a b : SReg) (g : KReg) (s : State) : Host.Outcome State Fault Refusal :=
  vectorOp d g s (mkVec w.bits fun i =>
    if i = (s.rs b).toNat % (512 / w.bits) then (s.rs a).toNat else elem (s.rv d.val) w.bits i)

def execSel (d : SReg) (k : KReg) (a b : SReg) (g : KReg) (s : State) : Host.Outcome State Fault Refusal :=
  scalarOp d g s (if s.rk k then s.rs a else s.rs b)

def execVext (w : Width) (d : SReg) (a : VReg) (b : SReg) (g : KReg) (s : State) : Host.Outcome State Fault Refusal :=
  scalarOp d g s (sext64 w.bits (pick w.bits (s.rv a.val) (s.rs b)))

def execVextU (w : NW) (d : SReg) (a : VReg) (b : SReg) (g : KReg) (s : State) : Host.Outcome State Fault Refusal :=
  scalarOp d g s (zext64 w.bits (pick w.bits (s.rv a.val) (s.rs b)))

def execMtokAny (d : KReg) (a : MReg) (g : KReg) (s : State) : Host.Outcome State Fault Refusal :=
  predOp d g s (s.rm a != 0)

def execMtokAll (d : KReg) (a : MReg) (g : KReg) (s : State) : Host.Outcome State Fault Refusal :=
  predOp d g s (s.rm a == 0xFFFF)

def execMtokAllD (d : KReg) (a : MReg) (g : KReg) (s : State) : Host.Outcome State Fault Refusal :=
  predOp d g s ((s.rm a).toNat % 256 == 255)

def execKtom (d : MReg) (a : KReg) (g : KReg) (s : State) : Host.Outcome State Fault Refusal :=
  maskOp d g s (if s.rk a then 0xFFFF else 0)

def execMtos (d : SReg) (a : MReg) (g : KReg) (s : State) : Host.Outcome State Fault Refusal :=
  scalarOp d g s ((s.rm a).zeroExtend 64)

def execStom (d : MReg) (a : SReg) (g : KReg) (s : State) : Host.Outcome State Fault Refusal :=
  maskOp d g s ((s.rs a).truncate 16)

end Sys2Proof.Machine
end

