-- ==== Sys2Proof/Machine/Control.lean ====
section
/-! DEFINITION. Majors 0x0A to 0x0D: control flow (spec/12_isa_scalar.md R268 to R272). The step sets `npc` to the
address after the word or pair before it runs it; a taken transfer replaces it. -/

namespace Sys2Proof.Machine

/-- A taken transfer: the thread goes on at `target`, words fetched ahead are dropped (R245), and the trace records
KIND 1 (R268). -/
def jumpTo (s : State) (target : VAddr) : State :=
  let s := s.updMe fun t => { t with npc := target, ibuf := t.ibuf.take ((t.npc - t.pc).toNat / 4) }
  traceRecord s s.cur 1 target.toNat (BitVec.ofNat 64 s.ptb)

/-- `PC` + 4 × a signed word offset, wrapping in bits 47:0 (R238). -/
def relTarget (s : State) (off : Int) : VAddr := BitVec.ofInt 48 ((s.me.pc.toNat : Int) + 4 * off)

/-- `s31` written with `NextPC` (R15, R235). -/
def link (s : State) : State := s.ws 31 (s.me.npc.zeroExtend 64)

/-- R271: a register jump, ALIGN where bits 1:0 are not zero. -/
def regJump (s : State) (linked : Bool) (x : Word) : M State :=
  if x.toNat % 4 ≠ 0 then raisePrecise .align 0 (x.toNat % 2 ^ 48)
  else .ok (jumpTo (if linked then link s else s) (x.truncate 48))

/-- R269: the conditional branch. -/
def branchIf (c : Bool) (s : State) (off : BitVec 21) : Host.Outcome State Fault Refusal :=
  run s (.ok (if c then jumpTo s (relTarget s off.toInt) else s))

def execBr (k : KReg) (off : BitVec 21) (s : State) : Host.Outcome State Fault Refusal :=
  branchIf (s.rk k) s off

/-- `br.n k0` is never taken (R269). -/
def execBrN (k : KReg) (off : BitVec 21) (s : State) : Host.Outcome State Fault Refusal :=
  branchIf (!s.rk k) s off

def execJmp (off : BitVec 24) (s : State) : Host.Outcome State Fault Refusal :=
  run s (.ok (jumpTo s (relTarget s off.toInt)))

def execCall (off : BitVec 24) (s : State) : Host.Outcome State Fault Refusal :=
  run s (.ok (jumpTo (link s) (relTarget s off.toInt)))

def execJr (a : SReg) (g : KReg) (s : State) : Host.Outcome State Fault Refusal :=
  run s (guarded s g (regJump s false (s.rs a)))

def execCallr (a : SReg) (g : KReg) (s : State) : Host.Outcome State Fault Refusal :=
  run s (guarded s g (regJump s true (s.rs a)))

def execRet (g : KReg) (s : State) : Host.Outcome State Fault Refusal :=
  run s (guarded s g (regJump s false (s.rs 31)))

/-- R272: a counter of 0 wraps to all ones and branches. -/
def execLoop (d : SReg) (off : BitVec 12) (s : State) : Host.Outcome State Fault Refusal :=
  let c := s.rs d - 1
  run s (.ok (if c != 0 then jumpTo (s.ws d c) (relTarget s off.toInt) else s.ws d c))

/-- R272: branches while the counter stays above zero. -/
def execLoopP (d : SReg) (off : BitVec 12) (s : State) : Host.Outcome State Fault Refusal :=
  let c := s.rs d - 1
  run s (.ok (if decide (0 < c.toInt) then jumpTo (s.ws d c) (relTarget s off.toInt) else s.ws d c))

end Sys2Proof.Machine
end

