-- ==== Sys2Proof/Decode.lean ====
section
/-! DEFINITION. The decoder: any 32-bit word to an instruction, or to the reason it raises ILLEGAL, by the formats of
spec/11_isa_encoding.md (R232, R237, R239 to R244) and the encoding tables of the entries; and, after it, the encoder
written from the same tables. Bit 31, the pair bit P, is no part of an instruction and is read beside it.
The functions that can answer any instruction are marked noncomputable: Lean's runtime holds no more than 245
constructors with fields in one type. The kernel evaluates them as any other definition. -/

namespace Sys2Proof

/-- Why a word raises ILLEGAL at decode: DETAIL 1, an encoding without a meaning or a reserved field that is not zero
(R242); DETAIL 2, a channel in a vector field that may not name one (R273, R296, R301). -/
inductive DecErr where
  | encoding
  | channel
  deriving DecidableEq, Repr

/-- Bits `lo` to `lo + n - 1` of a word. -/
def fld (w lo n : Nat) : Nat := w / 2 ^ lo % 2 ^ n

/-! ## Fields by format (Table 11-2) -/

def fMajor (w : Nat) : Nat := fld w 25 6
def fD (w : Nat) : Nat := fld w 20 5
def fA (w : Nat) : Nat := fld w 15 5
def fB (w : Nat) : Nat := fld w 10 5
def fFn (w : Nat) : Nat := fld w 3 7
def fG (w : Nat) : Nat := fld w 0 3
def fFnB (w : Nat) : Nat := fld w 12 3
def fImm12 (w : Nat) : Nat := fld w 0 12

/-- The pair bit (R232). -/
def pairBit (w : IWord) : Bool := w.toNat / 2 ^ 31 % 2 == 1

/-! ## Fields as operands -/

def sreg (n : Nat) : SReg := Fin.ofNat 32 n
def kreg (n : Nat) : KReg := Fin.ofNat 8 n
def mreg (n : Nat) : MReg := Fin.ofNat 8 n
def vfld (n : Nat) : VFld := Fin.ofNat 32 n
def vreg (n : Nat) : VReg := Fin.ofNat 24 n

def width (n : Nat) : Width := match n with | 0 => .w8 | 1 => .w16 | 2 => .w32 | _ => .w64
def ww (n : Nat) : WW := match n with | 0 => .w32 | _ => .w64
def nw (n : Nat) : NW := match n with | 0 => .w8 | 1 => .w16 | _ => .w32
def pw (n : Nat) : PW := match n with | 0 => .w16 | 1 => .w32 | _ => .w64
def fty (n : Nat) : FTy := match n with | 0 => .f32 | _ => .f64
def redTy (n : Nat) : RedTy := match n with | 0 => .i32 | 1 => .i64 | 2 => .f32 | _ => .f64
def satSel (n : Nat) : SatSel := match n with | 0 => .h8 | 1 => .w8 | 2 => .w16 | _ => .d32
def rndSel (n : Nat) : RndSel := match n with | 0 => .fpctl | 1 => .rtz | 2 => .rup | _ => .rdn
def condOf (n : Nat) : Cond := match n with | 0 => .eq | 1 => .ne | 2 => .lt | 3 => .ge | 4 => .ltu | _ => .geu
def fcondOf (n : Nat) : FCond :=
  match n with | 0 => .eq | 1 => .ne | 2 => .lt | 3 => .le | 4 => .gt | 5 => .ge | _ => .un
def cvFmt (n : Nat) : CvFmt :=
  match n with
  | 1 => .i8 | 2 => .u8 | 3 => .i16 | 4 => .i32 | 5 => .i64 | 6 => .fp8a | 7 => .fp8b | 8 => .f16 | 9 => .bf16
  | 10 => .f32 | _ => .f64
def ffmt (n : Nat) : FFmt := match n with | 8 => .f16 | 9 => .bf16 | 10 => .f32 | _ => .f64
def bfmt (n : Nat) : BFmt := match n with | 0 => .i8 | 1 => .fp8a | 2 => .fp8b | 3 => .i4 | _ => .tern
def scopeOf (n : Nat) : Scope := match n with | 0 => .core | 1 => .quad | 2 => .die | 3 => .pkg | _ => .pod
def bscopeOf (n : Nat) : BScope := match n with | 0 => .core | 1 => .quad | 2 => .die | _ => .pkg
def engOf (n : Nat) : Eng := match n with | 0 => .mx | 1 => .cp | _ => .rl
def ringWord (n : Nat) : RingWord := match n with | 0 => .w0 | 1 => .w1 | _ => .w2

/-! ## Verdicts -/

/-- What a word decodes to. -/
inductive Dec where
  | ok (i : Instr)
  | error (e : DecErr)
  deriving DecidableEq, Repr

def ill : Dec := .error .encoding

/-- The instruction where the reserved fields are zero (R240), otherwise ILLEGAL. -/
def when (c : Bool) (i : Instr) : Dec := if c then .ok i else ill

/-- The instruction where the destination field names no channel, otherwise ILLEGAL with DETAIL 2 (R273). -/
def noChan (d : Nat) (i : Instr) : Dec := if d < 24 then .ok i else .error .channel

/-! ## The majors -/

/-- Majors 0x01, 0x03, 0x04 (Tables 12-2, 12-5, 12-6). -/
def dec01 (d a b fn g : Nat) : Dec :=
  let d := sreg d; let a := sreg a; let b := sreg b; let g := kreg g
  match fn with
  | 0x00 => .ok (.add d a b g) | 0x01 => .ok (.sub d a b g) | 0x02 => .ok (.and d a b g) | 0x03 => .ok (.or d a b g)
  | 0x04 => .ok (.xor d a b g) | 0x05 => .ok (.andn d a b g) | 0x06 => .ok (.sll d a b g)
  | 0x07 => .ok (.srl d a b g) | 0x08 => .ok (.sra d a b g) | 0x09 => .ok (.min d a b g)
  | 0x0A => .ok (.max d a b g) | 0x0B => .ok (.minu d a b g) | 0x0C => .ok (.maxu d a b g)
  | 0x0D => .ok (.slt d a b g) | 0x0E => .ok (.sltu d a b g)
  | _ => ill

def dec02 (d a fn imm : Nat) : Dec :=
  let d := sreg d; let a := sreg a; let i := BitVec.ofNat 12 imm; let sh := Fin.ofNat 64 imm
  match fn with
  | 0 => .ok (.addi d a i) | 1 => .ok (.andi d a i) | 2 => .ok (.ori d a i) | 3 => .ok (.xori d a i)
  | 4 => when (imm < 64) (.slli d a sh) | 5 => when (imm < 64) (.srli d a sh) | 6 => when (imm < 64) (.srai d a sh)
  | _ => .ok (.slti d a i)

def dec03 (d a b fn g : Nat) : Dec :=
  let d := sreg d; let a := sreg a; let b := sreg b; let g := kreg g
  match fn with
  | 0x00 => .ok (.mul d a b g) | 0x01 => .ok (.mulh d a b g) | 0x02 => .ok (.mulhu d a b g)
  | 0x03 => .ok (.mulhm d a b g) | 0x04 => .ok (.div d a b g) | 0x05 => .ok (.divu d a b g)
  | 0x06 => .ok (.rem d a b g) | 0x07 => .ok (.remu d a b g)
  | _ => ill

def dec04 (d a b fn g : Nat) : Dec :=
  let z := b == 0
  let d := sreg d; let a := sreg a; let b := sreg b; let g := kreg g
  match fn with
  | 0x00 => when z (.clz d a g) | 0x01 => when z (.ctz d a g) | 0x02 => when z (.popc d a g)
  | 0x03 => when z (.brev d a g) | 0x04 => when z (.sextB d a g) | 0x05 => when z (.sextH d a g)
  | 0x06 => when z (.sextW d a g) | 0x07 => when z (.zextB d a g) | 0x08 => when z (.zextH d a g)
  | 0x09 => when z (.zextW d a g)
  | 0x0A => .ok (.bfx d a b g) | 0x0B => .ok (.bfxu d a b g) | 0x0C => .ok (.bfi d a b g)
  | _ => ill

/-- Major 0x07 (Table 12-9). -/
def dec07 (d a b fn g : Nat) : Dec :=
  let z := b == 0; let k := d < 8; let kd := kreg d
  let d := sreg d; let a := sreg a; let b := sreg b; let g := kreg g
  match fn with
  | 0x00 => .ok (.ptrAdd d a b g) | 0x01 => .ok (.ptrSub d a b g)
  | 0x02 => .ok (.ptrSetFmt d a b g) | 0x03 => .ok (.ptrSetBlen d a b g)
  | 0x04 => .ok (.ptrSetGen d a b g) | 0x05 => .ok (.ptrSetVa d a b g)
  | 0x06 => when z (.ptrGetFmt d a g) | 0x07 => when z (.ptrGetBlen d a g)
  | 0x08 => when z (.ptrGetGen d a g) | 0x09 => when z (.ptrGetVa d a g)
  | 0x0A => when k (.ptrChk kd a b g)
  | _ => ill

/-- Major 0x08 (Table 12-11). -/
def dec08 (d a b fn g : Nat) : Dec :=
  let kd := d < 8; let ka := a < 8; let kb := b < 8
  let gg := kreg g
  match fn with
  | 0x00 | 0x01 | 0x02 | 0x03 | 0x04 | 0x05 => when kd (.cmp (condOf fn) (kreg d) (sreg a) (sreg b) gg)
  | 0x10 => when (kd && ka && kb) (.kand (kreg d) (kreg a) (kreg b) gg)
  | 0x11 => when (kd && ka && kb) (.kor (kreg d) (kreg a) (kreg b) gg)
  | 0x12 => when (kd && ka && kb) (.kxor (kreg d) (kreg a) (kreg b) gg)
  | 0x13 => when (kd && ka && b == 0) (.knot (kreg d) (kreg a) gg)
  | 0x14 => when (kd && a == 0 && b < 2) (.kset (kreg d) (b == 1) gg)
  | _ => ill

/-- Major 0x09 (Table 12-13). -/
def dec09 (d a b fn g : Nat) : Dec :=
  let gg := kreg g; let w := fn % 4
  match fn / 4 with
  | 0 => when (d < 24 && b == 0) (.vbcast (width w) (vreg d) (sreg a) gg)
  | 1 => when (d < 24) (.vins (width w) (vreg d) (sreg a) (sreg b) gg)
  | 2 | 3 => .ok (.sel (sreg d) (kreg (fn - 8)) (sreg a) (sreg b) gg)
  | 4 => when (a < 24) (.vext (width w) (sreg d) (vreg a) (sreg b) gg)
  | 5 => when (a < 24 && w < 3) (.vextU (nw w) (sreg d) (vreg a) (sreg b) gg)
  | 6 =>
    match w with
    | 0 => when (d < 8 && a < 8 && b == 0) (.mtokAny (kreg d) (mreg a) gg)
    | 1 => when (d < 8 && a < 8 && b == 0) (.mtokAll (kreg d) (mreg a) gg)
    | 2 => when (d < 8 && a < 8 && b == 0) (.mtokAllD (kreg d) (mreg a) gg)
    | _ => when (d < 8 && a < 8 && b == 0) (.ktom (mreg d) (kreg a) gg)
  | 7 =>
    match w with
    | 0 => when (a < 8 && b == 0) (.mtos (sreg d) (mreg a) gg)
    | 1 => when (d < 8 && b == 0) (.stom (mreg d) (sreg a) gg)
    | _ => ill
  | _ => ill

/-- Major 0x0C (Table 12-16). -/
def dec0C (d a b fn g : Nat) : Dec :=
  match fn with
  | 0 => when (d == 0 && b == 0) (.jr (sreg a) (kreg g))
  | 1 => when (d == 0 && b == 0) (.callr (sreg a) (kreg g))
  | 2 => when (d == 0 && a == 0 && b == 0) (.ret (kreg g))
  | _ => ill

/-- Major 0x0D (Table 12-17). -/
def dec0D (d a fn imm : Nat) : Dec :=
  match fn with
  | 0 => when (a == 0) (.loop (sreg d) (BitVec.ofNat 12 imm))
  | 1 => when (a == 0) (.loopP (sreg d) (BitVec.ofNat 12 imm))
  | _ => ill

/-- Major 0x0E (Table 12-11). -/
def dec0E (d a fn imm : Nat) : Dec :=
  when (d < 8 && fn < 6) (.cmpi (condOf fn) (kreg d) (sreg a) (BitVec.ofNat 12 imm))

/-- Major 0x10 (Table 13-2): `fn = 4 × op + wc`. -/
def dec10 (d a b fn g : Nat) : Dec :=
  let w := width (fn % 4); let D := vfld d; let A := vfld a; let B := vfld b; let g := mreg g
  match fn / 4 with
  | 0 => .ok (.vadd w D A B g) | 1 => .ok (.vsub w D A B g) | 2 => .ok (.vmul w D A B g)
  | 3 => .ok (.vmulh w D A B g) | 4 => .ok (.vmulhu w D A B g)
  | 5 => noChan d (.vmad w (vreg d) A B g)
  | 6 => .ok (.vmin w D A B g) | 7 => .ok (.vmax w D A B g) | 8 => .ok (.vminu w D A B g)
  | 9 => .ok (.vmaxu w D A B g)
  | 10 => when (b == 0) (.vabs w D A g)
  | _ => ill

/-- Major 0x11 (Table 13-3). -/
def dec11 (d a b fn g : Nat) : Dec :=
  let w := width (fn % 4); let z := a == 0; let hi := fn % 4 == 3
  let d := vfld d; let a := vfld a; let B := vfld b; let sh := Fin.ofNat 32 b; let i := BitVec.ofNat 5 b
  let g := mreg g
  match fn / 4 with
  | 0 => .ok (.vshl w d a B g) | 1 => .ok (.vshr w d a B g) | 2 => .ok (.vsra w d a B g)
  | 3 => .ok (.vshlImm w d a sh g) | 4 => .ok (.vshrImm w d a sh g) | 5 => .ok (.vsraImm w d a sh g)
  | 6 => when hi (.vshlImmHi d a sh g) | 7 => when hi (.vshrImmHi d a sh g) | 8 => when hi (.vsraImmHi d a sh g)
  | 9 => .ok (.vaddi w d a i g)
  | 10 => when z (.vli w d i g)
  | _ => ill

/-- Major 0x12 (Table 13-4). -/
def dec12 (d a b fn g : Nat) : Dec :=
  let m3 := d < 8 && a < 8 && b < 8 && g == 0
  let m2 := d < 8 && a < 8 && b == 0 && g == 0
  let s2 := a < 8 && b == 0 && g == 0
  match fn with
  | 0x00 => .ok (.vand (vfld d) (vfld a) (vfld b) (mreg g)) | 0x01 => .ok (.vor (vfld d) (vfld a) (vfld b) (mreg g))
  | 0x02 => .ok (.vxor (vfld d) (vfld a) (vfld b) (mreg g)) | 0x03 => .ok (.vandn (vfld d) (vfld a) (vfld b) (mreg g))
  | 0x08 => when m3 (.mand (mreg d) (mreg a) (mreg b)) | 0x09 => when m3 (.mor (mreg d) (mreg a) (mreg b))
  | 0x0A => when m3 (.mxor (mreg d) (mreg a) (mreg b))
  | 0x0B => when m2 (.mnot (mreg d) (mreg a))
  | 0x0C => when s2 (.mpop (sreg d) (mreg a))
  | 0x0D => when s2 (.mfirst (sreg d) (mreg a))
  | _ => ill

/-- Major 0x13 (Table 13-5): `fn = 4 × c + wc`, wc 2 or 3. -/
def dec13 (d a b fn g : Nat) : Dec :=
  when (d < 8 && fn / 4 < 6 && 2 ≤ fn % 4)
    (.vcmp (condOf (fn / 4)) (ww (fn % 4 - 2)) (mreg d) (vfld a) (vfld b) (mreg g))

/-- Major 0x14 (Table 13-6): `fn = 64 × z + 4 × op + t`. -/
def dec14 (d a b fn g : Nat) : Dec :=
  let z := fn / 64 == 1; let nz := fn / 64 == 0; let t := fn % 4
  let w := width t; let bz := b == 0; let bk := b < 8; let i2 := t < 2
  let S := sreg d; let D := vfld d; let A := vfld a; let g := mreg g
  match fn / 4 % 16 with
  | 0 => .ok (.vperm w z D A (vfld b) g)
  | 1 => noChan d (.vshuf w z (vreg d) A (vfld b) g)
  | 2 => .ok (.vrot w z D A (sreg b) g)
  | 3 => when (nz && bk) (.vcompress w D A (mreg b) g)
  | 4 => when (nz && bk) (.vexpand w D A (mreg b) g)
  | 5 => when bz (.vredAdd (redTy t) z S A g)
  | 6 => when bz (.vredMin (redTy t) z S A g)
  | 7 => when bz (.vredMax (redTy t) z S A g)
  | 8 => when (bz && i2) (.vredMinu (ww t) z S A g)
  | 9 => when (bz && i2) (.vredMaxu (ww t) z S A g)
  | 10 => when (bz && i2) (.vredAnd (ww t) z S A g)
  | 11 => when (bz && i2) (.vredOr (ww t) z S A g)
  | 12 => when (bz && i2) (.vredXor (ww t) z S A g)
  | 13 => when bz (.vscanAdd (redTy t) z D A g)
  | _ => ill

/-- Major 0x15 (Tables 13-7, 13-8). -/
def dec15 (d a b fn g : Nat) : Dec :=
  let x := fn % 4; let bz := b == 0; let n3 := fn % 4 < 3
  let D := vfld d; let A := vfld a; let B := vfld b; let g := mreg g
  match fn / 4 with
  | 0 => when bz (.vsatSigned (satSel x) D A g)
  | 1 => when bz (.vsatUnsigned (satSel x) D A g)
  | 2 => when n3 (.vpackI (pw x) D A B g)
  | 3 => when n3 (.vpackU (pw x) D A B g)
  | 4 => when (n3 && bz) (.vunpackLoI (nw x) D A g)
  | 5 => when (n3 && bz) (.vunpackHiI (nw x) D A g)
  | 6 => when (n3 && bz) (.vunpackLoU (nw x) D A g)
  | 7 => when (n3 && bz) (.vunpackHiU (nw x) D A g)
  | 8 => noChan d (.vdot4 (x / 2 == 1) (x % 2 == 1) (vreg d) A B g)
  | 9 => noChan d (.vdot4Sat (x / 2 == 1) (x % 2 == 1) (vreg d) A B g)
  | _ => ill

/-- Major 0x16 (Table 13-9): `fn = 2 × op + t`. -/
def dec16 (d a b fn g : Nat) : Dec :=
  let t := fty (fn % 2); let bz := b == 0
  let D := vfld d; let A := vfld a; let B := vfld b; let G := mreg g
  match fn / 2 with
  | 0 => .ok (.vfadd t D A B G) | 1 => .ok (.vfsub t D A B G) | 2 => .ok (.vfmul t D A B G)
  | 3 => .ok (.vfdiv t D A B G)
  | 4 => when bz (.vfsqrt t D A G)
  | 5 => .ok (.vfmin t D A B G) | 6 => .ok (.vfmax t D A B G)
  | 7 => when bz (.vfabs t D A G) | 8 => when bz (.vfneg t D A G)
  | 16 | 17 | 18 | 19 | 20 | 21 | 22 => when (d < 8) (.vfcmp (fcondOf (fn / 2 - 16)) t (mreg d) A B G)
  | _ => ill

/-- Major 0x17 (Table 13-10). -/
def dec17 (d a b fn g : Nat) : Dec :=
  let t := fty (fn % 2); let D := vreg d; let A := vfld a; let B := vfld b; let G := mreg g
  match fn / 2 with
  | 0 => noChan d (.vfma t D A B G) | 1 => noChan d (.vfms t D A B G) | 2 => noChan d (.vfnma t D A B G)
  | 3 => noChan d (.vfnms t D A B G)
  | 4 => if fn = 8 then noChan d (.vfdot2 D A B G) else ill
  | _ => ill

/-- Major 0x18 (Table 13-11). -/
def dec18 (d a b fn g : Nat) : Dec :=
  let hi := fn / 32; let lo := fn % 32; let D := vfld d; let A := vfld a; let G := mreg g
  let f4 := 8 ≤ b && b ≤ 11
  if 1 ≤ lo && lo ≤ 11 && 1 ≤ b && b ≤ 11 then
    if hi < cvtRatio (cvFmt lo) (cvFmt b) && cvtNarrows (cvFmt lo) (cvFmt b) && 24 ≤ d then .error .channel
    else .ok (.vfcvt (Fin.ofNat 4 hi) (cvFmt lo) (cvFmt b) D A G)
  else if lo = 0x1C then when (f4 && hi == 0) (.vfcls (ffmt b) D A G)
  else if lo = 0x1D then when f4 (.vfround (rndSel hi) (ffmt b) D A G)
  else ill

/-- Major 0x19 (Table 13-12). -/
def dec19 (d a b fn g : Nat) : Dec :=
  let z := b == 0; let d := vfld d; let a := vfld a; let g := mreg g
  match fn with
  | 0 => when z (.vrcp d a g) | 1 => when z (.vrsq d a g) | 2 => when z (.vexp2 d a g) | 3 => when z (.vlog2 d a g)
  | 4 => when z (.vsin d a g) | 5 => when z (.vcos d a g) | 6 => when z (.vtanh d a g) | 7 => when z (.vsig d a g)
  | _ => ill

/-- Major 0x1A (Table 14-2). -/
def dec1A (d a b fn g : Nat) : Dec :=
  let D := vfld d; let A := vfld a; let B := vfld b; let G := mreg g
  match fn with
  | 0x00 => when (d == 0 && a == 0 && b < 16 && g == 0) (.qsel (Fin.ofNat 16 b))
  | 0x01 => .ok (.qadd D A B G) | 0x02 => .ok (.qsub D A B G)
  | 0x03 => when (b == 0) (.qneg D A G)
  | 0x04 => .ok (.qmul D A B G)
  | 0x05 => when (b == 0) (.qval D A G)
  | 0x06 => .ok (.qdig D A B G)
  | 0x07 => when (d < 8) (.qcmpEq (mreg d) A B G)
  | 0x08 => when (d < 8) (.qcmpNe (mreg d) A B G)
  | 0x10 => .ok (.qenc D A B G)
  | 0x11 => when (b == 0) (.qinv D A G)
  | 0x12 => .ok (.qdiv D A B G)
  | 0x13 => if d < 24 && b < 24 then .ok (.qdec (vreg d) (vreg b) A G) else .error .channel
  | _ => ill

/-- Major 0x1B (Table 14-5). -/
def dec1B (d a b fn g : Nat) : Dec :=
  let D := vfld d; let A := vfld a; let B := vfld b; let G := mreg g; let c := bfmt (fn % 8); let c5 := fn % 8 < 5
  match fn / 8 with
  | 0 =>
    match fn with
    | 0 => when (b == 0) (.bamax (sreg d) A G)
    | 1 => noChan d (.bscaleF32 (vreg d) A B G)
    | 2 => noChan d (.bscaleI32 (vreg d) A B G)
    | _ => ill
  | 1 => when (c5 && b == 0 && g == 0) (.bquant c D A)
  | 2 => when (c5 && b == 0) (.bdeq c D A G)
  | 3 => when (c5 && g == 0) (.baddq c D A B)
  | _ => ill

/-- Majors 0x20 and 0x21 (M format, R311). -/
def dec20 (w : Nat) : Dec :=
  .ok (.ld (width (fld w 3 2)) (fld w 6 1 == 1) (fld w 5 1 == 1) (sreg (fD w)) (sreg (fA w))
    (BitVec.ofNat 8 (fld w 7 8)) (kreg (fG w)))

def dec21 (w : Nat) : Dec :=
  when (fld w 6 1 == 0) (.st (width (fld w 3 2)) (fld w 5 1 == 1) (sreg (fA w)) (BitVec.ofNat 8 (fld w 7 8))
    (sreg (fD w)) (kreg (fG w)))

/-- Majors 0x22 and 0x23 (VM format, R244). -/
def dec22 (w : Nat) : Dec :=
  let v := vfld (fD w); let base := sreg (fA w); let aux := fB w; let rlx := fld w 6 1 == 1; let e := fld w 3 3
  let m := mreg (fG w)
  match fld w 7 3 with
  | 0 => when (aux == 0 && e < 4) (.vld (width e) rlx v base m)
  | 1 => when (e < 4) (.vldS (width e) rlx v base (sreg aux) m)
  | 2 => when (aux == 0 && e == 4) (.vldF rlx v base m)
  | _ => ill

def dec23 (w : Nat) : Dec :=
  let v := vfld (fD w); let base := sreg (fA w); let aux := fB w; let rlx := fld w 6 1 == 1; let e := fld w 3 3
  let m := mreg (fG w)
  match fld w 7 3 with
  | 0 => when (aux == 0 && e < 4) (.vst (width e) rlx base v m)
  | 1 => when (e < 4) (.vstS (width e) rlx base v (sreg aux) m)
  | 2 => when (aux == 0 && e == 4) (.vstF rlx base v m)
  | _ => ill

/-- Major 0x24 (Table 15-3). -/
def dec24 (w : Nat) : Dec :=
  let v := vfld (fD w); let base := sreg (fA w); let aux := fB w; let rlx := fld w 6 1 == 1; let e := fld w 3 3
  let g := fG w
  match fld w 7 3 with
  | 0 => when (2 ≤ e && e < 4) (.vgath (ww (e - 2)) rlx v base (vfld aux) (mreg g))
  | 1 => when (2 ≤ e && e < 4) (.vscat (ww (e - 2)) rlx base (vfld aux) v (mreg g))
  | 2 => when (e == 4 && fld w 6 1 == 0) (.vldr (kreg g) v base (sreg aux))
  | 3 => when (e == 4 && g == 0) (.vldBlk rlx v base (sreg aux))
  | 4 => when (e == 4 && g == 0) (.vstBlk rlx base v (sreg aux))
  | _ => ill

/-- Major 0x25 (Table 15-4). -/
def dec25 (d a b fn g : Nat) : Dec :=
  match fn with
  | 0x00 | 0x01 | 0x02 | 0x03 => .ok (.ldSync (width fn) (sreg d) (sreg a) (sreg b) (kreg g))
  | 0x04 | 0x05 | 0x06 => .ok (.ldSyncU (nw (fn - 4)) (sreg d) (sreg a) (sreg b) (kreg g))
  | 0x08 => when (b == 0) (.gtagRd (sreg d) (sreg a) (kreg g))
  | 0x09 => when (d == 0) (.gtagSet (sreg a) (sreg b) (kreg g))
  | 0x0A => when (d == 0 && b == 0) (.gtagClr (sreg a) (kreg g))
  | 0x40 => .ok (.vldSync (vfld d) (sreg a) (sreg b) (mreg g))
  | _ => ill

/-- Major 0x26 (Table 15-5): `fn = 2 × op + (W = d)`. -/
def dec26 (d a b fn g : Nat) : Dec :=
  let w := ww (fn % 2); let bz := b == 0; let dz := d == 0
  let d := sreg d; let a := sreg a; let b := sreg b; let g := kreg g
  match fn / 2 with
  | 0 => when bz (.rsv w d a g) | 1 => when dz (.wrv w a b g)
  | 2 => .ok (.amoAdd w d a b g) | 3 => .ok (.amoAnd w d a b g) | 4 => .ok (.amoOr w d a b g)
  | 5 => .ok (.amoXor w d a b g) | 6 => .ok (.amoMin w d a b g) | 7 => .ok (.amoMax w d a b g)
  | 8 => .ok (.amoMinu w d a b g) | 9 => .ok (.amoMaxu w d a b g) | 10 => .ok (.amoSwap w d a b g)
  | 11 => .ok (.amoCas w d a b g)
  | _ => ill

/-- Major 0x27 (Table 15-6). -/
def dec27 (d a b fn g : Nat) : Dec :=
  let z := d == 0 && b == 0
  match fn / 8 with
  | 0 => when (z && a == 0 && fn < 5) (.fence (scopeOf fn) (kreg g))
  | 1 => when (z && a == 0 && fn < 13) (.fenceEng (scopeOf (fn - 8)) (kreg g))
  | 2 => when (z && fn == 16) (.pf (sreg a) (kreg g))
  | _ => ill

/-- Major 0x28 (Table 15-7). -/
def dec28 (d a b fn g : Nat) : Dec :=
  let dz := d == 0; let bz := b == 0
  let d := sreg d; let a := sreg a; let b := sreg b; let g := kreg g
  match fn with
  | 0 => .ok (.holdRng d a b g) | 1 => .ok (.holdLk d a b g) | 2 => .ok (.holdRt d a b g) | 3 => .ok (.holdGrp d a b g)
  | 4 => when dz (.renew a b g) | 5 => when bz (.life d a g) | 6 => when bz (.hinfo d a g)
  | _ => ill

/-- Major 0x29 (Table 15-13). -/
def dec29 (d a b fn g : Nat) : Dec :=
  match fn with
  | 0 => when (a == 0 && b == 0) (.tick (sreg d) (kreg g))
  | 1 => when (d == 0 && b == 0) (.tickw (sreg a) (kreg g))
  | 2 => when (d == 0 && b == 0) (.dline (sreg a) (kreg g))
  | _ => ill

/-- Major 0x2A (Table 15-14). -/
def dec2A (d a b fn g : Nat) : Dec :=
  match fn with
  | 0 => when (d == 0) (.msend (sreg a) (vfld b) (kreg g))
  | 1 => when (24 ≤ a && b == 0) (.chlen (sreg d) (Fin.ofNat 8 (a - 24)) (kreg g))
  | _ => ill

/-- Major 0x2B (Table 15-16). -/
def dec2B (d a b fn g : Nat) : Dec :=
  let g := kreg g
  match fn with
  | 0 | 1 | 2 | 3 => when (d == 0 && a == 0 && b == 0) (.bar (bscopeOf fn) g)
  | 4 => when (d == 0) (.barPod (sreg a) (sreg b) g)
  | 8 => when (d == 0 && b == 0) (.done (sreg a) g)
  | 9 => when (d == 0 && a == 0 && b == 0) (.probe g)
  | _ => ill

/-- Major 0x2C (Table 15-17). -/
def dec2C (d a b fn g : Nat) : Dec :=
  let dz := d == 0; let az := a == 0; let bz := b == 0
  let d := sreg d; let a := sreg a; let b := sreg b; let g := kreg g
  match fn with
  | 0 => .ok (.hstart d a b g) | 1 => .ok (.hprot d a b g)
  | 2 => when (dz && bz) (.hjoin a g)
  | 3 => when (dz && az && bz) (.stop g)
  | 4 => when (az && bz) (.tid d g)
  | 5 => when (dz && bz) (.launchGrid a g)
  | 6 => when (dz && bz) (.launchPipe a g)
  | _ => ill

/-- Major 0x2D (Table 16-1). -/
noncomputable def dec2D (d a b fn g : Nat) : Dec :=
  let bz := b == 0; let g := kreg g
  match fn with
  | 0 | 1 | 2 => when bz (.enq (engOf fn) (sreg d) (vfld a) g)
  | 8 | 9 | 10 => when bz (.eseq (ringWord (fn - 8)) (sreg d) (sreg a) g)
  | 12 => when (bz && d == 0) (.ewait (sreg a) g)
  | _ => ill

/-- Major 0x38 (S format, R243, Table 16-7). -/
noncomputable def dec38 (d a sys g : Nat) : Dec :=
  let g := kreg g
  if sys < 0x800 then
    if d = 0 then .ok (.syswr (Fin.ofNat 2048 sys) (sreg a) g)
    else when (a == 0) (.sysrd (sreg d) (Fin.ofNat 2048 sys) g)
  else
    match sys - 0x800 with
    | 0 => .ok (.trap (sreg d) (sreg a) g)
    | 1 => when (d == 0 && a == 0) (.eret g)
    | 2 => .ok (.hcall (sreg d) (sreg a) g)
    | 3 => when (d == 0 && a == 0) (.dbg g)
    | 4 => when (d == 0) (.tlbinv (sreg a) g)
    | _ => ill

/-- The fields of a word read by its major (Table 11-4). -/
noncomputable def decodeFields (w : Nat) : Dec :=
  let d := fD w; let a := fA w; let b := fB w; let fn := fFn w; let g := fG w
  match fMajor w with
  | 0x01 => dec01 d a b fn g
  | 0x02 => dec02 d a (fFnB w) (fImm12 w)
  | 0x03 => dec03 d a b fn g
  | 0x04 => dec04 d a b fn g
  | 0x05 => .ok (.li (sreg d) (BitVec.ofNat 20 (fld w 0 20)))
  | 0x06 => .ok (.lio (sreg d) (BitVec.ofNat 20 (fld w 0 20)))
  | 0x07 => dec07 d a b fn g
  | 0x08 => dec08 d a b fn g
  | 0x09 => dec09 d a b fn g
  | 0x0A =>
    if fld w 21 1 = 0 then .ok (.br (kreg (fld w 22 3)) (BitVec.ofNat 21 (fld w 0 21)))
    else .ok (.brN (kreg (fld w 22 3)) (BitVec.ofNat 21 (fld w 0 21)))
  | 0x0B =>
    if fld w 24 1 = 0 then .ok (.jmp (BitVec.ofNat 24 (fld w 0 24))) else .ok (.call (BitVec.ofNat 24 (fld w 0 24)))
  | 0x0C => dec0C d a b fn g
  | 0x0D => dec0D d a (fFnB w) (fImm12 w)
  | 0x0E => dec0E d a (fFnB w) (fImm12 w)
  | 0x10 => dec10 d a b fn g
  | 0x11 => dec11 d a b fn g
  | 0x12 => dec12 d a b fn g
  | 0x13 => dec13 d a b fn g
  | 0x14 => dec14 d a b fn g
  | 0x15 => dec15 d a b fn g
  | 0x16 => dec16 d a b fn g
  | 0x17 => dec17 d a b fn g
  | 0x18 => dec18 d a b fn g
  | 0x19 => dec19 d a b fn g
  | 0x1A => dec1A d a b fn g
  | 0x1B => dec1B d a b fn g
  | 0x20 => dec20 w
  | 0x21 => dec21 w
  | 0x22 => dec22 w
  | 0x23 => dec23 w
  | 0x24 => dec24 w
  | 0x25 => dec25 d a b fn g
  | 0x26 => dec26 d a b fn g
  | 0x27 => dec27 d a b fn g
  | 0x28 => dec28 d a b fn g
  | 0x29 => dec29 d a b fn g
  | 0x2A => dec2A d a b fn g
  | 0x2B => dec2B d a b fn g
  | 0x2C => dec2C d a b fn g
  | 0x2D => dec2D d a b fn g
  | 0x38 => dec38 d a (fld w 3 12) g
  | _ => ill

/-- The decoder, total on every word: the instruction, or why the word raises ILLEGAL (R242). P is not read. -/
noncomputable def decodeWord (w : IWord) : Dec :=
  match decodeFields w.toNat with
  | .ok i => if i.wf then .ok i else ill
  | .error e => .error e

/-- The decoder on a word numbered as the opcode table numbers it: the word is four bytes, and the table gives every
row 32 bits. -/
noncomputable def decodeTableWord (nbits w : Nat) : Option Instr :=
  if 32 < nbits then none
  else match decodeWord (BitVec.ofNat 32 (w % 2 ^ nbits)) with
    | .ok i => some i
    | .error _ => none

/-! ## The encoder -/

def encA (major d a b fn g : Nat) : Nat :=
  major * 2 ^ 25 + d * 2 ^ 20 + a * 2 ^ 15 + b * 2 ^ 10 + fn * 2 ^ 3 + g
def encB (major d a fn imm : Nat) : Nat := major * 2 ^ 25 + d * 2 ^ 20 + a * 2 ^ 15 + fn * 2 ^ 12 + imm
def encL (major d imm : Nat) : Nat := major * 2 ^ 25 + d * 2 ^ 20 + imm
def encM (major d base imm u rlx size g : Nat) : Nat :=
  major * 2 ^ 25 + d * 2 ^ 20 + base * 2 ^ 15 + imm * 2 ^ 7 + u * 2 ^ 6 + rlx * 2 ^ 5 + size * 2 ^ 3 + g
def encVM (major v base aux fn rlx e m : Nat) : Nat :=
  major * 2 ^ 25 + v * 2 ^ 20 + base * 2 ^ 15 + aux * 2 ^ 10 + fn * 2 ^ 7 + rlx * 2 ^ 6 + e * 2 ^ 3 + m
def encS (d a sys g : Nat) : Nat := 0x38 * 2 ^ 25 + d * 2 ^ 20 + a * 2 ^ 15 + sys * 2 ^ 3 + g

def Width.code : Width → Nat | .w8 => 0 | .w16 => 1 | .w32 => 2 | .w64 => 3
def WW.code : WW → Nat | .w32 => 0 | .w64 => 1
def NW.code : NW → Nat | .w8 => 0 | .w16 => 1 | .w32 => 2
def PW.code : PW → Nat | .w16 => 0 | .w32 => 1 | .w64 => 2
def FTy.code : FTy → Nat | .f32 => 0 | .f64 => 1
def RedTy.code : RedTy → Nat | .i32 => 0 | .i64 => 1 | .f32 => 2 | .f64 => 3
def SatSel.code : SatSel → Nat | .h8 => 0 | .w8 => 1 | .w16 => 2 | .d32 => 3
def RndSel.code : RndSel → Nat | .fpctl => 0 | .rtz => 1 | .rup => 2 | .rdn => 3
def Cond.code : Cond → Nat | .eq => 0 | .ne => 1 | .lt => 2 | .ge => 3 | .ltu => 4 | .geu => 5
def FCond.code : FCond → Nat | .eq => 0 | .ne => 1 | .lt => 2 | .le => 3 | .gt => 4 | .ge => 5 | .un => 6
def CvFmt.code : CvFmt → Nat
  | .i8 => 1 | .u8 => 2 | .i16 => 3 | .i32 => 4 | .i64 => 5 | .fp8a => 6 | .fp8b => 7 | .f16 => 8 | .bf16 => 9
  | .f32 => 10 | .f64 => 11
def FFmt.code : FFmt → Nat | .f16 => 8 | .bf16 => 9 | .f32 => 10 | .f64 => 11
def BFmt.code : BFmt → Nat | .i8 => 0 | .fp8a => 1 | .fp8b => 2 | .i4 => 3 | .tern => 4
def Scope.code : Scope → Nat | .core => 0 | .quad => 1 | .die => 2 | .pkg => 3 | .pod => 4
def BScope.code : BScope → Nat | .core => 0 | .quad => 1 | .die => 2 | .pkg => 3
def Eng.code : Eng → Nat | .mx => 0 | .cp => 1 | .rl => 2
def RingWord.code : RingWord → Nat | .w0 => 0 | .w1 => 1 | .w2 => 2

/-- The word of an instruction, P clear, as a number; none for the machine's own steps, which have no word. -/
def encodeNat : Instr → Option Nat
  | .add d a b g => some (encA 1 d.val a.val b.val 0 g.val)
  | .sub d a b g => some (encA 1 d.val a.val b.val 1 g.val)
  | .and d a b g => some (encA 1 d.val a.val b.val 2 g.val)
  | .or d a b g => some (encA 1 d.val a.val b.val 3 g.val)
  | .xor d a b g => some (encA 1 d.val a.val b.val 4 g.val)
  | .andn d a b g => some (encA 1 d.val a.val b.val 5 g.val)
  | .sll d a b g => some (encA 1 d.val a.val b.val 6 g.val)
  | .srl d a b g => some (encA 1 d.val a.val b.val 7 g.val)
  | .sra d a b g => some (encA 1 d.val a.val b.val 8 g.val)
  | .min d a b g => some (encA 1 d.val a.val b.val 9 g.val)
  | .max d a b g => some (encA 1 d.val a.val b.val 10 g.val)
  | .minu d a b g => some (encA 1 d.val a.val b.val 11 g.val)
  | .maxu d a b g => some (encA 1 d.val a.val b.val 12 g.val)
  | .slt d a b g => some (encA 1 d.val a.val b.val 13 g.val)
  | .sltu d a b g => some (encA 1 d.val a.val b.val 14 g.val)
  | .mul d a b g => some (encA 3 d.val a.val b.val 0 g.val)
  | .mulh d a b g => some (encA 3 d.val a.val b.val 1 g.val)
  | .mulhu d a b g => some (encA 3 d.val a.val b.val 2 g.val)
  | .mulhm d a b g => some (encA 3 d.val a.val b.val 3 g.val)
  | .div d a b g => some (encA 3 d.val a.val b.val 4 g.val)
  | .divu d a b g => some (encA 3 d.val a.val b.val 5 g.val)
  | .rem d a b g => some (encA 3 d.val a.val b.val 6 g.val)
  | .remu d a b g => some (encA 3 d.val a.val b.val 7 g.val)
  | .addi d a i => some (encB 2 d.val a.val 0 i.toNat)
  | .andi d a i => some (encB 2 d.val a.val 1 i.toNat)
  | .ori d a i => some (encB 2 d.val a.val 2 i.toNat)
  | .xori d a i => some (encB 2 d.val a.val 3 i.toNat)
  | .slli d a i => some (encB 2 d.val a.val 4 i.val)
  | .srli d a i => some (encB 2 d.val a.val 5 i.val)
  | .srai d a i => some (encB 2 d.val a.val 6 i.val)
  | .slti d a i => some (encB 2 d.val a.val 7 i.toNat)
  | .clz d a g => some (encA 4 d.val a.val 0 0 g.val)
  | .ctz d a g => some (encA 4 d.val a.val 0 1 g.val)
  | .popc d a g => some (encA 4 d.val a.val 0 2 g.val)
  | .brev d a g => some (encA 4 d.val a.val 0 3 g.val)
  | .sextB d a g => some (encA 4 d.val a.val 0 4 g.val)
  | .sextH d a g => some (encA 4 d.val a.val 0 5 g.val)
  | .sextW d a g => some (encA 4 d.val a.val 0 6 g.val)
  | .zextB d a g => some (encA 4 d.val a.val 0 7 g.val)
  | .zextH d a g => some (encA 4 d.val a.val 0 8 g.val)
  | .zextW d a g => some (encA 4 d.val a.val 0 9 g.val)
  | .bfx d a b g => some (encA 4 d.val a.val b.val 10 g.val)
  | .bfxu d a b g => some (encA 4 d.val a.val b.val 11 g.val)
  | .bfi d a b g => some (encA 4 d.val a.val b.val 12 g.val)
  | .li d i => some (encL 5 d.val i.toNat)
  | .lio d i => some (encL 6 d.val i.toNat)
  | .ptrAdd d a b g => some (encA 7 d.val a.val b.val 0 g.val)
  | .ptrSub d a b g => some (encA 7 d.val a.val b.val 1 g.val)
  | .ptrSetFmt d a b g => some (encA 7 d.val a.val b.val 2 g.val)
  | .ptrSetBlen d a b g => some (encA 7 d.val a.val b.val 3 g.val)
  | .ptrSetGen d a b g => some (encA 7 d.val a.val b.val 4 g.val)
  | .ptrSetVa d a b g => some (encA 7 d.val a.val b.val 5 g.val)
  | .ptrGetFmt d a g => some (encA 7 d.val a.val 0 6 g.val)
  | .ptrGetBlen d a g => some (encA 7 d.val a.val 0 7 g.val)
  | .ptrGetGen d a g => some (encA 7 d.val a.val 0 8 g.val)
  | .ptrGetVa d a g => some (encA 7 d.val a.val 0 9 g.val)
  | .ptrChk d a b g => some (encA 7 d.val a.val b.val 10 g.val)
  | .cmp c d a b g => some (encA 8 d.val a.val b.val c.code g.val)
  | .kand d a b g => some (encA 8 d.val a.val b.val 16 g.val)
  | .kor d a b g => some (encA 8 d.val a.val b.val 17 g.val)
  | .kxor d a b g => some (encA 8 d.val a.val b.val 18 g.val)
  | .knot d a g => some (encA 8 d.val a.val 0 19 g.val)
  | .kset d v g => some (encA 8 d.val 0 (if v then 1 else 0) 20 g.val)
  | .vbcast w d a g => some (encA 9 d.val a.val 0 w.code g.val)
  | .vins w d a b g => some (encA 9 d.val a.val b.val (4 + w.code) g.val)
  | .sel d k a b g => some (encA 9 d.val a.val b.val (8 + k.val) g.val)
  | .vext w d a b g => some (encA 9 d.val a.val b.val (16 + w.code) g.val)
  | .vextU w d a b g => some (encA 9 d.val a.val b.val (20 + w.code) g.val)
  | .mtokAny d a g => some (encA 9 d.val a.val 0 24 g.val)
  | .mtokAll d a g => some (encA 9 d.val a.val 0 25 g.val)
  | .mtokAllD d a g => some (encA 9 d.val a.val 0 26 g.val)
  | .ktom d a g => some (encA 9 d.val a.val 0 27 g.val)
  | .mtos d a g => some (encA 9 d.val a.val 0 28 g.val)
  | .stom d a g => some (encA 9 d.val a.val 0 29 g.val)
  | .br k off => some (0x0A * 2 ^ 25 + k.val * 2 ^ 22 + off.toNat)
  | .brN k off => some (0x0A * 2 ^ 25 + k.val * 2 ^ 22 + 2 ^ 21 + off.toNat)
  | .jmp off => some (0x0B * 2 ^ 25 + off.toNat)
  | .call off => some (0x0B * 2 ^ 25 + 2 ^ 24 + off.toNat)
  | .jr a g => some (encA 12 0 a.val 0 0 g.val)
  | .callr a g => some (encA 12 0 a.val 0 1 g.val)
  | .ret g => some (encA 12 0 0 0 2 g.val)
  | .loop d off => some (encB 13 d.val 0 0 off.toNat)
  | .loopP d off => some (encB 13 d.val 0 1 off.toNat)
  | .cmpi c d a i => some (encB 14 d.val a.val c.code i.toNat)
  | .vadd w d a b g => some (encA 16 d.val a.val b.val (0 + w.code) g.val)
  | .vsub w d a b g => some (encA 16 d.val a.val b.val (4 + w.code) g.val)
  | .vmul w d a b g => some (encA 16 d.val a.val b.val (8 + w.code) g.val)
  | .vmulh w d a b g => some (encA 16 d.val a.val b.val (12 + w.code) g.val)
  | .vmulhu w d a b g => some (encA 16 d.val a.val b.val (16 + w.code) g.val)
  | .vmad w d a b g => some (encA 16 d.val a.val b.val (20 + w.code) g.val)
  | .vmin w d a b g => some (encA 16 d.val a.val b.val (24 + w.code) g.val)
  | .vmax w d a b g => some (encA 16 d.val a.val b.val (28 + w.code) g.val)
  | .vminu w d a b g => some (encA 16 d.val a.val b.val (32 + w.code) g.val)
  | .vmaxu w d a b g => some (encA 16 d.val a.val b.val (36 + w.code) g.val)
  | .vabs w d a g => some (encA 16 d.val a.val 0 (40 + w.code) g.val)
  | .vshl w d a b g => some (encA 17 d.val a.val b.val (0 + w.code) g.val)
  | .vshr w d a b g => some (encA 17 d.val a.val b.val (4 + w.code) g.val)
  | .vsra w d a b g => some (encA 17 d.val a.val b.val (8 + w.code) g.val)
  | .vshlImm w d a b g => some (encA 17 d.val a.val b.val (12 + w.code) g.val)
  | .vshrImm w d a b g => some (encA 17 d.val a.val b.val (16 + w.code) g.val)
  | .vsraImm w d a b g => some (encA 17 d.val a.val b.val (20 + w.code) g.val)
  | .vshlImmHi d a b g => some (encA 17 d.val a.val b.val 27 g.val)
  | .vshrImmHi d a b g => some (encA 17 d.val a.val b.val 31 g.val)
  | .vsraImmHi d a b g => some (encA 17 d.val a.val b.val 35 g.val)
  | .vaddi w d a i g => some (encA 17 d.val a.val i.toNat (36 + w.code) g.val)
  | .vli w d i g => some (encA 17 d.val 0 i.toNat (40 + w.code) g.val)
  | .vand d a b g => some (encA 18 d.val a.val b.val 0 g.val)
  | .vor d a b g => some (encA 18 d.val a.val b.val 1 g.val)
  | .vxor d a b g => some (encA 18 d.val a.val b.val 2 g.val)
  | .vandn d a b g => some (encA 18 d.val a.val b.val 3 g.val)
  | .mand d a b => some (encA 18 d.val a.val b.val 8 0)
  | .mor d a b => some (encA 18 d.val a.val b.val 9 0)
  | .mxor d a b => some (encA 18 d.val a.val b.val 10 0)
  | .mnot d a => some (encA 18 d.val a.val 0 11 0)
  | .mpop d a => some (encA 18 d.val a.val 0 12 0)
  | .mfirst d a => some (encA 18 d.val a.val 0 13 0)
  | .vcmp c w d a b g => some (encA 19 d.val a.val b.val (4 * c.code + 2 + w.code) g.val)
  | .vperm w z d a b g => some (encA 20 d.val a.val b.val (64 * (if z then 1 else 0) + 0 + w.code) g.val)
  | .vshuf w z d a b g => some (encA 20 d.val a.val b.val (64 * (if z then 1 else 0) + 4 + w.code) g.val)
  | .vrot w z d a b g => some (encA 20 d.val a.val b.val (64 * (if z then 1 else 0) + 8 + w.code) g.val)
  | .vcompress w d a b g => some (encA 20 d.val a.val b.val (12 + w.code) g.val)
  | .vexpand w d a b g => some (encA 20 d.val a.val b.val (16 + w.code) g.val)
  | .vredAdd t z d a g => some (encA 20 d.val a.val 0 (64 * (if z then 1 else 0) + 20 + t.code) g.val)
  | .vredMin t z d a g => some (encA 20 d.val a.val 0 (64 * (if z then 1 else 0) + 24 + t.code) g.val)
  | .vredMax t z d a g => some (encA 20 d.val a.val 0 (64 * (if z then 1 else 0) + 28 + t.code) g.val)
  | .vredMinu t z d a g => some (encA 20 d.val a.val 0 (64 * (if z then 1 else 0) + 32 + t.code) g.val)
  | .vredMaxu t z d a g => some (encA 20 d.val a.val 0 (64 * (if z then 1 else 0) + 36 + t.code) g.val)
  | .vredAnd t z d a g => some (encA 20 d.val a.val 0 (64 * (if z then 1 else 0) + 40 + t.code) g.val)
  | .vredOr t z d a g => some (encA 20 d.val a.val 0 (64 * (if z then 1 else 0) + 44 + t.code) g.val)
  | .vredXor t z d a g => some (encA 20 d.val a.val 0 (64 * (if z then 1 else 0) + 48 + t.code) g.val)
  | .vscanAdd t z d a g => some (encA 20 d.val a.val 0 (64 * (if z then 1 else 0) + 52 + t.code) g.val)
  | .vsatSigned x d a g => some (encA 21 d.val a.val 0 (0 + x.code) g.val)
  | .vsatUnsigned x d a g => some (encA 21 d.val a.val 0 (4 + x.code) g.val)
  | .vpackI x d a b g => some (encA 21 d.val a.val b.val (8 + x.code) g.val)
  | .vpackU x d a b g => some (encA 21 d.val a.val b.val (12 + x.code) g.val)
  | .vunpackLoI x d a g => some (encA 21 d.val a.val 0 (16 + x.code) g.val)
  | .vunpackHiI x d a g => some (encA 21 d.val a.val 0 (20 + x.code) g.val)
  | .vunpackLoU x d a g => some (encA 21 d.val a.val 0 (24 + x.code) g.val)
  | .vunpackHiU x d a g => some (encA 21 d.val a.val 0 (28 + x.code) g.val)
  | .vdot4 x y d a b g => some (encA 21 d.val a.val b.val (32 + 2 * (if x then 1 else 0) + (if y then 1 else 0)) g.val)
  | .vdot4Sat x y d a b g =>
    some (encA 21 d.val a.val b.val (36 + 2 * (if x then 1 else 0) + (if y then 1 else 0)) g.val)
  | .vfadd t d a b g => some (encA 22 d.val a.val b.val (0 + t.code) g.val)
  | .vfsub t d a b g => some (encA 22 d.val a.val b.val (2 + t.code) g.val)
  | .vfmul t d a b g => some (encA 22 d.val a.val b.val (4 + t.code) g.val)
  | .vfdiv t d a b g => some (encA 22 d.val a.val b.val (6 + t.code) g.val)
  | .vfmin t d a b g => some (encA 22 d.val a.val b.val (10 + t.code) g.val)
  | .vfmax t d a b g => some (encA 22 d.val a.val b.val (12 + t.code) g.val)
  | .vfsqrt t d a g => some (encA 22 d.val a.val 0 (8 + t.code) g.val)
  | .vfabs t d a g => some (encA 22 d.val a.val 0 (14 + t.code) g.val)
  | .vfneg t d a g => some (encA 22 d.val a.val 0 (16 + t.code) g.val)
  | .vfcmp c t d a b g => some (encA 22 d.val a.val b.val (32 + 2 * c.code + t.code) g.val)
  | .vfma t d a b g => some (encA 23 d.val a.val b.val (0 + t.code) g.val)
  | .vfms t d a b g => some (encA 23 d.val a.val b.val (2 + t.code) g.val)
  | .vfnma t d a b g => some (encA 23 d.val a.val b.val (4 + t.code) g.val)
  | .vfnms t d a b g => some (encA 23 d.val a.val b.val (6 + t.code) g.val)
  | .vfdot2 d a b g => some (encA 23 d.val a.val b.val 8 g.val)
  | .vfcvt q t f d a g => some (encA 24 d.val a.val f.code (32 * q.val + t.code) g.val)
  | .vfcls f d a g => some (encA 24 d.val a.val f.code 0x1C g.val)
  | .vfround m f d a g => some (encA 24 d.val a.val f.code (32 * m.code + 0x1D) g.val)
  | .vrcp d a g => some (encA 25 d.val a.val 0 0 g.val)
  | .vrsq d a g => some (encA 25 d.val a.val 0 1 g.val)
  | .vexp2 d a g => some (encA 25 d.val a.val 0 2 g.val)
  | .vlog2 d a g => some (encA 25 d.val a.val 0 3 g.val)
  | .vsin d a g => some (encA 25 d.val a.val 0 4 g.val)
  | .vcos d a g => some (encA 25 d.val a.val 0 5 g.val)
  | .vtanh d a g => some (encA 25 d.val a.val 0 6 g.val)
  | .vsig d a g => some (encA 25 d.val a.val 0 7 g.val)
  | .qsel i => some (encA 26 0 0 i.val 0 0)
  | .qadd d a b g => some (encA 26 d.val a.val b.val 1 g.val)
  | .qsub d a b g => some (encA 26 d.val a.val b.val 2 g.val)
  | .qmul d a b g => some (encA 26 d.val a.val b.val 4 g.val)
  | .qdig d a b g => some (encA 26 d.val a.val b.val 6 g.val)
  | .qcmpEq d a b g => some (encA 26 d.val a.val b.val 7 g.val)
  | .qcmpNe d a b g => some (encA 26 d.val a.val b.val 8 g.val)
  | .qenc d a b g => some (encA 26 d.val a.val b.val 16 g.val)
  | .qdiv d a b g => some (encA 26 d.val a.val b.val 18 g.val)
  | .qneg d a g => some (encA 26 d.val a.val 0 3 g.val)
  | .qval d a g => some (encA 26 d.val a.val 0 5 g.val)
  | .qinv d a g => some (encA 26 d.val a.val 0 17 g.val)
  | .qdec n m a g => some (encA 26 n.val a.val m.val 19 g.val)
  | .bamax d a g => some (encA 27 d.val a.val 0 0 g.val)
  | .bscaleF32 d a b g => some (encA 27 d.val a.val b.val 1 g.val)
  | .bscaleI32 d a b g => some (encA 27 d.val a.val b.val 2 g.val)
  | .bquant c d a => some (encA 27 d.val a.val 0 (8 + c.code) 0)
  | .bdeq c d a g => some (encA 27 d.val a.val 0 (16 + c.code) g.val)
  | .baddq c d a b => some (encA 27 d.val a.val b.val (24 + c.code) 0)
  | .ld s u r d base i g => some (encM 32 d.val base.val i.toNat (if u then 1 else 0) (if r then 1 else 0) s.code g.val)
  | .st s r base i d g => some (encM 33 d.val base.val i.toNat 0 (if r then 1 else 0) s.code g.val)
  | .vld e r v base g => some (encVM 34 v.val base.val 0 0 (if r then 1 else 0) e.code g.val)
  | .vldS e r v base aux g => some (encVM 34 v.val base.val aux.val 1 (if r then 1 else 0) e.code g.val)
  | .vldF r v base g => some (encVM 34 v.val base.val 0 2 (if r then 1 else 0) 4 g.val)
  | .vst e r base v g => some (encVM 35 v.val base.val 0 0 (if r then 1 else 0) e.code g.val)
  | .vstS e r base v aux g => some (encVM 35 v.val base.val aux.val 1 (if r then 1 else 0) e.code g.val)
  | .vstF r base v g => some (encVM 35 v.val base.val 0 2 (if r then 1 else 0) 4 g.val)
  | .vgath e r v base aux g => some (encVM 36 v.val base.val aux.val 0 (if r then 1 else 0) (2 + e.code) g.val)
  | .vscat e r base aux v g => some (encVM 36 v.val base.val aux.val 1 (if r then 1 else 0) (2 + e.code) g.val)
  | .vldr k v base aux => some (encVM 36 v.val base.val aux.val 2 0 4 k.val)
  | .vldBlk r v base aux => some (encVM 36 v.val base.val aux.val 3 (if r then 1 else 0) 4 0)
  | .vstBlk r base v aux => some (encVM 36 v.val base.val aux.val 4 (if r then 1 else 0) 4 0)
  | .ldSync w d a b g => some (encA 37 d.val a.val b.val w.code g.val)
  | .ldSyncU w d a b g => some (encA 37 d.val a.val b.val (4 + w.code) g.val)
  | .gtagRd d a g => some (encA 37 d.val a.val 0 8 g.val)
  | .gtagSet a b g => some (encA 37 0 a.val b.val 9 g.val)
  | .gtagClr a g => some (encA 37 0 a.val 0 10 g.val)
  | .vldSync d a b g => some (encA 37 d.val a.val b.val 0x40 g.val)
  | .rsv w d a g => some (encA 38 d.val a.val 0 w.code g.val)
  | .wrv w a b g => some (encA 38 0 a.val b.val (2 + w.code) g.val)
  | .amoAdd w d a b g => some (encA 38 d.val a.val b.val (4 + w.code) g.val)
  | .amoAnd w d a b g => some (encA 38 d.val a.val b.val (6 + w.code) g.val)
  | .amoOr w d a b g => some (encA 38 d.val a.val b.val (8 + w.code) g.val)
  | .amoXor w d a b g => some (encA 38 d.val a.val b.val (10 + w.code) g.val)
  | .amoMin w d a b g => some (encA 38 d.val a.val b.val (12 + w.code) g.val)
  | .amoMax w d a b g => some (encA 38 d.val a.val b.val (14 + w.code) g.val)
  | .amoMinu w d a b g => some (encA 38 d.val a.val b.val (16 + w.code) g.val)
  | .amoMaxu w d a b g => some (encA 38 d.val a.val b.val (18 + w.code) g.val)
  | .amoSwap w d a b g => some (encA 38 d.val a.val b.val (20 + w.code) g.val)
  | .amoCas w d a b g => some (encA 38 d.val a.val b.val (22 + w.code) g.val)
  | .fence s g => some (encA 39 0 0 0 s.code g.val)
  | .fenceEng s g => some (encA 39 0 0 0 (8 + s.code) g.val)
  | .pf a g => some (encA 39 0 a.val 0 16 g.val)
  | .holdRng d a b g => some (encA 40 d.val a.val b.val 0 g.val)
  | .holdLk d a b g => some (encA 40 d.val a.val b.val 1 g.val)
  | .holdRt d a b g => some (encA 40 d.val a.val b.val 2 g.val)
  | .holdGrp d a b g => some (encA 40 d.val a.val b.val 3 g.val)
  | .renew a b g => some (encA 40 0 a.val b.val 4 g.val)
  | .life d a g => some (encA 40 d.val a.val 0 5 g.val)
  | .hinfo d a g => some (encA 40 d.val a.val 0 6 g.val)
  | .tick d g => some (encA 41 d.val 0 0 0 g.val)
  | .tickw a g => some (encA 41 0 a.val 0 1 g.val)
  | .dline a g => some (encA 41 0 a.val 0 2 g.val)
  | .msend a b g => some (encA 42 0 a.val b.val 0 g.val)
  | .chlen d c g => some (encA 42 d.val (24 + c.val) 0 1 g.val)
  | .bar s g => some (encA 43 0 0 0 s.code g.val)
  | .barPod a b g => some (encA 43 0 a.val b.val 4 g.val)
  | .done a g => some (encA 43 0 a.val 0 8 g.val)
  | .probe g => some (encA 43 0 0 0 9 g.val)
  | .hstart d a b g => some (encA 44 d.val a.val b.val 0 g.val)
  | .hprot d a b g => some (encA 44 d.val a.val b.val 1 g.val)
  | .hjoin a g => some (encA 44 0 a.val 0 2 g.val)
  | .stop g => some (encA 44 0 0 0 3 g.val)
  | .tid d g => some (encA 44 d.val 0 0 4 g.val)
  | .launchGrid a g => some (encA 44 0 a.val 0 5 g.val)
  | .launchPipe a g => some (encA 44 0 a.val 0 6 g.val)
  | .enq e d a g => some (encA 45 d.val a.val 0 e.code g.val)
  | .eseq n d a g => some (encA 45 d.val a.val 0 (8 + n.code) g.val)
  | .ewait a g => some (encA 45 0 a.val 0 12 g.val)
  | .sysrd d n g => some (encS d.val 0 n.val g.val)
  | .syswr n a g => some (encS 0 a.val n.val g.val)
  | .trap d a g => some (encS d.val a.val 0x800 g.val)
  | .eret g => some (encS 0 0 0x801 g.val)
  | .hcall d a g => some (encS d.val a.val 0x802 g.val)
  | .dbg g => some (encS 0 0 0x803 g.val)
  | .tlbinv a g => some (encS 0 a.val 0x804 g.val)
  | _ => none

/-- The word of an instruction, by the encoding tables of the entries, with P clear. -/
def encode (i : Instr) : Option IWord := (encodeNat i).map (BitVec.ofNat 32)

end Sys2Proof
end

