-- ==== Sys2Proof/Machine/Special.lean ====
section
/-! DEFINITION. The special functions of spec/13_isa_vector.md R294 (Table 13-12). The spec fixes a bound and not the
bits, so the value is a free value of Config kept within the bound: where the free value lies outside it, the correctly
rounded value stands in its place (log entry 1). The exact functions are computed in fixed point with 400 fractional
bits, far finer than any bound of the table. -/

namespace Sys2Proof.Machine

/-- Fractional bits of the fixed-point values of this file. -/
def fxBits : Nat := 400

def fxOne : Int := (2 ^ fxBits : Nat)

def fxMul (a b : Int) : Int := a * b / fxOne
def fxDiv (a b : Int) : Int := a * fxOne / b

/-- m × 2^e as a fixed-point value. -/
def fxOf (neg : Bool) (m : Nat) (e : Int) : Int :=
  let s : Int := e + fxBits
  let t : Nat := if s ≥ 0 then m * 2 ^ s.toNat else m / 2 ^ (-s).toNat
  if neg then -(t : Int) else t

/-- Σ z^(2i+1)/(2i+1) from i to the end of the fuel, alternating where `alt`: atanh or atan of z. -/
def fxAtanSeries (alt : Bool) (z2 : Int) : Nat → Nat → Int → Int
  | 0, _, _ => 0
  | fuel + 1, i, p =>
    let t := p / (2 * i + 1 : Nat)
    (if alt && i % 2 == 1 then -t else t) + fxAtanSeries alt z2 fuel (i + 1) (fxMul p z2)

def fxAtanh (z : Int) : Int := fxAtanSeries false (fxMul z z) 140 0 z
def fxAtan (z : Int) : Int := fxAtanSeries true (fxMul z z) 190 0 z

def fxLn2 : Int := 2 * fxAtanh (fxOne / 3)
def fxPi : Int := 16 * fxAtan (fxOne / 5) - 4 * fxAtan (fxOne / 239)

/-- Σ y^i/i!, for |y| at most 1. -/
def fxExpSeries (y : Int) : Nat → Nat → Int → Int
  | 0, _, _ => 0
  | fuel + 1, i, p => p + fxExpSeries y fuel (i + 1) (fxMul p y / (i + 1 : Nat))

/-- 2^x as a fraction in [1, 2) and an exponent. -/
def fxExp2 (x : Int) : Int × Int :=
  let i := x / fxOne
  (fxExpSeries (fxMul (x - i * fxOne) fxLn2) 100 0 fxOne, i)

/-- log₂ of m × 2^e, m above zero. -/
def fxLog2 (m : Nat) (e : Int) : Int :=
  let k := m.log2
  let y := fxOf false m (-(k : Int))
  ((k : Int) + e) * fxOne + fxDiv (2 * fxAtanh (fxDiv (y - fxOne) (y + fxOne))) fxLn2

/-- Σ ± y^i/i! over the odd or the even i, for |y| at most 2. -/
def fxTrig (y2 : Int) : Nat → Nat → Int → Int
  | 0, _, _ => 0
  | fuel + 1, i, p => p + fxTrig y2 fuel (i + 2) (-(fxMul p y2) / ((i + 1) * (i + 2) : Nat))

/-- sin or cos of a finite value, after reduction by a multiple of π/2. -/
def fxSinCos (wantCos : Bool) (x : Int) : Int :=
  let half := fxPi / 2
  let n := (2 * x + half) / (2 * half)
  let r := x - n * half
  let q := (n + (if wantCos then 1 else 0)) % 4
  let s := if q % 2 = 0 then fxTrig (fxMul r r) 90 1 r else fxTrig (fxMul r r) 90 0 fxOne
  if q < 2 then s else -s

/-- e^x as a fraction and an exponent. -/
def fxExp (x : Int) : Int × Int := fxExp2 (fxDiv x fxLn2)

/-- A nonnegative fixed-point fraction times 2^i as numerator and exponent. -/
def fxParts (p : Int × Int) : Nat × Int := (p.1.toNat, p.2 - fxBits)

/-- A value below 1 by less than the last of the fractional bits, as a fraction: what tanh and 1/(1 + e^−x) come to beyond 200,
where they are short of 1 by less than 2^−288. -/
def belowOne : Nat × Nat := (2 ^ 600 - 1, 2 ^ 600)

/-- The exact value of a special function on a finite input, as ± n/d × 2^e. -/
def sfuExact (fn : Nat) (neg : Bool) (m : Nat) (e : Int) : Bool × Nat × Nat × Int :=
  match fn with
  | 0 => (neg, 1, m, -e)
  | 1 => -- 1/√(m × 2^e): the root of 1/m on an even power
    let e' := if e % 2 = 0 then e else e - 1
    let m' := if e % 2 = 0 then m else 2 * m
    (false, 2 ^ fxBits, isqrt (m' * 2 ^ (2 * fxBits)), -(e' / 2))
  | 2 => let p := fxParts (fxExp2 (fxOf neg m e)); (false, p.1, 1, p.2)
  | 3 => let l := fxLog2 m e; (l < 0, l.natAbs, 1, -(fxBits : Int))
  | 4 => let s := fxSinCos false (fxOf neg m e); (s < 0, s.natAbs, 1, -(fxBits : Int))
  | 5 => let s := fxSinCos true (fxOf neg m e); (s < 0, s.natAbs, 1, -(fxBits : Int))
  | 6 => -- (e^2|x| − 1)/(e^2|x| + 1), with the sign of x
    let x := fxOf false m e
    if 200 * fxOne < x then (neg, belowOne.1, belowOne.2, 0)
    else
      let p := fxExp (2 * x)
      let g := p.1 * (2 ^ p.2.toNat : Nat)
      (neg, (g - fxOne).toNat, (g + fxOne).toNat, 0)
  | _ => -- 1/(1 + e^−x)
    let x := fxOf neg m e
    if 200 * fxOne < x then (false, belowOne.1, belowOne.2, 0)
    else
      let p := fxExp (-x)
      if p.2 ≥ 0 then (false, fxOne.toNat, (fxOne + p.1 * (2 ^ p.2.toNat : Nat)).toNat, 0)
      else (false, fxOne.toNat, (fxOne + p.1 / (2 ^ (-p.2).toNat : Nat)).toNat, 0)

/-- The bound of Table 13-12 on a result near the exact value ± n/d × 2^e: a number of ulps of FP32, an absolute
bound as a power of two, and whether the larger of the two applies. -/
def sfuBound (fn : Nat) (m : Nat) (e : Int) : Nat × Option Int :=
  match fn with
  | 0 | 1 => (1, none)
  | 2 => (2, none)
  | 3 => -- 2^−22 absolute for x in [0.5, 2]
    let half := scaled m 1 e (-1)
    let two := scaled m 1 e 1
    if half.2 ≤ half.1 ∧ two.1 ≤ two.2 then (2, some (-22)) else (2, none)
  | 4 | 5 => (0, some (-22))
  | _ => (2, some (-24))

/-- |r − v| ≤ b for v = ± n/d × 2^e and b = u × 2^q, all as fractions over one scale. -/
def within (r : X) (neg : Bool) (n d : Nat) (e : Int) (u : Nat) (q : Int) : Bool :=
  match r with
  | .num rn rm re =>
    let s := min (min e q) re
    let v : Int := (n * 2 ^ (e - s).toNat : Nat)
    let v := if neg then -v else v
    let w : Int := (rm * d * 2 ^ (re - s).toNat : Nat)
    let w := if rn then -w else w
    decide ((w - v).natAbs ≤ u * d * 2 ^ (q - s).toNat)
  | _ => false

/-- A result lies within its bound (R294). -/
def sfuWithin (fn : Nat) (m : Nat) (e : Int) (v : Bool × Nat × Nat × Int) (r : Nat) : Bool :=
  let b := sfuBound fn m e
  let x := unpackRaw fp32 r
  let ulp : Int := (if v.2.1 = 0 then fp32.emin else max (expOf v.2.1 v.2.2.1 v.2.2.2) fp32.emin) - 23
  within x v.1 v.2.1 v.2.2.1 v.2.2.2 b.1 ulp ||
    (match b.2 with | some q => within x v.1 v.2.1 v.2.2.1 v.2.2.2 1 q | none => false)

/-- A special function of a finite input away from the table's special cases. -/
def sfuFinite (fn : Nat) (ftz : Bool) (c : Nat) (neg : Bool) (m : Nat) (e : Int) : Nat × BitVec 8 :=
  let v := sfuExact fn neg m e
  let big := scaled v.2.1 v.2.2.1 v.2.2.2 (127 - 23)
  if (2 ^ 24 - 1) * big.2 < big.1 then (fp32.withSign v.1 fp32.infCode, fOF ||| fNX)
  else
    let free := Config.sfu fn c % 2 ^ 32
    -- 2^x of an integral x is exact (the example of R295)
    let exact := fn = 2 && fxOf neg m e % fxOne = 0
    let r := if !exact && sfuWithin fn m e v free then free else (roundTo fp32 (envRne true) v.1 v.2.1 v.2.2.1 v.2.2.2).1
    if ftz && isSubnormal fp32 r then (r / 2 ^ 31 * 2 ^ 31, fUF ||| fNX) else (r, 0)

/-- R294, Table 13-12: function `fn` on the FP32 code `c`. -/
def sfuFn (fn : Nat) (ftz : Bool) (c : Nat) : Nat × BitVec 8 :=
  let nan := nanRes fp32 true
  let one := 0x3F80_0000
  match unpack fp32 ftz c with
  | .nan s => nanRes fp32 s
  | .inf n =>
    match fn with
    | 0 => (fp32.withSign n 0, 0)
    | 1 | 3 => if n then nan else ((if fn = 1 then 0 else fp32.infCode), 0)
    | 2 => ((if n then 0 else fp32.infCode), 0)
    | 4 | 5 => nan
    | 6 => (fp32.withSign n one, 0)
    | _ => ((if n then 0 else one), 0)
  | .num n m e =>
    if m = 0 then
      match fn with
      | 0 | 1 => (fp32.withSign n fp32.infCode, fDZ)
      | 3 => (fp32.withSign true fp32.infCode, fDZ)
      | 4 | 6 => (fp32.withSign n 0, 0)
      -- a subnormal read as zero is that zero (R36)
      | _ => sfuFinite fn ftz (fp32.withSign n 0) n 0 0
    else if (fn = 1 ∨ fn = 3) ∧ n then nan
    else if fn = 2 ∧ !n ∧ (scaled m 1 e 7).2 ≤ (scaled m 1 e 7).1 then (fp32.infCode, fOF ||| fNX)
    else if fn = 2 ∧ n ∧ (scaled m 1 e 9).2 ≤ (scaled m 1 e 9).1 then
      -- within 2 ulp of a value below the smallest subnormal: 0, or one of the first two subnormals
      let r := if Config.sfu fn c % 2 ^ 32 ≤ 2 then Config.sfu fn c % 2 ^ 32 else 0
      if ftz && isSubnormal fp32 r then (0, fUF ||| fNX) else (r, 0)
    else sfuFinite fn ftz c n m e

/-- Occupancy and result times of an SFU function (Table 13-13). -/
def sfuTimes (fn : Nat) : Nat × Nat := if fn < 4 then (4, 16) else (8, 24)

end Sys2Proof.Machine
end

