-- ==== Sys2Proof/Machine/VectorInt.lean ====
section
/-! DEFINITION. Majors 0x10 to 0x15: vector integer work (spec/13_isa_vector.md R273 to R285). -/

namespace Sys2Proof

/-- Element bits of a reduction type. -/
def RedTy.bits : RedTy → Nat | .i32 | .f32 => 32 | .i64 | .f64 => 64
def FTy.bits : FTy → Nat | .f32 => 32 | .f64 => 64
def FTy.fmt : FTy → Machine.Fmt | .f32 => Machine.fp32 | .f64 => Machine.fp64
/-- The floating-point format of a reduction type, where it is one. -/
def RedTy.fmt : RedTy → Option Machine.Fmt | .f32 => some Machine.fp32 | .f64 => some Machine.fp64 | _ => none

/-- Source and destination bits of `vsat` (Table 13-7). -/
def SatSel.src : SatSel → Nat | .h8 => 16 | .w8 | .w16 => 32 | .d32 => 64
def SatSel.dst : SatSel → Nat | .h8 | .w8 => 8 | .w16 => 16 | .d32 => 32

end Sys2Proof

namespace Sys2Proof.Machine

/-- An integer value without flags. -/
def pure1 (f : Nat → Nat) : Nat → Nat × BitVec 8 := fun x => (f x, 0)
def pure2 (f : Nat → Nat → Nat) : Nat → Nat → Nat × BitVec 8 := fun x y => (f x y, 0)

/-- Element-wise integer work over one and two sources, flags none. -/
def vint1 (w : Nat) (d a : VFld) (g : MReg) (s : State) (f : Nat → Nat) : Host.Outcome State Fault Refusal :=
  run s (vmap1 w d a g s (pure1 f))
def vint2 (w : Nat) (d a b : VFld) (g : MReg) (s : State) (f : Nat → Nat → Nat) : Host.Outcome State Fault Refusal :=
  run s (vmap2 w d a b g s (pure2 f))

/-! ## Major 0x10 (Table 13-2) -/

def execVadd (w : Width) (d a b : VFld) (g : MReg) (s : State) : Host.Outcome State Fault Refusal :=
  vint2 w.bits d a b g s fun x y => x + y

def execVsub (w : Width) (d a b : VFld) (g : MReg) (s : State) : Host.Outcome State Fault Refusal :=
  vint2 w.bits d a b g s fun x y => x + 2 ^ w.bits - y

def execVmul (w : Width) (d a b : VFld) (g : MReg) (s : State) : Host.Outcome State Fault Refusal :=
  vint2 w.bits d a b g s fun x y => x * y

def execVmulh (w : Width) (d a b : VFld) (g : MReg) (s : State) : Host.Outcome State Fault Refusal :=
  vint2 w.bits d a b g s fun x y => wrapN w.bits (sgnN w.bits x * sgnN w.bits y / (2 ^ w.bits : Nat))

def execVmulhu (w : Width) (d a b : VFld) (g : MReg) (s : State) : Host.Outcome State Fault Refusal :=
  vint2 w.bits d a b g s fun x y => x * y / 2 ^ w.bits

/-- `vmad` reads its destination (R275). -/
def execVmad (w : Width) (d : VReg) (a b : VFld) (g : MReg) (s : State) : Host.Outcome State Fault Refusal :=
  run s (vmap3 w.bits d a b g s fun x y z => (z + x * y, 0))

def execVmin (w : Width) (d a b : VFld) (g : MReg) (s : State) : Host.Outcome State Fault Refusal :=
  vint2 w.bits d a b g s fun x y => if sgnN w.bits y < sgnN w.bits x then y else x

def execVmax (w : Width) (d a b : VFld) (g : MReg) (s : State) : Host.Outcome State Fault Refusal :=
  vint2 w.bits d a b g s fun x y => if sgnN w.bits x < sgnN w.bits y then y else x

def execVminu (w : Width) (d a b : VFld) (g : MReg) (s : State) : Host.Outcome State Fault Refusal :=
  vint2 w.bits d a b g s fun x y => min x y

def execVmaxu (w : Width) (d a b : VFld) (g : MReg) (s : State) : Host.Outcome State Fault Refusal :=
  vint2 w.bits d a b g s fun x y => max x y

/-- −2^(w−1) gives itself (R275). -/
def execVabs (w : Width) (d a : VFld) (g : MReg) (s : State) : Host.Outcome State Fault Refusal :=
  vint1 w.bits d a g s fun x => (sgnN w.bits x).natAbs

/-! ## Major 0x11 (Table 13-3) -/

/-- Shifts of one element of width `w` (R276). -/
def shlE (w x n : Nat) : Nat := x * 2 ^ n % 2 ^ w
def shrE (_w x n : Nat) : Nat := x / 2 ^ n
def sraE (w x n : Nat) : Nat := wrapN w (sgnN w x / (2 ^ n : Nat))

def execVshl (w : Width) (d a b : VFld) (g : MReg) (s : State) : Host.Outcome State Fault Refusal :=
  vint2 w.bits d a b g s fun x y => shlE w.bits x (y % w.bits)

def execVshr (w : Width) (d a b : VFld) (g : MReg) (s : State) : Host.Outcome State Fault Refusal :=
  vint2 w.bits d a b g s fun x y => shrE w.bits x (y % w.bits)

def execVsra (w : Width) (d a b : VFld) (g : MReg) (s : State) : Host.Outcome State Fault Refusal :=
  vint2 w.bits d a b g s fun x y => sraE w.bits x (y % w.bits)

def execVshlImm (w : Width) (d a : VFld) (sh : Fin 32) (g : MReg) (s : State) : Host.Outcome State Fault Refusal :=
  vint1 w.bits d a g s fun x => shlE w.bits x sh.val

def execVshrImm (w : Width) (d a : VFld) (sh : Fin 32) (g : MReg) (s : State) : Host.Outcome State Fault Refusal :=
  vint1 w.bits d a g s fun x => shrE w.bits x sh.val

def execVsraImm (w : Width) (d a : VFld) (sh : Fin 32) (g : MReg) (s : State) : Host.Outcome State Fault Refusal :=
  vint1 w.bits d a g s fun x => sraE w.bits x sh.val

def execVshlImmHi (d a : VFld) (sh : Fin 32) (g : MReg) (s : State) : Host.Outcome State Fault Refusal :=
  vint1 64 d a g s fun x => shlE 64 x (sh.val + 32)

def execVshrImmHi (d a : VFld) (sh : Fin 32) (g : MReg) (s : State) : Host.Outcome State Fault Refusal :=
  vint1 64 d a g s fun x => shrE 64 x (sh.val + 32)

def execVsraImmHi (d a : VFld) (sh : Fin 32) (g : MReg) (s : State) : Host.Outcome State Fault Refusal :=
  vint1 64 d a g s fun x => sraE 64 x (sh.val + 32)

def execVaddi (w : Width) (d a : VFld) (imm : BitVec 5) (g : MReg) (s : State) : Host.Outcome State Fault Refusal :=
  vint1 w.bits d a g s fun x => x + wrapN w.bits imm.toInt

def execVli (w : Width) (d : VFld) (imm : BitVec 5) (g : MReg) (s : State) : Host.Outcome State Fault Refusal :=
  run s (do
    checkBound s [] (some d)
    checkReady s [] (some d)
    .ok (putVec s d (merge w.bits (s.rm g) (oldOf s d) fun _ => wrapN w.bits imm.toInt)))

/-! ## Major 0x12 (Table 13-4) -/

def execVand (d a b : VFld) (g : MReg) (s : State) : Host.Outcome State Fault Refusal :=
  vint2 32 d a b g s fun x y => x &&& y

def execVor (d a b : VFld) (g : MReg) (s : State) : Host.Outcome State Fault Refusal :=
  vint2 32 d a b g s fun x y => x ||| y

def execVxor (d a b : VFld) (g : MReg) (s : State) : Host.Outcome State Fault Refusal :=
  vint2 32 d a b g s fun x y => x ^^^ y

def execVandn (d a b : VFld) (g : MReg) (s : State) : Host.Outcome State Fault Refusal :=
  vint2 32 d a b g s fun x y => x &&& (y ^^^ (2 ^ 32 - 1))

def execMand (d a b : MReg) (s : State) : Host.Outcome State Fault Refusal :=
  maskOp d 0 s (s.rm a &&& s.rm b)

def execMor (d a b : MReg) (s : State) : Host.Outcome State Fault Refusal :=
  maskOp d 0 s (s.rm a ||| s.rm b)

def execMxor (d a b : MReg) (s : State) : Host.Outcome State Fault Refusal :=
  maskOp d 0 s (s.rm a ^^^ s.rm b)

def execMnot (d a : MReg) (s : State) : Host.Outcome State Fault Refusal :=
  maskOp d 0 s (~~~(s.rm a))

def execMpop (d : SReg) (a : MReg) (s : State) : Host.Outcome State Fault Refusal :=
  scalarOp d 0 s (BitVec.ofNat 64 (popcFrom (s.rm a).toNat 16))

def execMfirst (d : SReg) (a : MReg) (s : State) : Host.Outcome State Fault Refusal :=
  scalarOp d 0 s (BitVec.ofNat 64 (ctzFrom (s.rm a).toNat 16))

/-! ## Major 0x13 (R279) -/

/-- The conditions of Table 12-11 on elements of width `w`. -/
def condE (c : Cond) (w x y : Nat) : Bool :=
  match c with
  | .eq => x == y | .ne => x != y | .lt => sgnN w x < sgnN w y | .ge => sgnN w y ≤ sgnN w x
  | .ltu => x < y | .geu => y ≤ x

def execVcmp (c : Cond) (w : WW) (d : MReg) (a b : VFld) (g : MReg) (s : State) : Host.Outcome State Fault Refusal :=
  run s (vcmp2 w.bits d a b g s fun x y => (condE c w.bits x y, 0))

/-! ## Major 0x14, cross-lane (R280 to R283) -/

/-- The active elements of width `w`. -/
def actives (w : Nat) (m : Mask) : List Nat := (List.range (count w)).filter (active w m)

/-- A cross-lane value: an element read, or zero where it is inactive (R280, `.z`). -/
def readLane (w : Nat) (m : Mask) (x : Vec) (j : Nat) : Nat := if active w m j then elem x w j else 0

/-- A cross-lane move: each active destination element `i` reads element `j i` of the concatenation of the sources,
whose governing position is `j i mod n` (R280, R281). -/
def crossLane (w : Nat) (z : Bool) (m : Mask) (old x y : Vec) (j : Nat → Nat) : M Vec := do
  laneCheck w z m ((actives w m).map fun i => j i % count w)
  .ok (merge w m old fun i =>
    let k := j i
    if active w m (k % count w) then (if k < count w then elem x w k else elem y w (k - count w)) else 0)

def execVperm (w : Width) (z : Bool) (d a b : VFld) (g : MReg) (s : State) : Host.Outcome State Fault Refusal :=
  run s (do
    let (x, y, s) ← sources2 s a b (some d)
    let r ← crossLane w.bits z (s.rm g) (oldOf s d) x x fun i => elem y w.bits i % count w.bits
    .ok (putVec s d r))

/-- `vshuf` takes its indices from its destination (R281). -/
def execVshuf (w : Width) (z : Bool) (d : VReg) (a b : VFld) (g : MReg) (s : State) : Host.Outcome State Fault Refusal :=
  run s (do
    let (x, y, s) ← sources2 s a b none
    let o := s.rv d.val
    let r ← crossLane w.bits z (s.rm g) o x y fun i => elem o w.bits i % (2 * count w.bits)
    .ok (s.wv d.val r))

def execVrot (w : Width) (z : Bool) (d a : VFld) (b : SReg) (g : MReg) (s : State) : Host.Outcome State Fault Refusal :=
  run s (do
    let (x, s) ← sources1 s a (some d)
    let n := count w.bits
    let r ← crossLane w.bits z (s.rm g) (oldOf s d) x x fun i => (i + n - (s.rs b).toNat % n) % n
    .ok (putVec s d r))

/-- R282. -/
def execVcompress (w : Width) (d a : VFld) (b : MReg) (g : MReg) (s : State) : Host.Outcome State Fault Refusal :=
  run s (do
    let (x, s) ← sources1 s a (some d)
    let sel := (List.range (count w.bits)).filter (active w.bits (s.rm b))
    .ok (putVec s d (merge w.bits (s.rm g) (oldOf s d) fun k =>
      match sel[k]? with | some j => elem x w.bits j | none => 0)))

/-- R282. -/
def execVexpand (w : Width) (d a : VFld) (b : MReg) (g : MReg) (s : State) : Host.Outcome State Fault Refusal :=
  run s (do
    let (x, s) ← sources1 s a (some d)
    .ok (putVec s d (merge w.bits (s.rm g) (oldOf s d) fun i =>
      if active w.bits (s.rm b) i then
        elem x w.bits ((List.range i).filter (active w.bits (s.rm b))).length
      else 0)))

/-- One floating-point sum of two codes under FPCTL. -/
def faddCode (F : Fmt) (v : Env) (x y : Nat) : Nat × BitVec 8 := addRound F v [unpack F v.ftz x, unpack F v.ftz y]

/-- One level of the fixed pairwise tree of R51: pairs (0,1), (2,3), …. -/
def pairUp (f : Nat → Nat → Nat × BitVec 8) : List Nat → List Nat × BitVec 8
  | x :: y :: r => let p := f x y; let q := pairUp f r; (p.1 :: q.1, p.2 ||| q.2)
  | l => (l, 0)

/-- The tree over a power of two of elements, in `fuel` levels. -/
def tree (f : Nat → Nat → Nat × BitVec 8) : Nat → List Nat → Nat × BitVec 8
  | 0, l => (l.headD 0, 0)
  | fuel + 1, l => let p := pairUp f l; let q := tree f fuel p.1; (q.1, p.2 ||| q.2)

/-- A reduction of all elements of the source to a scalar (R283): LANE, or +0 under `.z`, for inactive ones. -/
def reduceOp (w : Nat) (z : Bool) (d : SReg) (a : VFld) (g : MReg) (s : State)
    (f : List Nat → Word × BitVec 8) : Host.Outcome State Fault Refusal :=
  run s (do
    let (x, s) ← sources1 s a none
    let m := s.rm g
    laneCheck w z m (List.range (count w))
    let r := f ((List.range (count w)).map (readLane w m x))
    .ok ((s.ws d r.1).raise r.2))

/-- An integer fold of a nonempty list. -/
def foldE (f : Nat → Nat → Nat) (l : List Nat) : Nat := match l with | [] => 0 | x :: r => r.foldl f x

/-- The environment of the running thread. -/
def State.env (s : State) : Env := envOf s.me.fpctl

/-- A floating-point tree of a reduction type's elements. -/
def redTree (F : Fmt) (f : Nat → Nat → Nat × BitVec 8) (l : List Nat) : Word × BitVec 8 :=
  let r := tree f (if F.bits = 32 then 4 else 3) l
  (BitVec.ofNat 64 r.1, r.2)

def execVredAdd (t : RedTy) (z : Bool) (d : SReg) (a : VFld) (g : MReg) (s : State) : Host.Outcome State Fault Refusal :=
  reduceOp t.bits z d a g s fun l =>
    match t.fmt with
    | some F => redTree F (faddCode F s.env) l
    | none => (sext64 t.bits (foldE (· + ·) l), 0)

def execVredMin (t : RedTy) (z : Bool) (d : SReg) (a : VFld) (g : MReg) (s : State) : Host.Outcome State Fault Refusal :=
  reduceOp t.bits z d a g s fun l =>
    match t.fmt with
    | some F => redTree F (minmaxF F s.env.ftz false) l
    | none => (sext64 t.bits (foldE (fun x y => if sgnN t.bits y < sgnN t.bits x then y else x) l), 0)

def execVredMax (t : RedTy) (z : Bool) (d : SReg) (a : VFld) (g : MReg) (s : State) : Host.Outcome State Fault Refusal :=
  reduceOp t.bits z d a g s fun l =>
    match t.fmt with
    | some F => redTree F (minmaxF F s.env.ftz true) l
    | none => (sext64 t.bits (foldE (fun x y => if sgnN t.bits x < sgnN t.bits y then y else x) l), 0)

/-- The result of a `minu` is zero-extended: R283 sign-extends for add, min and max only (log entry 5). -/
def execVredMinu (t : WW) (z : Bool) (d : SReg) (a : VFld) (g : MReg) (s : State) : Host.Outcome State Fault Refusal :=
  reduceOp t.bits z d a g s fun l => (zext64 t.bits (foldE min l), 0)

/-- As `vred.minu` (log entry 5). -/
def execVredMaxu (t : WW) (z : Bool) (d : SReg) (a : VFld) (g : MReg) (s : State) : Host.Outcome State Fault Refusal :=
  reduceOp t.bits z d a g s fun l => (zext64 t.bits (foldE max l), 0)

def execVredAnd (t : WW) (z : Bool) (d : SReg) (a : VFld) (g : MReg) (s : State) : Host.Outcome State Fault Refusal :=
  reduceOp t.bits z d a g s fun l => (zext64 t.bits (foldE (· &&& ·) l), 0)

def execVredOr (t : WW) (z : Bool) (d : SReg) (a : VFld) (g : MReg) (s : State) : Host.Outcome State Fault Refusal :=
  reduceOp t.bits z d a g s fun l => (zext64 t.bits (foldE (· ||| ·) l), 0)

def execVredXor (t : WW) (z : Bool) (d : SReg) (a : VFld) (g : MReg) (s : State) : Host.Outcome State Fault Refusal :=
  reduceOp t.bits z d a g s fun l => (zext64 t.bits (foldE (· ^^^ ·) l), 0)

/-- The running results of a sequential scan (R51): lane 0 unchanged, then each with the one before it. -/
def scanE (f : Nat → Nat → Nat × BitVec 8) (acc : Nat) : List Nat → List (Nat × BitVec 8)
  | [] => []
  | x :: r => let p := f acc x; p :: scanE f p.1 r

def scanList (f : Nat → Nat → Nat × BitVec 8) : List Nat → List (Nat × BitVec 8)
  | [] => []
  | x :: r => (x, 0) :: scanE f x r

/-- R283: sequential for floating point, wrapping for integers; sources up to the highest active element are read. -/
def execVscanAdd (t : RedTy) (z : Bool) (d a : VFld) (g : MReg) (s : State) : Host.Outcome State Fault Refusal :=
  run s (do
    let (x, s) ← sources1 s a (some d)
    let w := t.bits
    let m := s.rm g
    let n := match (actives w m).getLast? with | some i => i + 1 | none => 0
    laneCheck w z m (List.range n)
    let add : Nat → Nat → Nat × BitVec 8 :=
      match t.fmt with
      | some F => faddCode F s.env
      | none => fun p q => ((p + q) % 2 ^ w, 0)
    let r := scanList add ((List.range n).map (readLane w m x))
    let s := putVec s d (merge w m (oldOf s d) fun i => (r.getD i (0, 0)).1)
    .ok (s.raise (orFlags n fun i => (r.getD i (0, 0)).2)))

/-! ## Major 0x15 (R284, R285) -/

/-- An element read as signed and clamped to `n` bits, cut to `w` bits; ACCSAT where it clamps. -/
def clampE (signed : Bool) (src n w x : Nat) : Nat × BitVec 8 :=
  let k := clampI (intRange signed n).1 (intRange signed n).2 (sgnN src x)
  (wrapN w k.1, flagIf k.2 fACCSAT)

def execVsatSigned (x : SatSel) (d a : VFld) (g : MReg) (s : State) : Host.Outcome State Fault Refusal :=
  run s (vmap1 x.src d a g s (clampE true x.src x.dst x.src))

def execVsatUnsigned (x : SatSel) (d a : VFld) (g : MReg) (s : State) : Host.Outcome State Fault Refusal :=
  run s (vmap1 x.src d a g s (clampE false x.src x.dst x.src))

/-- `vpack`: destination elements of half the width, the first half from a, the second from b (R284). -/
def packOp (signed : Bool) (w : Nat) (d a b : VFld) (g : MReg) (s : State) : Host.Outcome State Fault Refusal :=
  run s (do
    let (x, y, s) ← sources2 s a b (some d)
    let h := w / 2
    let n := count w
    let m := s.rm g
    let r (i : Nat) := clampE signed w h h (if i < n then elem x w i else elem y w (i - n))
    let s := putVec s d (merge h m (oldOf s d) fun i => (r i).1)
    .ok (s.raise (orFlags (2 * n) fun i => if active h m i then (r i).2 else 0)))

/-- `vunpack`: source elements of width `w` from `first` on, at twice the width (R284). -/
def unpackOp (signed : Bool) (w first : Nat) (d a : VFld) (g : MReg) (s : State) : Host.Outcome State Fault Refusal :=
  run s (do
    let (x, s) ← sources1 s a (some d)
    .ok (putVec s d (merge (2 * w) (s.rm g) (oldOf s d) fun i =>
      let y := elem x w (first + i)
      if signed then wrapN (2 * w) (sgnN w y) else y)))

def execVpackI (x : PW) (d a b : VFld) (g : MReg) (s : State) : Host.Outcome State Fault Refusal :=
  packOp true x.bits d a b g s

def execVpackU (x : PW) (d a b : VFld) (g : MReg) (s : State) : Host.Outcome State Fault Refusal :=
  packOp false x.bits d a b g s

def execVunpackLoI (x : NW) (d a : VFld) (g : MReg) (s : State) : Host.Outcome State Fault Refusal :=
  unpackOp true x.bits 0 d a g s

def execVunpackHiI (x : NW) (d a : VFld) (g : MReg) (s : State) : Host.Outcome State Fault Refusal :=
  unpackOp true x.bits (count (2 * x.bits)) d a g s

def execVunpackLoU (x : NW) (d a : VFld) (g : MReg) (s : State) : Host.Outcome State Fault Refusal :=
  unpackOp false x.bits 0 d a g s

def execVunpackHiU (x : NW) (d a : VFld) (g : MReg) (s : State) : Host.Outcome State Fault Refusal :=
  unpackOp false x.bits (count (2 * x.bits)) d a g s

/-- A byte as signed or unsigned. -/
def byteVal (unsigned : Bool) (x : Nat) : Int := if unsigned then ((x % 256 : Nat) : Int) else sgnN 8 x

/-- The exact sum of four byte products of two lanes (R285). -/
def dot4 (ua ub : Bool) (x y : Nat) : Int :=
  (List.range 4).foldl (fun a j => a + byteVal ua (x / 256 ^ j) * byteVal ub (y / 256 ^ j)) 0

def execVdot4 (ua ub : Bool) (d : VReg) (a b : VFld) (g : MReg) (s : State) : Host.Outcome State Fault Refusal :=
  run s (vmap3 32 d a b g s fun x y z => (wrapN 32 (z + dot4 ua ub x y), 0))

def execVdot4Sat (ua ub : Bool) (d : VReg) (a b : VFld) (g : MReg) (s : State) : Host.Outcome State Fault Refusal :=
  run s (vmap3 32 d a b g s fun x y z =>
    let r := satAdd32 (sgnN 32 z) (dot4 ua ub x y)
    (wrapN 32 r.1, r.2))

end Sys2Proof.Machine
end

