-- ==== Sys2Proof/Machine/VectorFp.lean ====
section
/-! DEFINITION. Majors 0x16 to 0x19: vector floating point, conversion, and the special functions
(spec/13_isa_vector.md R286 to R295), with the quad's SFU queue (R96, R97). -/

namespace Sys2Proof

/-- The format of `vfcls` and `vfround` (codes 8 to 11). -/
def FFmt.fmt : FFmt → Machine.Fmt
  | .f16 => Machine.fp16 | .bf16 => Machine.bf16 | .f32 => Machine.fp32 | .f64 => Machine.fp64

end Sys2Proof

namespace Sys2Proof.Machine

/-! ## Major 0x16 (R286 to R288) -/

/-- A binary operation on two data of a format, both read after FTZ. -/
def fop2 (F : Fmt) (v : Env) (f : X → X → Nat × BitVec 8) (x y : Nat) : Nat × BitVec 8 :=
  f (unpack F v.ftz x) (unpack F v.ftz y)

def execVfadd (t : FTy) (d a b : VFld) (g : MReg) (s : State) : Host.Outcome State Fault Refusal :=
  run s (vmap2 t.bits d a b g s (fop2 t.fmt s.env fun x y => addRound t.fmt s.env [x, y]))

def execVfsub (t : FTy) (d a b : VFld) (g : MReg) (s : State) : Host.Outcome State Fault Refusal :=
  run s (vmap2 t.bits d a b g s (fop2 t.fmt s.env fun x y => addRound t.fmt s.env [x, y.neg]))

def execVfmul (t : FTy) (d a b : VFld) (g : MReg) (s : State) : Host.Outcome State Fault Refusal :=
  run s (vmap2 t.bits d a b g s (fop2 t.fmt s.env fun x y => mulRound t.fmt s.env x y))

def execVfdiv (t : FTy) (d a b : VFld) (g : MReg) (s : State) : Host.Outcome State Fault Refusal :=
  run s (vmap2 t.bits d a b g s (fop2 t.fmt s.env fun x y => divRound t.fmt s.env x y))

def execVfsqrt (t : FTy) (d a : VFld) (g : MReg) (s : State) : Host.Outcome State Fault Refusal :=
  run s (vmap1 t.bits d a g s fun x => sqrtRound t.fmt s.env (unpack t.fmt s.env.ftz x))

def execVfmin (t : FTy) (d a b : VFld) (g : MReg) (s : State) : Host.Outcome State Fault Refusal :=
  run s (vmap2 t.bits d a b g s (minmaxF t.fmt s.env.ftz false))

def execVfmax (t : FTy) (d a b : VFld) (g : MReg) (s : State) : Host.Outcome State Fault Refusal :=
  run s (vmap2 t.bits d a b g s (minmaxF t.fmt s.env.ftz true))

def execVfabs (t : FTy) (d a : VFld) (g : MReg) (s : State) : Host.Outcome State Fault Refusal :=
  run s (vmap1 t.bits d a g s (absF t.fmt s.env.ftz))

def execVfneg (t : FTy) (d a : VFld) (g : MReg) (s : State) : Host.Outcome State Fault Refusal :=
  run s (vmap1 t.bits d a g s (negF t.fmt s.env.ftz))

def execVfcmp (c : FCond) (t : FTy) (d : MReg) (a b : VFld) (g : MReg) (s : State) :
    Host.Outcome State Fault Refusal :=
  run s (vcmp2 t.bits d a b g s fun x y => fcmp c (unpack t.fmt s.env.ftz x) (unpack t.fmt s.env.ftz y))

/-! ## Major 0x17 (R289, R290) -/

/-- The FMA family: the signs of the product and of z (R289). -/
def fmaOp (negP negZ : Bool) (t : FTy) (d : VReg) (a b : VFld) (g : MReg) (s : State) :
    Host.Outcome State Fault Refusal :=
  run s (vmap3 t.bits d a b g s fun x y z =>
    let x := unpack t.fmt s.env.ftz x
    let y := unpack t.fmt s.env.ftz y
    let z := unpack t.fmt s.env.ftz z
    fmaRound t.fmt s.env (if negP then x.neg else x) y (if negZ then z.neg else z))

def execVfma (t : FTy) (d : VReg) (a b : VFld) (g : MReg) (s : State) : Host.Outcome State Fault Refusal :=
  fmaOp false false t d a b g s

def execVfms (t : FTy) (d : VReg) (a b : VFld) (g : MReg) (s : State) : Host.Outcome State Fault Refusal :=
  fmaOp false true t d a b g s

def execVfnma (t : FTy) (d : VReg) (a b : VFld) (g : MReg) (s : State) : Host.Outcome State Fault Refusal :=
  fmaOp true true t d a b g s

def execVfnms (t : FTy) (d : VReg) (a b : VFld) (g : MReg) (s : State) : Host.Outcome State Fault Refusal :=
  fmaOp true false t d a b g s

/-- R290: two exact products and an addend, rounded once; zero times infinity in either product is invalid. -/
def dot2Round (v : Env) (a0 b0 a1 b1 z : X) : Nat × BitVec 8 :=
  let xs := [a0, b0, a1, b1, z]
  if xs.any X.isSnan then nanRes fp32 true
  else
    let bad (x y : X) : Bool := !x.isNan && !y.isNan && (mulX x y).isNone
    if bad a0 b0 || bad a1 b1 then nanRes fp32 true
    else if xs.any X.isNan then nanRes fp32 false
    else addRound fp32 v [(mulX a0 b0).getD (.nan false), (mulX a1 b1).getD (.nan false), z]

def execVfdot2 (d : VReg) (a b : VFld) (g : MReg) (s : State) : Host.Outcome State Fault Refusal :=
  run s (vmap3 32 d a b g s fun x y z =>
    let v := s.env
    let h (p : Nat) := unpack bf16 v.ftz p
    dot2Round v (h (x % 2 ^ 16)) (h (y % 2 ^ 16)) (h (x / 2 ^ 16)) (h (y / 2 ^ 16)) (unpack fp32 v.ftz z))

/-! ## Major 0x18 (R291 to R293) -/

/-- The code of a `vfcvt` format (Table 1-10). -/
def cvtCode : CvFmt → Nat
  | .i8 => 1 | .u8 => 2 | .i16 => 3 | .i32 => 4 | .i64 => 5 | .fp8a => 6 | .fp8b => 7 | .f16 => 8 | .bf16 => 9
  | .f32 => 10 | .f64 => 11

def execVfcvt (q : Fin 4) (dest frm : CvFmt) (d a : VFld) (g : MReg) (s : State) :
    Host.Outcome State Fault Refusal :=
  run s (do
    let (x, s) ← sources1 s a (some d)
    let ws := frm.bits
    let wt := dest.bits
    let n := 512 / max ws wt
    let m := s.rm g
    let part := q.val * n
    let wide := ws ≤ wt
    let r (i : Nat) := convert s.env (cvtCode frm) (cvtCode dest) (elem x ws i)
    let old := oldOf s d
    let hit (e : Nat) : Bool := if wide then active wt m e else part ≤ e && e < part + n && active wt m e
    let at' (e : Nat) := r (if wide then e + part else e - part)
    let s := putVec s d (mkVec wt fun e => if hit e then (at' e).1 else elem old wt e)
    .ok (s.raise (orFlags (count wt) fun e => if hit e then (at' e).2 else 0)))

/-- R292: FTZ is ignored and no flag is raised. -/
def execVfcls (f : FFmt) (d a : VFld) (g : MReg) (s : State) : Host.Outcome State Fault Refusal :=
  run s (vmap1 f.fmt.bits d a g s fun x => (classOf f.fmt x, 0))

/-- The mode of `vfround` (R293). -/
def rndMode (m : RndSel) (v : Env) : Env :=
  match m with
  | .fpctl => v
  | .rtz => { v with rm := .rtz }
  | .rup => { v with rm := .rup }
  | .rdn => { v with rm := .rdn }

def execVfround (m : RndSel) (f : FFmt) (d a : VFld) (g : MReg) (s : State) : Host.Outcome State Fault Refusal :=
  run s (vmap1 f.fmt.bits d a g s (roundIntegral f.fmt (rndMode m s.env)))

/-! ## The SFU queue (R96, R97, R295) -/

/-- The allowance of a push taken now, for a message that leaves later. -/
def takeCredit (s : State) (d : VFld) : Option Nat × State :=
  match writeEnd s s.cur (d.val - 24) with
  | none => (none, s)
  | some n =>
    (some n,
      if n = inboxChan then s.updMyCore fun c => { c with spill := c.spill - 1, inboxDue := c.inboxDue + 1 }
      else s.updLaunch (lidOf s (tileOf s.cur)) fun l =>
        { l with chans := l.chans.mapIdx fun i c => if i = n then { c with credits := c.credits - 1 } else c })

/-- A request joins its quad's queue at issue, and its thread waits for the result (R96), after the load of its pair
where there is one. -/
def sfuJoin (s : State) (writes : List (Nat × Vec)) (push : Option (Nat × Vec)) (flags : BitVec 8)
    (times : Nat × Nat) : State :=
  (s.updQuad (quadOf (tileOf s.cur)) fun q =>
    { q with queue := q.queue ++ [⟨s.cur, writes, push, flags, times.1, times.2⟩] }).updMe
      fun t => { t with wait := match t.wait with | some (.load r) => some (.load r) | some .reservation => some .reservation | _ => some .sfu }

/-- A request of one destination, a register or a channel. -/
def sfuIssue (s : State) (d : VFld) (x : Vec) (flags : BitVec 8) (times : Nat × Nat) : State :=
  if isChan d then
    let (n, s) := takeCredit s d
    sfuJoin s [] (n.map fun n => (n, x)) flags times
  else sfuJoin s [(d.val, x)] none flags times

/-! ## Major 0x19 (R294, R295) -/

/-- An SFU function of each active lane, computed from the sources as they stand at issue. -/
def sfuOp (fn : Nat) (d a : VFld) (g : MReg) (s : State) : Host.Outcome State Fault Refusal :=
  run s (do
    let (x, s) ← sources1 s a (some d)
    let m := s.rm g
    let r (i : Nat) := sfuFn fn s.env.ftz (elem x 32 i)
    let y := merge 32 m (oldOf s d) fun i => (r i).1
    .ok (sfuIssue s d y (orFlags 16 fun i => if active 32 m i then (r i).2 else 0) (sfuTimes fn)))

def execVrcp (d a : VFld) (g : MReg) (s : State) : Host.Outcome State Fault Refusal := sfuOp 0 d a g s
def execVrsq (d a : VFld) (g : MReg) (s : State) : Host.Outcome State Fault Refusal := sfuOp 1 d a g s
def execVexp2 (d a : VFld) (g : MReg) (s : State) : Host.Outcome State Fault Refusal := sfuOp 2 d a g s
def execVlog2 (d a : VFld) (g : MReg) (s : State) : Host.Outcome State Fault Refusal := sfuOp 3 d a g s
def execVsin (d a : VFld) (g : MReg) (s : State) : Host.Outcome State Fault Refusal := sfuOp 4 d a g s
def execVcos (d a : VFld) (g : MReg) (s : State) : Host.Outcome State Fault Refusal := sfuOp 5 d a g s
def execVtanh (d a : VFld) (g : MReg) (s : State) : Host.Outcome State Fault Refusal := sfuOp 6 d a g s
def execVsig (d a : VFld) (g : MReg) (s : State) : Host.Outcome State Fault Refusal := sfuOp 7 d a g s

end Sys2Proof.Machine
end

