-- ==== Sys2Proof/Machine/Blocks.lean ====
section
/-! DEFINITION. Major 0x1B: scaled blocks (spec/14_isa_exact_blocks.md R303 to R308). FPCTL is ignored: RNE with
subnormals honoured (R31). -/

namespace Sys2Proof.Machine

/-- Element bits of a block format (Table 14-4). -/
def blockBits (c : BFmt) : Nat := codeBits c.fmtCode

/-- The scale of a register block. -/
def blockScale (x : Vec) : Nat := x.toNat / 2 ^ 496

/-- Element `i` of a register block. -/
def blockEl (c : BFmt) (x : Vec) (i : Nat) : Nat := elem x (blockBits c) i

/-- A register block from its scale and 16 elements, its unused bits 0 (R303). -/
def mkBlock (c : BFmt) (scale : Nat) (els : List Nat) : Vec :=
  BitVec.ofNat 512 (packN (blockBits c) (fun i => els.getD i 0) 16 + scale % 2 ^ 16 * 2 ^ 496)

/-- Any TERN element holding 0b10 (R40). -/
def ternBad (c : BFmt) (x : Vec) : BitVec 8 :=
  flagIf (c == .tern && (List.range 16).any fun i => blockEl c x i == 2) fTERNBAD

/-- Element × scale, exactly; a NaN where the scale does not conform (R44). -/
def blockVal (c : BFmt) (x : Vec) (i : Nat) : X :=
  if scaleOk (blockScale x) then
    match blockElem c.fmtCode (blockEl c x i), unpackRaw bf16 (blockScale x) with
    | .num n m e, .num _ k f => .num n (m * k) (e + f)
    | y, _ => y
  else .nan false

/-- An exact sum of two data, with the zero signs of R38 under RNE; used where the result is rounded later. -/
def addX (x y : X) : X :=
  if x.isNan || y.isNan then .nan (x.isSnan || y.isSnan)
  else if x.isInf && y.isInf then (if x.isNeg = y.isNeg then x else .nan false)
  else if x.isInf then x
  else if y.isInf then y
  else sumX .rne [x, y]

/-- R304. -/
def execBamax (d : SReg) (a : VFld) (g : MReg) (s : State) : Host.Outcome State Fault Refusal :=
  run s (do
    let (x, s) ← sources1 s a none
    let m := s.rm g
    let l := (actives 32 m).map fun i => elem x 32 i
    let ds := l.map (unpackRaw fp32)
    let r : Nat := if ds.any X.isNan then fp32.nanCode else l.foldl (fun p c => max p (c % 2 ^ 31)) 0
    .ok ((s.ws d (BitVec.ofNat 64 r)).raise (flagIf (ds.any X.isSnan) fNV)))

/-- R308: z + S × (sA × sB) rounded once; a scale that does not conform gives the canonical NaN with NV. -/
def scaleLane (term : X) (pair z : Nat) : Nat × BitVec 8 :=
  let sa := pair % 2 ^ 16
  let sb := pair / 2 ^ 16
  if scaleOk sa && scaleOk sb then
    match mulX (unpackRaw bf16 sa) (unpackRaw bf16 sb) with
    | some c => fmaRound fp32 (envRne true) term c (unpackRaw fp32 z)
    | none => nanRes fp32 true
  else nanRes fp32 true

def execBscaleF32 (d : VReg) (a b : VFld) (g : MReg) (s : State) : Host.Outcome State Fault Refusal :=
  run s (vmap3 32 d a b g s fun x y z => scaleLane (unpackRaw fp32 x) y z)

def execBscaleI32 (d : VReg) (a b : VFld) (g : MReg) (s : State) : Host.Outcome State Fault Refusal :=
  run s (vmap3 32 d a b g s fun x y z => scaleLane (.num (sgnN 32 x < 0) (sgnN 32 x).natAbs 0) y z)

/-- R306: the 16 FP32 lanes quantised by R305. -/
def execBquant (c : BFmt) (d a : VFld) (s : State) : Host.Outcome State Fault Refusal :=
  run s (do
    let (x, s) ← sources1 s a (some d)
    let r := quantRule c.fmtCode ((List.range 16).map fun i => unpackRaw fp32 (elem x 32 i))
    .ok ((putVec s d (mkBlock c r.1 r.2.1)).raise r.2.2))

/-- R307: element × scale rounded to FP32; a scale that does not conform poisons every active lane, NV once. -/
def deqLane (c : BFmt) (x : Vec) (i : Nat) : Nat × BitVec 8 :=
  let r := if scaleOk (blockScale x) then packX fp32 (envRne true) (blockVal c x i) else nanRes fp32 true
  (r.1, r.2 ||| flagIf (c == .tern && blockEl c x i == 2) fTERNBAD)

def execBdeq (c : BFmt) (d a : VFld) (g : MReg) (s : State) : Host.Outcome State Fault Refusal :=
  run s (do
    let (x, s) ← sources1 s a (some d)
    let m := s.rm g
    let s := putVec s d (merge 32 m (oldOf s d) fun i => (deqLane c x i).1)
    .ok (s.raise (orFlags 16 fun i => if active 32 m i then (deqLane c x i).2 else 0)))

/-- R306: the sum of two register blocks quantised by R305; the value gateway cores form too (R53). -/
def baddqVec (c : BFmt) (x y : Vec) : Vec × BitVec 8 :=
  let r := quantRule c.fmtCode ((List.range 16).map fun i => addX (blockVal c x i) (blockVal c y i))
  (mkBlock c r.1 r.2.1, r.2.2 ||| ternBad c x ||| ternBad c y)

def execBaddq (c : BFmt) (d a b : VFld) (s : State) : Host.Outcome State Fault Refusal :=
  run s (do
    let (x, y, s) ← sources2 s a b (some d)
    let r := baddqVec c x y
    .ok ((putVec s d r.1).raise r.2))

end Sys2Proof.Machine
end

