-- ==== Sys2Proof/Machine/Access.lean ====
section
/-! DEFINITION. What every access of a thread goes through: forming its addresses (R309), translation and its checks
(spec/07_isolation_space.md R146 to R153), the readiness rules of plain and relaxed accesses (R72 to R74), protected
pairs (R209, R210), and the request it puts in flight. -/

namespace Sys2Proof.Machine

/-! ## Physical addresses (Tables 1-8, R20 to R23, R188) -/

def pkgOf (pa : Nat) : Nat := pa / 2 ^ 44
def localOf (pa : Nat) : Nat := pa % 2 ^ 44
def isSram (pa : Nat) : Bool := localOf pa < 2 ^ 32
def isDrawer (pa : Nat) : Bool := 0x400_0000_0000 ≤ localOf pa && localOf pa ≤ 0x7FF_FFFF_FFFF
/-- The drawer window a local address lies in. -/
def windowOf (pa : Nat) : Nat := (localOf pa - 0x400_0000_0000) / 0x80_0000_0000

/-- R188: the home tile of a drawer address. -/
def drawerHome (pa : Nat) : Nat :=
  let t := bitsOf pa 18 9 ^^^ bitsOf pa 28 19 ^^^ bitsOf pa 38 29 ^^^ bitsOf pa 43 39
  bitsOf pa 8 7 * 1024 + t

/-- R23: the home tile of an address of this package; none for a peer address. -/
def homeTile (s : State) (pa : Nat) : Option Nat :=
  if pkgOf pa ≠ s.pkg then none
  else if isSram pa then some (localOf pa / 2 ^ 20)
  else some (drawerHome pa)

/-- R22: bytes of a die's slices that the carve takes. -/
def carveBytes (s : State) (die : Nat) : Nat := (s.die die).carve * 1024

/-- R22: an SRAM address lies in the carved part of its slice. -/
def carved (s : State) (pa : Nat) : Bool :=
  isSram pa && decide (2 ^ 20 - carveBytes s (localOf pa / 2 ^ 30) ≤ localOf pa % 2 ^ 20)

/-- R21: the port whose drawer holds an address; none for an absent window or a part beyond the installed capacity. -/
def windowPort (s : State) (pa : Nat) : Option Nat :=
  (s.ports.find? fun p => p.2.role == .drawer && p.2.window == some (windowOf pa) &&
    decide (localOf pa % 0x80_0000_0000 < p.2.bytes)).map (·.1)

/-- The leaf's PA causes of Table 7-4 in the order of R147: 8, then 3, then 7. -/
def paCause (s : State) (pa : Nat) : Option Nat :=
  if !s.pod.contains (pkgOf pa) then some 8
  else if !isSram pa && !isDrawer pa then some 3
  else if pkgOf pa = s.pkg ∧ isDrawer pa ∧ (windowPort s pa).isNone then some 3
  else if pkgOf pa = s.pkg ∧ carved s pa then some 7
  else none

/-! ## The page walk (R146, Table 7-3) -/

def pteKind (e : Nat) : Nat := bitsOf e 7 6
/-- Fields that must be zero in every entry. -/
def pteBad (e : Nat) : Bool := bitsOf e 54 52 != 0 || bitsOf e 11 9 != 0 || bitsOf e 5 3 != 0
/-- Fields that must be zero in an entry of KIND 1. -/
def pteNextBad (e : Nat) : Bool := bitsOf e 63 55 != 0 || bitOf e 8 || bitsOf e 2 0 != 0
def ptePa (e : Nat) : Nat := bitsOf e 51 12 * 4096

/-- The entry of a translation that a leaf at a level gives: 2 maps 1 GiB, 1 maps 2 MiB, 0 maps 4 KiB or 64 KiB. -/
def leafEntry (ctx va level e : Nat) : Except Nat TlbEntry :=
  let log := match level with | 2 => 30 | 1 => 21 | _ => if bitOf e 8 then 16 else 12
  if level = 3 ∨ (bitOf e 8 ∧ level ≠ 0) ∨ ptePa e % 2 ^ log ≠ 0 then .error 2
  else .ok {
    ctx := ctx
    vpn := va / 2 ^ log * 2 ^ (log - 12)
    log := log
    pa := ptePa e
    r := bitOf e 2
    w := bitOf e 1
    x := bitOf e 0
    gen := bitsOf e 63 56
    lap := bitOf e 55 }

/-- The walk from a table at a level, 3 for the root: a leaf, or a cause 1 or 2 of Table 7-4 at the first level where
it arises. -/
def walkFrom (mem : List Host.Cell) (ctx va : Nat) : Nat → Nat → Except Nat TlbEntry
  | level, table =>
    let e := (readWord mem (table + 8 * (va / 2 ^ (12 + 9 * level) % 512))).toNat
    if pteKind e = 0 then .error 1
    else if pteKind e = 3 ∨ pteBad e then .error 2
    else if pteKind e = 2 then leafEntry ctx va level e
    else if pteNextBad e then .error 2
    else match level with
      | 0 => .error 2
      | n + 1 => walkFrom mem ctx va n (ptePa e)

/-- The walk of a context's tables. -/
def walk (s : State) (ctx va : Nat) : Except Nat TlbEntry := walkFrom s.mem ctx va 3 (s.ctx ctx).root

/-! ## TLBs (R149) -/

/-- The entry of a TLB that serves an address of a context. -/
def tlbFind (l : List TlbEntry) (ctx va : Nat) : Option TlbEntry :=
  l.find? fun e => e.ctx == ctx && va / 2 ^ e.log == e.vpn / 2 ^ (e.log - 12)

/-- The tile TLB first, then the quad TLB. -/
def tlbLookup (s : State) (tile ctx va : Nat) : Option TlbEntry :=
  match tlbFind (s.core tile).tlb ctx va with
  | some e => some e
  | none => tlbFind (s.quad (quadOf tile)).tlb ctx va

/-- The set of a page in the quad TLB: its low eight page number bits, of 256 sets (log entry 9). -/
def tlbSet (e : TlbEntry) : Nat := e.vpn / 2 ^ (e.log - 12) % 256

/-- R149: a filled entry enters the tile TLB of 64 entries and its set of four ways in the quad TLB, the oldest entry
leaving (log entry 9). -/
def tlbFill (s : State) (tile : Nat) (e : TlbEntry) : State :=
  let s := s.updCore tile fun c => { c with tlb := (e :: c.tlb.filter (· != e)).take 64 }
  s.updQuad (quadOf tile) fun q =>
    let same := q.tlb.filter fun x => tlbSet x == tlbSet e && x != e
    { q with tlb := e :: same.take 3 ++ q.tlb.filter fun x => tlbSet x != tlbSet e }

/-- The physical address a translation gives. -/
def TlbEntry.addr (e : TlbEntry) (va : Nat) : Nat := e.pa + va % 2 ^ e.log

/-! ## The checks of R147 and R153 -/

/-- The permissions an access needs (R147). -/
structure Need where
  r : Bool
  w : Bool
  x : Bool
  deriving DecidableEq, Repr

def needR : Need := ⟨true, false, false⟩
def needW : Need := ⟨false, true, false⟩
def needRW : Need := ⟨true, true, false⟩
def needX : Need := ⟨false, false, true⟩

/-- R147: the XLATE detail of a leaf for an access, causes of the PA first, then 4, 5, 6. -/
def leafCause (s : State) (e : TlbEntry) (va : Nat) (n : Need) : Option Nat :=
  match paCause s (e.addr va) with
  | some c => some c
  | none =>
    if n.r && !e.r then some 4 else if n.w && !e.w then some 5 else if n.x && !e.x then some 6 else none

/-- R153, in order: XLATE, then nothing more where GEN is 0, TAG for a pointer without a generation, LAPSED. -/
def leafFault (s : State) (e : TlbEntry) (ptr : Word) (va : Nat) (n : Need) : Option FaultRec :=
  match leafCause s e va n with
  | some c => some ⟨.xlate, c, va, none, false⟩
  | none =>
    if e.gen = 0 then none
    else if ptrGen ptr = 0 then some ⟨.tag, 0, ptr.toNat, none, false⟩
    else if ptrGen ptr ≠ e.gen ∨ e.lap then some ⟨.lapsed, 0, va, none, false⟩
    else none

/-- A check that needs no TLB: the walk as it stands now. Firmware and the Crown check so (R125, R133). -/
def walkCheck (s : State) (ctx : Nat) (ptr : Word) (va : Nat) (n : Need) : Except FaultRec Nat :=
  match walk s ctx va with
  | .error c => .error ⟨.xlate, c, va, none, false⟩
  | .ok e =>
    match leafFault s e ptr va n with
    | some f => .error f
    | none => .ok (e.addr va)

/-- Translation and the checks for the running thread: a fault a walk delivered, a TLB hit, or a miss. -/
def translate (s : State) (ptr : Word) (va : Nat) (n : Need) : M Nat :=
  let tile := tileOf s.cur
  let hit : M Nat :=
    match tlbLookup s tile (ctxOf s tile) va with
    | none => .error (.miss (va / 4096))
    | some e =>
      match leafFault s e ptr va n with
      | some f => .error (.fault f)
      | none => .ok (e.addr va)
  match s.me.walkFault with
  | some (p, c) => if p = va / 4096 then raisePrecise .xlate c va else hit
  | none => hit

/-! ## The pieces of an access (R76, R309) -/

/-- A run of bytes an access touches, and their place in its buffer; `va` before the check of its form. -/
structure Piece where
  va  : Int
  n   : Nat
  off : Nat
  deriving DecidableEq, Repr

/-- An access before its checks: its pointer, its pieces in element order, its alignment, the permissions, whether its
FMT is refused, whether it needs granule tags, whether each piece is a part of its own, and the kind a watch looks for
(1 loads, 2 stores). The alignment is that of each piece, or of the pointer's VA where `base` holds (Table 15-1). -/
structure Acc where
  ptr    : Word
  pieces : List Piece
  al     : Nat
  base   : Bool
  tagged : Bool
  need   : Need
  fmtBad : Bool
  each   : Bool
  kind   : Nat
  deriving DecidableEq, Repr

/-- Every byte lies below 2^48 and none below 0 (`ptr.add` rules). -/
def Piece.formed (p : Piece) : Bool := decide (0 ≤ p.va) && decide (p.va + p.n ≤ (2 ^ 48 : Nat))

/-- Consecutive bytes: virtual address, physical address, place in the buffer. -/
def runFrom (va pa off n : Nat) : List (Nat × Nat × Nat) := (List.range n).map fun i => (va + i, pa + i, off + i)

/-- The bytes of one piece, each page of it translated and checked. -/
def pieceMoves (s : State) (ptr : Word) (n : Need) (p : Piece) : M (List (Nat × Nat × Nat)) := do
  let va := p.va.toNat
  let pa ← translate s ptr va n
  let room := 4096 - va % 4096
  if p.n ≤ room then .ok (runFrom va pa p.off p.n)
  else do
    let pb ← translate s ptr (va + room) n
    .ok (runFrom va pa p.off room ++ runFrom (va + room) pb (p.off + room) (p.n - room))

/-- `f` on each of a list, in order, the first stop ending it. -/
def collect {α β : Type} (f : α → M β) : List α → M (List β)
  | [] => .ok []
  | x :: r => do
    let y ← f x
    let ys ← collect f r
    .ok (y :: ys)

/-- A byte added to the part of its aligned 32-byte block (R71). -/
def addMove (m : Nat × Nat × Nat) : List Part → List Part
  | [] => [⟨m.1, [m.2], .waiting⟩]
  | p :: r =>
    if (p.moves.headD (0, 0)).1 / 32 = m.2.1 / 32 then { p with moves := p.moves ++ [m.2] } :: r else p :: addMove m r

/-- Bytes as parts, one for each 32-byte block. -/
def blockParts (ms : List (Nat × Nat × Nat)) : List Part := ms.foldl (fun ps m => addMove m ps) []

/-- Bytes as one part. -/
def onePart (ms : List (Nat × Nat × Nat)) : Part := ⟨(ms.headD (0, 0, 0)).1, ms.map (·.2), .waiting⟩

/-- R221: the armed watch of a kind that some piece falls in. -/
def watchHit (s : State) (kind : Nat) (ps : List Piece) : Option Nat :=
  let c := s.myCore
  let hit (n : Nat) (a ctl : Word) : Bool :=
    let log := ctl.toNat % 64
    let base : Nat := a.toNat % 2 ^ 48 / 2 ^ log * 2 ^ log
    c.dbgctl.getLsbD (10 + n) && (ctl.toNat / 2 ^ 62 == 3 || ctl.toNat / 2 ^ 62 == kind) &&
      ps.any fun p => decide (p.va < ((base + 2 ^ log : Nat) : Int)) && decide ((base : Int) < p.va + p.n)
  if s.me.noHit then none
  else if hit 0 c.watchAddr[0] c.watchCtl[0] then some (c.watchAddr[0].toNat % 2 ^ 48)
  else if hit 1 c.watchAddr[1] c.watchCtl[1] then some (c.watchAddr[1].toNat % 2 ^ 48)
  else none

/-- R309, R200: TAG from forming an address, ALIGN, the checks of R153, FORMAT, SCHED where tags are needed and the
address has none (R317); the parts where all pass.
Each kind of fault is looked for in element order. -/
def checkAcc (s : State) (a : Acc) : M (List Part) := do
  ensure (a.pieces.all Piece.formed) .tag 0 a.ptr.toNat
  match if a.base then [ptrVa a.ptr].find? fun v => v % a.al != 0
    else (a.pieces.map fun p => p.va.toNat).find? fun v => v % a.al != 0 with
  | some v => raisePrecise .align 0 v
  | none => .ok ()
  let ms ← collect (pieceMoves s a.ptr a.need) a.pieces
  ensure (!a.fmtBad) .format 0 a.ptr.toNat
  let bare (m : Nat × Nat × Nat) : Bool := !(isSram m.2.1 && pkgOf m.2.1 == s.pkg)
  match if a.tagged then ms.flatten.find? bare else none with
  | some m => raisePrecise .sched 0 m.1
  | none => .ok ()
  .ok (if a.each then ms.map onePart else blockParts ms.flatten)

/-- R221: a watch hits after every other execution fault of the access, before anything is performed. -/
def watchCheck (s : State) (a : Acc) : M Unit :=
  match watchHit s a.kind a.pieces with
  | some w => if s.myCore.dbgctl.getLsbD 9 then raisePrecise .debug 2 w else .error .stopCore
  | none => .ok ()

/-! ## Readiness (R72, R73, R75, R310) -/

/-- R72, R73: an operation that waits for every earlier access, and reports the failures it waited for. -/
def plainReady (s : State) : M Unit :=
  if s.busy s.cur then .error .drain
  else if s.me.failures.isEmpty then .ok () else .error .failure

/-- R73: a relaxed access waits for an earlier plain access, whose failure it reports. -/
def relaxedReady (s : State) : M Unit :=
  if (s.inFlight s.cur).any fun r => !r.rlx then blockOn .accessSlot
  else if s.me.failures.any (·.plain) then .error .failure else .ok ()

/-- Relaxed accesses outstanding: those in flight and the combining entries (R73, R74). -/
def relaxedCount (s : State) : Nat := (s.inFlight s.cur).length + s.me.comb.length

def ready (s : State) (rlx : Bool) : M Unit := if rlx then relaxedReady s else plainReady s

/-- R158: what waits to be reported about the thread's messages. -/
def messageReports (s : State) : M Unit :=
  if s.me.contain.isEmpty && s.me.stalls.isEmpty then .ok () else .error .report

/-! ## Protected pairs (R209, R210) -/

/-- How two operations differ: kind or size 3, address 1, data 2 (Table 9-1). -/
def differAt (a b : Compared) : Option Nat :=
  if a.kind ≠ b.kind ∨ a.size ≠ b.size then some 3 else if a.addrs ≠ b.addrs then some 1
  else if a.data ≠ b.data then some 2 else none

/-- The address a mismatch reports (R195): the first at which the operations differ, else the first compared, or 0. -/
def differVal (a b : Compared) : Nat :=
  match (a.addrs.zip b.addrs).find? fun p => p.1 != p.2 with
  | some p => p.1
  | none => a.addrs.headD 0

/-- R209: an operation of a protected pair passes the store comparator; the state in which it may be performed. -/
def compareOp (s : State) (op : Compared) : M State :=
  let clear (s : State) : State := s.updMe fun t => { t with cmp := none }
  match s.me.role with
  | .alone | .handling => .ok s
  | .leading =>
    match s.me.cmp with
    | none => .error (.offer op)
    | some (_, .waiting) => blockOn .pair
    | some (_, .agreed) => .ok (clear s)
    | some (_, .differs d a) => raisePrecise .redund d a
  | .trailing =>
    match s.me.cmp with
    | some (_, .agreed) => .ok (clear s)
    | _ =>
      match (s.thr (partnerOf s.cur)).cmp with
      | some (o, .waiting) =>
        match differAt o op with
        | none => .error (.judge op .agreed)
        | some d => .error (.judge op (.differs d (differVal o op)))
      | _ => blockOn .pair

/-- R209: the leading thread waits while the load-value queue is full. -/
def lvqRoom (s : State) : M Unit :=
  await (s.me.role != .leading || decide ((s.thr (partnerOf s.cur)).lvq.length < 16)) .pair

/-- A value the leading thread will load takes its place in the queue. -/
def lvqReserve (s : State) (id : Nat) : State :=
  if s.me.role = .leading then s.updThr (partnerOf s.cur) fun t => { t with lvq := t.lvq ++ [(id, none)] } else s

/-- Words that the leading thread has obtained, for the trailing one. -/
def lvqPush (s : State) (bytes : List Byte) : State :=
  if s.me.role = .leading then s.updThr (partnerOf s.cur) fun t => { t with lvq := t.lvq ++ [(0, some bytes)] } else s

/-- The trailing thread takes its next load value, or waits while the queue is empty. -/
def lvqTake (s : State) : M (List Byte × State) :=
  match s.me.lvq with
  | (_, some b) :: r => .ok (b, s.updMe fun t => { t with lvq := r })
  | _ => blockOn .pair

/-! ## Finishing a load: its value written (R72, R311 to R317) -/

/-- A message pushed later, whose allowance was taken at issue, or a register written. -/
def putLater (s : State) (key : Nat) (d : Nat) (chan : Option Nat) (x : Vec) : State :=
  match chan with
  | some n => releasePush s (tileOf key) (lidOf s (tileOf key)) (n, x)
  | none => s.updThr key fun t => { t with regs := t.regs.wv d x }

/-- Elements of a formatted access: their number, the bits each has in memory, and their width in the register
(Table 15-2). -/
def fmtShape (fmt : Nat) : Nat × Nat × Nat :=
  match fmt with
  | 0 => (64, 8, 8)
  | 5 | 11 | 14 => (8, 64, 64)
  | f => (16, codeBits f, 32)

/-- Element `i` of `w` bits of a list of bytes. -/
def bytesElem (bs : List Byte) (w i : Nat) : Nat := leNat bs / 2 ^ (w * i) % 2 ^ w

/-- One element of a formatted load as its register element, and its flags (R313). -/
def fmtLoad (fmt x : Nat) : Nat × BitVec 8 :=
  match fmt with
  | 1 | 2 | 3 | 12 | 13 => convert (envRne false) fmt 4 x
  | 6 | 7 | 8 | 9 => convert (envRne false) fmt 10 x
  | _ => (x, 0)

/-- The bytes of a register block in memory order: two of the scale, then the elements of code 16 to 20. -/
def blockLen (fmt : Nat) : Nat := 2 + 2 * codeBits fmt

/-- A register block from its bytes (Table 14-4); under a mask, inactive elements keep their old bits. -/
def blockLoad (fmt : Nat) (m : Mask) (old : Vec) (bs : List Byte) : Vec :=
  let w := codeBits fmt
  let els := packN w (fun i => if m.getLsbD i then bytesElem (bs.drop 2) w i else elem old w i) 16
  BitVec.ofNat 512 (els + leNat (bs.take 2) * 2 ^ 496)

/-- R72: the bytes of a completed load written where its instruction said. -/
def finishLoad (s : State) (key : Nat) (f : Finish) (bs : List Byte) : State :=
  let reg (d : Nat) (x : Word) : State := s.updThr key fun t => { t with regs := t.regs.ws d x }
  let old (d : Nat) : Vec := (s.thr key).regs.rv d
  match f with
  | .none | .engineBytes => s
  | .ldr k d aux _ _ =>
    -- the outcome of a round (R316): its code and ABSENT in eight bytes, the sum, its flags
    if bs.length < 73 then s
    else
      let w := leNat (bs.take 8)
      s.updThr key fun t =>
        let g := (t.regs.wk k (w == 0)).ws aux (BitVec.ofNat 64 w)
        { t with
          regs := if w = 0 then g.wv d (vecOf ((bs.drop 8).take 64)) else g
          fpflags := t.fpflags ||| (if w = 0 then bs.getD 72 0 else 0) }
  | .scalar d bits sgn => reg d (if sgn then sext64 bits (leNat bs) else zext64 bits (leNat bs))
  | .atomicOld d bits => reg d (sext64 bits (leNat bs))
  | .tagByte d => reg d (zext64 8 (leNat bs))
  | .lanes d w m => s.updThr key fun t => { t with regs := t.regs.wv d (merge w m (old d) (bytesElem bs w)) }
  | .push n _ => releasePush s (tileOf key) (lidOf s (tileOf key)) (n, vecOf bs)
  | .formatted d chan fmt m =>
    let sh := fmtShape fmt
    let r (i : Nat) := fmtLoad fmt (bytesElem bs sh.2.1 i)
    let x := merge sh.2.2 m (if chan.isSome then 0 else old d) fun i => (r i).1
    (putLater s key d chan x).updThr key fun t =>
      { t with fpflags := t.fpflags ||| orFlags sh.1 fun i => if active sh.2.2 m i then (r i).2 else 0 }
  | .block d chan fmt m => putLater s key d chan (blockLoad fmt m (if chan.isSome then 0 else old d) bs)
  | .stash => s.updThr key fun t =>
    { t with got := some (.words ((List.range (bs.length / 8)).map fun i =>
      BitVec.ofNat 64 (leNat ((bs.drop (8 * i)).take 8)))) }

/-- The register a relaxed load names: a scalar below 32, a vector from 32. -/
def finishReg (f : Finish) : Option Nat :=
  match f with
  | .scalar d _ _ | .atomicOld d _ | .tagByte d => some d
  | .lanes d _ _ => some (32 + d)
  | .formatted d c _ _ | .block d c _ _ => if c.isNone then some (32 + d) else none
  | _ => none

/-! ## Putting an access in flight -/

/-- A request of the running thread; `back` where its failure takes the instruction back (R75). -/
def mkReq (s : State) (rlx : Bool) (kind : ReqKind) (va size : Nat) (parts : List Part) (buf : List Byte)
    (fin : Finish) (back : Bool) : Req where
  id := s.nextId
  owner := .thread s.cur
  ctx := ctxOf s (tileOf s.cur)
  lid := lidOf s (tileOf s.cur)
  va := va
  rlx := rlx
  kind := kind
  size := size
  parts := parts
  buf := buf
  fin := fin
  undo := if !back then none else some ⟨s.me.pc, s.me.src, s.me.fpflags, s.me.qprime, s.me.oldDl, [], [], false⟩
  fault := none
  stamp := none
  seq := s.me.seq
  last := false

/-- The VA an access reports: that of its first piece. -/
def Acc.va (a : Acc) : Nat := match a.pieces with | [] => ptrVa a.ptr | p :: _ => p.va.toNat

/-- R74: the entries a load drains, those whose granule it touches. -/
def touches (parts : List Part) (c : Comb) : Bool :=
  parts.any fun p => p.moves.any fun m => m.1 / 64 == c.granule

/-- A load issued: checked, its place in the load-value queue taken, combining entries it touches drained; a plain one
leaves the thread not ready. The trailing thread of a pair takes its value from the queue instead. -/
def loadIssue (s : State) (rlx : Bool) (a : Acc) (kind : ReqKind) (size : Nat) (fin : Finish) : M State := do
  if s.me.role = .trailing then
    let (b, s) ← lvqTake s
    .ok (finishLoad s s.cur fin b)
  else
    let parts ← checkAcc s a
    watchCheck s a
    if rlx && decide (4 ≤ relaxedCount s) then blockOn .accessSlot
    lvqRoom s
    let s := drainWhere (touches parts) s.cur s
    let s := lvqReserve s s.nextId
    let r := mkReq s rlx kind a.va size parts (List.replicate size 0) fin (!rlx)
    let s := issue s r
    .ok (if rlx then s else s.updMe fun t => { t with wait := some (.load r.id) })

/-- R211: whether a launch is marked replayable (CTL.RPL, Table 6-5). -/
def Launch.rpl (l : Launch) : Bool := bitOf (wordAt l.payload 3) 8

/-- R211: the launch becomes non-replayable. -/
def endReplay (s : State) (lid : Nat) : State := s.updLaunch lid fun l => { l with nrpl := l.nrpl || l.rpl }

/-- The live range hold of a context that holds an address: its index and reuse count. -/
def rangeOf (s : State) (ctx va : Nat) : Option (Nat × Nat) :=
  ((s.ctx ctx).holds.find? fun h =>
    h.2.live && (match h.2.kind with
      | .range b n log _ _ => decide (b ≤ va) && decide (va < b + n * 2 ^ log)
      | _ => false)).map fun h => (h.1, h.2.reuse.toNat)

/-- R211: a write ends replayability where it goes to a peer, or to an SRAM range that the launch did not request. -/
def noteWrite (s : State) (lid ctx : Nat) (va pa : Nat) : State :=
  if pkgOf pa ≠ s.pkg then endReplay s lid
  else if isSram pa then
    match rangeOf s ctx va with
    | some h => if (s.launch lid).ranges.contains h then s else endReplay s lid
    | none => s
  else s

/-- An access that ends its launch's replayability where it is performed, not where it is issued: a failure of it takes its
instruction back. -/
def Req.endsReplay (b : Bool) (r : Req) : Req := { r with undo := r.undo.map fun u => { u with nrpl := b } }

/-- `noteWrite` for each part of an access of the running thread, by the part's own address. -/
def noteWrites (s : State) (parts : List Part) : State :=
  let tile := tileOf s.cur
  parts.foldl (fun s p =>
    match p.moves with
    | [] => s
    | m :: _ => noteWrite s (lidOf s tile) (ctxOf s tile) p.va m.1) s

/-- Whether the write of an access of the running thread would end its launch's replayability. -/
def wouldEndReplay (s : State) (parts : List Part) : Bool :=
  let l := lidOf s (tileOf s.cur)
  ((noteWrites s parts).launch l).nrpl && !(s.launch l).nrpl

/-- The bytes of a store as pairs of address and value. -/
def storeBytes (parts : List Part) (buf : List Byte) : List (Nat × Byte) :=
  (parts.map fun p => p.moves.map fun m => (m.1, buf.getD m.2 0)).flatten

/-- R74: the granule whose entry may hold a relaxed store: all its bytes in one granule whose home is not the thread's
own tile. -/
def holdable (s : State) (parts : List Part) : Option Nat :=
  match parts with
  | [] => none
  | p :: _ =>
    let g := (p.moves.headD (0, 0)).1 / 64
    if parts.all (fun q => q.moves.all fun m => m.1 / 64 == g) && homeTile s (g * 64) != some (tileOf s.cur)
    then some g else none

/-- A relaxed store: merged into its granule's entry, held in a new one, or put in flight behind the entries it
touches (R74). A store of some bits of a byte travels at once: an entry holds whole bytes. -/
def relaxedStore (s : State) (a : Acc) (kind : ReqKind) (size : Nat) (parts : List Part) (buf : List Byte) :
    M State := do
  let fly (s : State) : M State := do
    await (decide (relaxedCount s < 4)) .accessSlot
    let s := drainWhere (touches parts) s.cur s
    .ok (issue s (mkReq s true kind a.va size parts buf .none false))
  match if kind = .store then holdable s parts else none with
  | none => fly s
  | some g =>
    let bs := storeBytes parts buf
    if s.me.comb.any fun c => c.granule == g then
      .ok (s.updMe fun t =>
        { t with comb := lupd (fun c => c.granule == g) (fun c => { c with bytes := c.bytes ++ bs }) t.comb })
    else do
      await (decide (relaxedCount s < 4)) .accessSlot
      .ok (s.updMe fun t =>
        { t with comb := t.comb ++ [⟨g, bs, s.cycle, a.va, t.seq⟩], seq := t.seq + 1 })

/-- The data an operation of a pair is compared by. -/
def dataOf (buf : List Byte) : List Nat := buf.map (·.toNat)

/-- The kinds of operation the store comparator tells apart: two engines, two sorts of launch, two registers of `syswr`
and two operations of `amo` are two kinds. -/
def cmpStore : Nat := 0
def cmpWrv : Nat := 1
def cmpMsend : Nat := 2
def cmpStop : Nat := 3
def cmpTagSet : Nat := 4
def cmpTagClr : Nat := 5
def cmpEnq : Nat := 16
def cmpLaunch : Nat := 32
def cmpAmo : Nat := 48
def cmpSyswr : Nat := 4096

/-- The number of an atomic's operation. -/
def AmoOp.num : AmoOp → Nat
  | .add => 0 | .and => 1 | .or => 2 | .xor => 3 | .min => 4 | .max => 5 | .minu => 6 | .maxu => 7 | .swap => 8 | .cas => 9

/-- The addresses an access is compared by: one for each piece, so that a mask that differs differs here. -/
def Acc.addrs (a : Acc) : List Nat := a.pieces.map fun p => p.va.toNat

/-- A store issued: checked whole before any part (R76), compared in a protected pair, then in flight or held. -/
def storeIssue (s : State) (rlx : Bool) (a : Acc) (kind : ReqKind) (size : Nat) (buf : List Byte) (cmp : Nat) :
    M State := do
  let op : Compared := ⟨cmp, a.addrs, dataOf buf, size⟩
  if s.me.role = .trailing then compareOp s op
  else
    let parts ← checkAcc s a
    let s ← compareOp s op
    watchCheck s a
    let s := noteWrites s parts
    if rlx then relaxedStore s a kind size parts buf
    else .ok (issue s (mkReq s false kind a.va size parts buf .none false))

/-- An atomic that returns a value: checked and compared as a store, outstanding as a load. -/
def atomicIssue (s : State) (a : Acc) (kind : ReqKind) (size : Nat) (data : List Nat) (fin : Finish)
    (compared : Bool) : M State := do
  let op : Compared := ⟨cmpAmo + (match kind with | .amo o _ _ => o.num | _ => 0), a.addrs, data, size⟩
  if s.me.role = .trailing then
    if compared && s.me.lvq.isEmpty then
      -- the comparison comes first; the value follows by the queue
      let _ ← compareOp s op
      blockOn .pair
    else
      let (b, s) ← lvqTake s
      .ok ((finishLoad s s.cur fin b).updMe fun t => { t with cmp := none })
  else
    let parts ← checkAcc s a
    lvqRoom s
    let s ← if compared then compareOp s op else .ok s
    watchCheck s a
    let s := lvqReserve s s.nextId
    let r := (mkReq s false kind a.va size parts (List.replicate size 0) fin true).endsReplay
      (compared && wouldEndReplay s parts)
    .ok ((issue s r).updMe fun t => { t with wait := some (.reservation) })

/-- `wrv` issued: compared as a store, and outstanding until its home has performed or refused it (R90). -/
def wrvIssue (s : State) (a : Acc) (size : Nat) (buf : List Byte) : M State := do
  let op : Compared := ⟨cmpWrv, a.addrs, dataOf buf, size⟩
  if s.me.role = .trailing then compareOp s op
  else
    let parts ← checkAcc s a
    let s ← compareOp s op
    watchCheck s a
    let r := (mkReq s false .wrv a.va size parts buf .none true).endsReplay (wouldEndReplay s parts)
    .ok ((issue s r).updMe fun t => { t with wait := some (.load r.id) })

end Sys2Proof.Machine
end

