-- ==== Sys2Proof/Machine/Commands.lean ====
section
/-! DEFINITION. Engine command words (spec/16_isa_engines_system.md R338, Tables 16-2 to 16-5): their fields, the checks
of R339 that need no memory, the items a command is split into (Table 9-4), and the rows it reads and writes. -/

namespace Sys2Proof.Machine

/-! ## Fields (Tables 16-2 and 16-4) -/

/-- Word `i` of a command. -/
def cw (w : Vec) (i : Nat) : Nat := elem w 64 i
def cOp (w : Vec) : Nat := bitsOf (cw w 0) 7 0
def cSten (w : Vec) : Bool := bitOf (cw w 0) 8
def cStseq (w : Vec) : Nat := bitsOf (cw w 0) 15 9
def cResume (w : Vec) : Bool := bitOf (cw w 0) 16
def cSat8 (w : Vec) : Bool := bitOf (cw w 0) 17
def cSat (w : Vec) : Bool := bitOf (cw w 0) 18
def cAsgn (w : Vec) : Bool := bitOf (cw w 0) 19
def cWsgn (w : Vec) : Bool := bitOf (cw w 0) 20
def cPlane (w : Vec) : Bool := bitOf (cw w 0) 21
def cAcc (w : Vec) : Nat := bitsOf (cw w 0) 24 22
def cM (w : Vec) : Nat := bitsOf (cw w 0) 28 25 + 1
def cK (w : Vec) : Nat := bitsOf (cw w 0) 35 29
def cReq (w : Vec) : Bool := bitOf (cw w 0) 36
def cSrc (w : Vec) : Word := BitVec.ofNat 64 (cw w 1)
def cDst (w : Vec) : Word := BitVec.ofNat 64 (cw w 2)
def cSstr (w : Vec) : Int := sgnN 32 (cw w 3)
def cDstr (w : Vec) : Int := sgnN 32 (cw w 3 / 2 ^ 32)
def cCount (w : Vec) : Nat := cw w 4 % 2 ^ 32
def cRows (w : Vec) : Nat := cw w 4 / 2 ^ 32
def cHandle (w : Vec) : Nat := bitsOf (cw w 5) 15 0
def cRoot (w : Vec) : Nat := bitsOf (cw w 5) 23 16
def cMask (w : Vec) : Nat := bitsOf (cw w 5) 31 24
def cOzp (w : Vec) : Int := sgnN 16 (bitsOf (cw w 5) 47 32)
def cAux6 (w : Vec) : Word := BitVec.ofNat 64 (cw w 6)
def cAux7 (w : Vec) : Word := BitVec.ofNat 64 (cw w 7)

/-- The commands of Table 16-3. -/
inductive CmdKind where
  | zero | ldacc | loadw | mma | drain | save | restore | copy | fill | route | reduce | bcast
  deriving DecidableEq, Repr

/-- OP as a command; none where it is not assigned. -/
def kindOf (w : Vec) : Option CmdKind :=
  match cOp w with
  | 0x01 => some .zero | 0x02 => some .ldacc | 0x03 => some .loadw | 0x04 => some .mma | 0x05 => some .drain
  | 0x06 => some .save | 0x07 => some .restore | 0x11 => some .copy | 0x12 => some .fill | 0x13 => some .route
  | 0x21 => some .reduce | 0x22 => some .bcast
  | _ => none

/-- The engine a command belongs to. -/
def kindEng (k : CmdKind) : Eng :=
  match k with
  | .zero | .ldacc | .loadw | .mma | .drain | .save | .restore => .mx
  | .copy | .fill | .route => .cp
  | .reduce | .bcast => .rl

/-! ## Reserved fields (R338) -/

/-- A command of a list. -/
def among (k : CmdKind) (l : List CmdKind) : Bool := l.contains k

def usesSrc (k : CmdKind) : Bool := among k [.ldacc, .loadw, .mma, .restore, .copy, .route, .reduce, .bcast]
def usesDst (k : CmdKind) : Bool := among k [.drain, .save, .copy, .fill, .route, .reduce, .bcast]
def usesAux6 (k : CmdKind) : Bool := among k [.drain, .fill, .route, .reduce, .bcast]
def usesStamp (k : CmdKind) : Bool := among k [.drain, .save, .copy, .fill, .route, .reduce, .bcast]

/-- A field of word 0 that the command does not use, or STSEQ without STEN, is nonzero. -/
def headReserved (k : CmdKind) (w : Vec) : Bool :=
  let w0 := cw w 0
  let bad (used : Bool) (x : Nat) : Bool := !used && x != 0
  w0 / 2 ^ 37 != 0 || bad (k == .drain) (bitsOf w0 36 36) || bad (among k [.loadw, .mma]) (cK w) ||
    bad (among k [.ldacc, .mma, .drain]) (bitsOf w0 28 25) || bad (among k [.zero, .ldacc, .mma, .drain]) (cAcc w) ||
    bad (among k [.loadw, .mma]) (bitsOf w0 21 21) || bad (k == .mma) (bitsOf w0 20 18) ||
    bad (among k [.drain, .copy]) (bitsOf w0 17 17) || bad (k == .mma) (bitsOf w0 16 16) ||
    bad (usesStamp k && cSten w) (cStseq w) || bad (usesStamp k) (bitsOf w0 8 8)

/-- A field of words 3 to 6 that the command does not use is nonzero. -/
def bodyReserved (k : CmdKind) (w : Vec) : Bool :=
  let bad (used : Bool) (x : Nat) : Bool := !used && x != 0
  bad (among k [.drain, .copy, .fill]) (cw w 3 / 2 ^ 32) ||
    bad (among k [.ldacc, .loadw, .mma, .copy]) (cw w 3 % 2 ^ 32) || bad (among k [.copy, .fill]) (cRows w) ||
    bad (among k [.copy, .fill, .route, .reduce, .bcast]) (cCount w) || cw w 5 / 2 ^ 48 != 0 ||
    bad (k == .drain) (bitsOf (cw w 5) 47 32) || bad (among k [.save, .restore]) (cMask w) ||
    bad (k == .bcast) (cRoot w) || bad (among k [.route, .reduce, .bcast]) (cHandle w) || bad (usesAux6 k) (cw w 6)

/-- The reserved field that is nonzero, if any, as ADDR names it (R338, R339): SRC, DST or COLP where it is one of these pointers, else
word 0; of several, the first in the order of the words (DESIGN CHOICE, log entry 116). -/
def cmdReserved (k : CmdKind) (w : Vec) : Option Nat :=
  if headReserved k w then some (cw w 0)
  else if !usesSrc k && cw w 1 != 0 then some (cw w 1)
  else if !usesDst k && cw w 2 != 0 then some (cw w 2)
  else if bodyReserved k w then some (cw w 0)
  else if k != .drain && cw w 7 != 0 then some (cw w 7)
  else none

/-- The pointers of a command, in the order of its words. -/
def cmdPtrs (k : CmdKind) (w : Vec) : List Word :=
  (if usesSrc k then [cSrc w] else []) ++ (if usesDst k then [cDst w] else []) ++
    (if among k [.drain, .reduce, .bcast] then [cAux6 w] else []) ++ (if k == .drain then [cAux7 w] else [])

/-! ## Formats -/

/-- A block format (codes 16 to 20). -/
def isBlk (f : Nat) : Bool := 16 ≤ f && f ≤ 20
/-- A floating-point format (codes 6 to 11). -/
def isFp (f : Nat) : Bool := 6 ≤ f && f ≤ 11
/-- Block length of a BLEN (R43). -/
def blenOf (p : Word) : Nat := 2 ^ (ptrBlen p + 4)

/-- The choices of an integer operand in Table 16-5. -/
def intOperand (f : Nat) (signed : Bool) : Bool :=
  f == 0 || (f == 1 && signed) || (f == 2 && !signed) || (f == 13 && signed)

/-- Group size of an MX.MMA by Table 16-5; none for formats that are refused. `bw` is the plane's BLEN. -/
def mmaGroup (plane : Bool) (fa : Nat) (ba : Nat) (asgn : Bool) (fw : Nat) (bw : Nat) (wsgn : Bool) : Option Nat :=
  if plane then
    if fw = 12 ∧ wsgn ∧ intOperand fa asgn ∧ fa ≠ 13 then some 64 else none
  else if intOperand fa asgn ∧ intOperand fw wsgn then some 32
  else if asgn ∨ wsgn then none
  else if fa = 10 ∧ fw = 10 then some 8
  else if (fa = 8 ∨ fa = 9) ∧ (fw = 8 ∨ fw = 9) then some 16
  else if (fa = 6 ∨ fa = 7) ∧ (fw = 6 ∨ fw = 7) then some 32
  else if ((fa = 16 ∨ fa = 17) ∧ (fw = 16 ∨ fw = 17) ∨ (fa = 18 ∨ fa = 19) ∧ (fw = 18 ∨ fw = 19)) ∧ ba = bw ∧ ba ≤ 2 then
    some (2 ^ (ba + 4))
  else none

/-- Formats that a plane takes (R343, Table 16-5). -/
def planeFmt (plane : Bool) (f : Nat) : Bool :=
  if plane then f == 12
  else [0, 1, 2, 6, 7, 8, 9, 10, 13, 16, 17, 18, 19].contains f

/-- Formats that MX.DRAIN writes (R345). -/
def drainFmt (req : Bool) (f : Nat) : Bool :=
  if req then [1, 2, 3, 4, 13].contains f else [0, 4, 6, 7, 8, 9, 10].contains f

/-- Conversions of CP.COPY (Table 16-6). -/
def copyOk (fs bs fd bd : Nat) : Bool :=
  (fs == 0 && fd == 0) || (1 ≤ fs && fs ≤ 13 && 1 ≤ fd && fd ≤ 13) || (fs == 14 && fd == 14) ||
    (isBlk fs && fd == fs && bs == bd) || (isBlk fs && isFp fd) || (1 ≤ fs && fs ≤ 13 && isBlk fd)

/-- Elements of INT4 and TERN rows fill whole bytes (R347, R348). -/
def wholeBytes (f n : Nat) : Bool := !(f == 12 || f == 13) || n * codeBits f % 8 == 0

/-- Bytes of `n` elements of a format; `l` is the block length of a block format. -/
def rowBytes (f l n : Nat) : Nat :=
  if isBlk f then n / (16 * l) * (32 + 2 * l * codeBits f) else (n * codeBits f + 7) / 8

/-- A refused command: code, DETAIL, ADDR. -/
abbrev Refused := Code × Nat × Nat

/-- The element format that a raw drain writes: 32-bit words (R345). -/
def drainCode (f : Nat) : Nat := if f = 0 ∨ f = 10 then 4 else f

/-- R339, step 4, for the commands whose rule needs neither a plane nor memory; pointers before word 0. -/
def cmdRange (k : CmdKind) (w : Vec) : Option Refused :=
  let fs := ptrFmt (cSrc w)
  let fd := ptrFmt (cDst w)
  let n := cCount w
  let w0 : Refused := (.engine, 3, cw w 0)
  let src : Refused := (.engine, 3, cw w 1)
  let dst : Refused := (.engine, 3, cw w 2)
  match k with
  | .zero => none
  | .ldacc => if fs = 0 ∨ fs = 4 ∨ fs = 10 then none else some src
  | .loadw =>
    if cK w < 1 ∨ 64 < cK w then some w0
    else if !planeFmt (cPlane w) fs ∨ (isBlk fs ∧ 2 < ptrBlen (cSrc w)) then some src
    else if isBlk fs ∧ cK w % blenOf (cSrc w) ≠ 0 then some w0
    else none
  | .mma => if cK w < 1 ∨ 64 < cK w then some w0 else none
  | .drain => if drainFmt (cReq w) fd then none else some dst
  | .save => if cMask w = 0 then some w0 else if fd = 0 then none else some dst
  | .restore => if cMask w = 0 then some w0 else if fs = 0 then none else some src
  | .copy =>
    if n < 1 ∨ 2 ^ 24 < n ∨ cRows w < 1 then some w0
    else if !copyOk fs (ptrBlen (cSrc w)) fd (ptrBlen (cDst w)) then some src
    else if !wholeBytes fs n ∨ !wholeBytes fd n then some w0
    else if (isBlk fs ∧ n % (16 * blenOf (cSrc w)) ≠ 0) ∨ (isBlk fd ∧ n % (16 * blenOf (cDst w)) ≠ 0) then some w0
    else none
  | .fill =>
    if n < 1 ∨ 2 ^ 24 < n ∨ cRows w < 1 then some w0
    else if isBlk fd then some dst
    else if !wholeBytes fd n then some w0
    else none
  | .route =>
    if n % 32 ≠ 0 ∨ n < 32 ∨ 2 ^ 20 < n then some w0
    else if fs ≠ 0 then some src
    else if fd ≠ 0 then some dst
    else none
  | .reduce =>
    if n % 16 ≠ 0 ∨ n < 16 ∨ 61440 < n then some w0
    else if !(fs = 4 ∨ fs = 6 ∨ fs = 7 ∨ fs = 9 ∨ fs = 10) then some src
    else if (if fs = 4 then fd = 4 else fd = 9 ∨ fd = 10) then none
    else some dst
  | .bcast => if n % 64 ≠ 0 ∨ n < 64 ∨ 245760 < n ∨ 15 < cRoot w then some w0 else none

/-- R339, steps 1 to 4 but for what a plane, a route or a group decides. -/
def cmdCheck (e : Eng) (w : Vec) : Except Refused CmdKind :=
  match kindOf w with
  | none => .error (.engine, 2, cw w 0)
  | some k =>
    if kindEng k ≠ e then .error (.engine, 2, cw w 0)
    else match cmdReserved k w with
    | some a => .error (.engine, 2, a)
    | none =>
      match (cmdPtrs k w).find? fun p => !codeAssigned (ptrFmt p) with
      | some p => .error (.format, 0, p.toNat)
      | none => match cmdRange k w with
        | some r => .error r
        | none => .ok k

/-! ## Items and rows (Table 9-4) -/

/-- The tiles ACCMASK names. -/
def maskTiles (w : Vec) : List Nat := (List.range 8).filter fun t => bitOf (cMask w) t

/-- Rounds of a relay command (R350, R351). -/
def relayRounds (k : CmdKind) (w : Vec) : Nat :=
  if k = .reduce then (cCount w + 239) / 240 else (cCount w + 959) / 960

/-- The steps a command is carried out in: its items, or the rounds of a relay command and the write of its status. `g` is the group of an
MX.MMA. -/
def cmdSteps (k : CmdKind) (w : Vec) (g : Nat) : Nat :=
  match k with
  | .zero => 1
  | .ldacc | .drain => cM w
  | .loadw => if isBlk (ptrFmt (cSrc w)) then 64 else cK w
  | .mma => (cK w + g - 1) / g
  | .save | .restore => 16 * (maskTiles w).length
  | .copy | .fill => cRows w
  | .route => (cCount w + 4095) / 4096
  | .reduce | .bcast => relayRounds k w + 1

/-- Bytes of step `i` of a relay command at its destination. -/
def roundBytes (k : CmdKind) (w : Vec) (i : Nat) : Nat :=
  if k = .reduce then (min 240 (cCount w - 240 * i)) * codeBits (ptrFmt (cDst w)) / 8 else min 960 (cCount w - 960 * i)

/-- The bytes step `i` writes: virtual address of the first, and number; none where it writes none. The last step of
a relay command writes its status word (R352). -/
def dstSpan (k : CmdKind) (w : Vec) (i : Nat) : Option (Int × Nat) :=
  let f := ptrFmt (cDst w)
  let d : Int := ptrVa (cDst w)
  match k with
  | .drain => some (d + i * cDstr w, 64 * codeBits (drainCode f) / 8)
  | .save => some (d + 256 * (i : Nat), 256)
  | .copy => some (d + i * cDstr w, rowBytes f (blenOf (cDst w)) (cCount w))
  | .fill => some (d + i * cDstr w, rowBytes f (blenOf (cDst w)) (cCount w))
  | .route => some (d + 4096 * (i : Nat), min 4096 (cCount w - 4096 * i))
  | .reduce =>
    if i < relayRounds k w then some (d + (240 * i * codeBits f / 8 : Nat), roundBytes k w i)
    else some ((ptrVa (cAux6 w) : Int), 8)
  | .bcast =>
    if i < relayRounds k w then some (d + (960 * i : Nat), roundBytes k w i) else some ((ptrVa (cAux6 w) : Int), 8)
  | _ => none

/-- Whether step `i` writes a byte of a granule, by virtual address ÷ 64. -/
def spanTouches (k : CmdKind) (w : Vec) (g i : Nat) : Bool :=
  match dstSpan k w i with
  | some (a, n) => decide (a < ((g + 1) * 64 : Nat)) && decide (((g * 64 : Nat) : Int) < a + n)
  | none => false

/-! ## A core's engines -/

/-- The engine of a number: tile × 4 + 0 matrix, 1 copy, 2 relay. -/
def engOf (n : Nat) : Eng := match n % 4 with | 0 => .mx | 1 => .cp | _ => .rl
def engNum (tile : Nat) (e : Eng) : Nat := tile * 4 + (match e with | .mx => 0 | .cp => 1 | .rl => 2)
def Core.eng (c : Core) (e : Eng) : Engine := match e with | .mx => c.mx | .cp => c.cp | .rl => c.rl
def Core.setEng (c : Core) (e : Eng) (x : Engine) : Core :=
  match e with | .mx => { c with mx := x } | .cp => { c with cp := x } | .rl => { c with rl := x }

end Sys2Proof.Machine
end

