-- ==== Sys2Proof/Machine/Home.lean ====
section
/-! DEFINITION. What happens to an access at its home (spec/04_ordering.md R69 to R78, R89 to R91, spec/05 R105,
spec/08 R171 to R174, R188 to R191, R377, spec/09 R208, R212): performance in the home order, reservations and their
queues, bank classes, the drawer cache, and the requests that leave for a drawer or a peer. -/

namespace Sys2Proof.Machine

/-! ## Memory through a launch's shadows (R212) -/

/-- The shadow version of a drawer page that a launch reads and writes. -/
def shadowOf (s : State) (lid pa : Nat) : Option (List Host.Cell) :=
  if isDrawer pa ∧ pkgOf pa = s.pkg then tfind (s.launch lid).shadows (pa / 4096) else none

/-- A byte as an access of a launch reads it. -/
def readAt (s : State) (lid pa : Nat) : Byte :=
  match shadowOf s lid pa with
  | some m => readByte m pa
  | none => readByte s.mem pa

/-- The cells of one page. -/
def pageCells (m : List Host.Cell) (page : Nat) : List Host.Cell := m.filter fun c => c.1 / 4096 == page

/-- A launch's shadows made current (R212). -/
def commitShadows (s : State) (lid : Nat) : State :=
  let l := s.launch lid
  let s := l.shadows.foldl (fun s sh =>
    let inside (a : Nat) : Bool := a / 4096 == sh.1
    sh.2.foldl (fun s c => { s with mem := writeByte s.mem c.1 c.2 })
      { s with
        mem := s.mem.filter fun c => !inside c.1
        poison := s.poison.filter fun w => !inside (8 * w) }) s
  { s.updLaunch lid fun l => { l with shadows := [], shadowLost := [] } with poison := s.poison ++ l.shadowLost }

/-- Pages of the reserve in use (R211). -/
def shadowPages (s : State) : Nat := (s.launches.map fun l => l.2.shadows.length).sum

/-- A byte written by an access of a launch: a replayable launch's first write to a drawer page copies its shadow; where
the reserve is exhausted its shadows are committed at once and it is replayable no more (Table 9-7). A launch that has become
non-replayable in another way goes on with the shadows it has, and makes no more (DESIGN CHOICE, log entry 105). -/
def writeAt (s : State) (lid pa : Nat) (b : Byte) : State :=
  let page := pa / 4096
  let plain : State := { s with mem := writeByte s.mem pa b }
  if isDrawer pa ∧ pkgOf pa = s.pkg then
    let l := s.launch lid
    match tfind l.shadows page with
    | some m => s.setLaunch lid { l with shadows := tset l.shadows page (writeByte m pa b) }
    | none =>
      if l.rpl && !l.nrpl then
        if shadowPages s < s.reserve then
          s.setLaunch lid { l with
            shadows := tset l.shadows page (writeByte (pageCells s.mem page) pa b)
            shadowLost := l.shadowLost ++ s.poison.filter fun w => 8 * w / 4096 == page }
        else
          let t := (commitShadows s lid).updLaunch lid fun x => { x with nrpl := true }
          { t with mem := writeByte t.mem pa b }
      else plain
  else plain

/-! ## Parts and requests -/

def State.req (s : State) (id : Nat) : Option Req := s.reqs.find? fun r => r.id == id

def State.updReq (s : State) (id : Nat) (f : Req → Req) : State :=
  { s with reqs := lupd (fun r => r.id == id) f s.reqs }

def setStage (s : State) (id i : Nat) (g : Stage) : State :=
  s.updReq id fun r => { r with parts := r.parts.mapIdx fun j p => if j = i then { p with stage := g } else p }

def setBuf (s : State) (id : Nat) (b : List Byte) : State := s.updReq id fun r => { r with buf := b }

/-- A part fails (R75, R309): the fault kept is that of the failing part with the lowest index. -/
def failPart (s : State) (r : Req) (i : Nat) (f : FaultRec) : State :=
  let earlier := (r.parts.take i).any fun p => p.stage == .failed
  (setStage s r.id i .failed).updReq r.id fun r => { r with fault := if earlier then r.fault else some f }

/-- The physical address of a part's first byte. -/
def Part.pa (p : Part) : Nat := (p.moves.headD (0, 0)).1

/-- The 8-byte words a part touches, by address ÷ 8. -/
def Part.words (p : Part) : List Nat := (p.moves.map fun m => m.1 / 8).eraseDups

/-- The part covers every byte of a word. -/
def Part.covers (p : Part) (w : Nat) : Bool := (List.range 8).all fun k => p.moves.any fun m => m.1 == 8 * w + k

/-- The data of a part in the order of its moves. -/
def partBytes (r : Req) (p : Part) : List Byte := p.moves.map fun m => r.buf.getD m.2 0

/-- The UNCORR of a poisoned word (Table 9-6). -/
def uncorrAt (p : Part) : FaultRec := ⟨.uncorr, if isSram p.pa then 2 else 3, p.va, none, false⟩

/-- A word as an access of a launch finds it cannot be corrected (R208, R212). -/
def wordLost (s : State) (lid w : Nat) : Bool :=
  if (shadowOf s lid (8 * w)).isSome then (s.launch lid).shadowLost.contains w else s.poison.contains w

/-- R208: a load consumes a poisoned word. -/
def loadPoison (s : State) (lid : Nat) (p : Part) : Bool := p.words.any (wordLost s lid)

/-- R208: a store narrower than a poisoned word. A store of some bits of each of its bytes (R313) counts as one of all eight
(DESIGN CHOICE, log entry 104). -/
def storePoison (s : State) (lid : Nat) (p : Part) : Bool := p.words.any fun w => wordLost s lid w && !p.covers w

/-- A part's bytes read into its buffer. -/
def readPart (s : State) (r : Req) (p : Part) : List Byte :=
  p.moves.foldl (fun b m => b.set m.2 (readAt s r.lid m.1)) r.buf

/-- A word written whole is good again, where it was written: in a launch's shadow or in memory (R208, R212). -/
def mendWord (s : State) (lid w : Nat) : State :=
  if (shadowOf s lid (8 * w)).isSome then
    s.updLaunch lid fun l => { l with shadowLost := l.shadowLost.filter (· != w) }
  else { s with poison := s.poison.filter (· != w) }

/-- Bytes written at a part's places, in order; words written whole lose their poison. -/
def writePart (s : State) (lid : Nat) (p : Part) (data : List Byte) : State :=
  (p.words.filter p.covers).foldl (fun s w => mendWord s lid w)
    ((p.moves.zip data).foldl (fun s x => writeAt s lid x.1.1 x.2) s)

/-- The bits a mask keeps of the old byte, the others from the data. -/
def maskedBytes (s : State) (lid : Nat) (p : Part) (keep data : List Byte) : List Byte :=
  (p.moves.zip data).map fun x => (readAt s lid x.1.1 &&& ~~~(keep.getD x.1.2 0)) ||| (x.2 &&& keep.getD x.1.2 0)

/-- The tag byte of a granule (Table 4-1); 0x00 where none is listed. -/
def State.tag (s : State) (granule : Nat) : Byte := tget s.tags granule 0
/-- A tag written; 0x00 is not listed. -/
def State.setTag (s : State) (granule : Nat) (b : Byte) : State :=
  { s with tags := if b = 0 then tdel s.tags granule else tset s.tags granule b }

/-- The stamp of a sequence: FULL set (R82). -/
def stampByte (seq : Nat) : Byte := BitVec.ofNat 8 (128 + seq % 128)

/-! ## Reservations (R89, R90, R105) -/

/-- The number by which a bank knows an access's thread: for a packet of another package its package and tile, which are
what the packet names; engine beats have none, nor have the beats of a route. -/
def Req.holder (r : Req) : Option Nat :=
  match r.owner with
  | .thread k => some k
  | .peer pkg tile _ _ _ => if r.fin = .engineBytes then none else some (2 ^ 20 + pkg * 4096 + tile)
  | .engine _ _ _ => none

/-- A thread of this package. -/
def Req.local (r : Req) : Bool := match r.owner with | .thread _ => true | _ => false

/-- The reservation on a word at its home. -/
def resvOn (s : State) (home word : Nat) : Option Resv := (s.bank home).resv.find? fun v => v.word == word

/-- The atomic reservation on a word at its home; its holder may hold a lock on the word as well (R89, R90). -/
def atomicOn (s : State) (home word : Nat) : Option Resv :=
  (s.bank home).resv.find? fun v => v.word == word && v.lock.isNone

/-- A thread of this package or a tile of another holds a reservation or lock on a word. -/
def holds (s : State) (home word : Nat) (r : Req) : Bool :=
  match resvOn s home word with
  | some v => some v.holder == r.holder
  | none => false

def addResv (s : State) (home : Nat) (v : Resv) : State := s.updBank home fun b => { b with resv := b.resv ++ [v] }

/-- A lock on a word, by its context and hold, leaves its bank. -/
def dropLock (s : State) (home word ctx hold : Nat) : State :=
  s.updBank home fun b => { b with resv := b.resv.filter fun v => !(v.word == word && v.lock == some (ctx, hold)) }

/-- The atomic reservation on a word leaves its bank and its holder. -/
def dropResv (s : State) (home word : Nat) : State :=
  let s := s.updBank home fun b => { b with resv := b.resv.filter fun v => !(v.word == word && v.lock.isNone) }
  { s with threads := s.threads.map fun p =>
      (p.1, if p.2.reserved = some word then { p.2 with reserved := none } else p.2) }

/-- Requests that take a ticket (R105). -/
def ReqKind.ticketed : ReqKind → Bool
  | .rsv | .amo _ _ _ | .lock _ _ => true
  | _ => false

/-- Operations that other threads' reservations hold back (R89); engine beats never are (R91). -/
def ReqKind.heldBack : ReqKind → Bool
  | .store | .storeMask _ | .rsv | .amo _ _ _ | .lock _ _ => true
  | _ => false

/-- A part waits in a word's queue, or is deferred from it. -/
def Part.ticket (p : Part) : Option Nat := match p.stage with | .queued t => some t | .deferred t _ => some t | _ => none

/-- Some request queued on a word, apart from request `id`. -/
def queuedOn (s : State) (id word : Nat) : Bool :=
  s.reqs.any fun r => r.id != id && r.parts.any fun p => p.ticket.isSome && p.words.contains word

/-- R89: a part may not be performed now: another thread holds one of its words. A thread's own request waits for the end
of the atomic reservation it holds. -/
def heldOff (s : State) (home : Nat) (r : Req) (p : Part) : Bool :=
  r.kind.heldBack && r.holder.isSome &&
    p.words.any fun w => ((resvOn s home w).isSome && !holds s home w r) ||
      (r.kind.ticketed && (atomicOn s home w).isSome)

/-- R89: a part that arrives queues behind what waits on its words, but for the words that its own thread holds. -/
def mustQueue (s : State) (home : Nat) (r : Req) (p : Part) : Bool :=
  r.kind.heldBack && r.holder.isSome &&
    (heldOff s home r p || p.words.any fun w => queuedOn s r.id w && !holds s home w r)

/-- The result of an atomic at width `w`: the new value, none where a compare fails (Table 15-5). -/
def amoValue (op : AmoOp) (w old x c : Nat) : Option Nat :=
  match op with
  | .add => some ((old + x) % 2 ^ w)
  | .and => some (old &&& x)
  | .or => some (old ||| x)
  | .xor => some (old ^^^ x)
  | .min => some (if sgnN w x < sgnN w old then x else old)
  | .max => some (if sgnN w old < sgnN w x then x else old)
  | .minu => some (min old x)
  | .maxu => some (max old x)
  | .swap => some x
  | .cas => if old = c then some x else none

/-- The life a keeper uses (R107): L raised to 1,024 ns and cut to the kind's maximum. -/
def keptLife (l maximum : Nat) : Nat := max 1024 (min l maximum)

/-- The maximum lives of Table 1-11. -/
def maxLife : HoldKind → Nat
  | .lock _ _ => 1000000
  | .context => 60000000000
  | _ => 2 ^ 32

def State.hold (s : State) (ctx i : Nat) : Option Hold := tfind (s.ctx ctx).holds i
def State.setHold (s : State) (ctx i : Nat) (h : Hold) : State := s.updCtx ctx fun c => { c with holds := tset c.holds i h }
/-- A handle: the reuse count and the index (R28). -/
def handleOf (h : Hold) (i : Nat) : Nat := h.reuse.toNat * 4096 + i

/-- The hold clock of a context: the time base, standing still while it is frozen (R110). -/
def ctxNow (s : State) (ctx : Nat) : Nat := (s.ctx ctx).frozenAt.getD s.ptb

/-- R89, R105, R323: the bank grants the word: its value is returned, the term begins. A line that came for it where the die
has no carve is not kept (R190). -/
def grant (s : State) (home : Nat) (r : Req) (i : Nat) (p : Part) : State :=
  let s := if isSram p.pa then s else
    s.updDie (p.pa / 128 % 4) fun d => { d with arrived := d.arrived.filter (· != p.pa / 128) }
  let w := p.pa / 8
  let key := r.holder.getD 0
  match r.kind with
  | .lock ctx h =>
    let s := addResv (setStage s r.id i .done) home ⟨w, key, some (ctx, h), s.ptb⟩
    match s.hold ctx h with
    | some x => s.setHold ctx h { x with
        reuse := if x.issued then x.reuse + 1 else x.reuse
        issued := true
        live := true
        granted := ctxNow s ctx
        expiry := ctxNow s ctx + x.expiry }
    | none => s
  | _ =>
    if loadPoison s r.lid p then failPart s r i (uncorrAt p)
    else
      let s := addResv (setBuf s r.id (readPart s r p)) home ⟨w, key, none, s.cycle⟩
      let s := if r.local then s.updThr key fun t => { t with reserved := some w } else s
      match r.kind with
      | .amo _ _ _ => setStage s r.id i .granted
      | _ => setStage s r.id i .done

/-! ## Performance (R69 to R71) -/

/-- R82: some beat of the running command to a granule (by virtual address) is still to be performed. -/
def beatLeft (s : State) (tile : Nat) (e : Eng) (g : Nat) : Bool :=
  match ((s.core tile).eng e).run with
  | none => true
  | some run =>
    match kindOf run.cmd.word with
    | none => true
    | some k =>
      (s.reqs.any fun q => (match q.owner with | .engine t f _ => t == tile && f == e | _ => false) && q.kind == .store &&
        q.parts.any fun p => p.stage != .done && p.va / 64 == g) ||
      (run.items.any fun i => spanTouches k run.cmd.word g i.idx &&
        (match i.stage with
        | .performed | .sent _ _ => false
        | .writing id => i.bad && !(s.req id).any fun q => q.parts.any fun p => p.va / 64 == g
        | _ => true)) ||
      (List.range (run.nitems - run.next)).any fun j => spanTouches k run.cmd.word g (run.next + j)

/-- R82: with the command's last beat to a granule of SRAM, the granule is stamped. -/
def stampBeat (s : State) (r : Req) (p : Part) : State :=
  match r.owner, r.stamp with
  | .engine tile e _, some q =>
    if isSram p.pa && !beatLeft s tile e (p.va / 64) then s.setTag (p.pa / 64) (stampByte q) else s
  | .peer _ _ _ _ _, some q =>
    let g := p.pa / 64
    let open' := match s.reqs.find? fun x => x.id == r.id with
      | some x => x.parts.any fun y => y.stage != .done && y.pa / 64 == g
      | none => false
    if isSram p.pa && !open' && (r.last || decide ((g + 1) * 64 ≤ r.va + r.size)) then s.setTag g (stampByte q) else s
  | _, _ => s

/-- A part performed at its home at one instant, the word or line being there. -/
def perform (s : State) (home : Nat) (r : Req) (i : Nat) (p : Part) : State :=
  let done (s : State) : State := setStage s r.id i .done
  let store (data : List Byte) : State :=
    if storePoison s r.lid p then failPart s r i (uncorrAt p)
    else
      let s := stampBeat (done (writePart s r.lid p data)) r p
      -- a plain store of the holder is its `wrv` (R89)
      p.words.foldl (fun s w =>
        if holds s home w r && !r.rlx then dropResv s home w else s) s
  match r.kind with
  | .load => if loadPoison s r.lid p then failPart s r i (uncorrAt p) else done (setBuf s r.id (readPart s r p))
  | .store => store (partBytes r p)
  | .storeMask keep => store (maskedBytes s r.lid p keep (partBytes r p))
  | .tagRd => done (setBuf s r.id [s.tag (p.pa / 64)])
  | .tagSet seq => done (s.setTag (p.pa / 64) (stampByte seq))
  | .tagClr => done (s.setTag (p.pa / 64) (s.tag (p.pa / 64) &&& 0x7F))
  | .sync seq =>
    let t := s.tag (p.pa / 64)
    if t.toNat < 128 then s
    else if t.toNat % 128 ≠ seq then failPart s r i ⟨.sched, t.toNat, p.va, none, false⟩
    else if loadPoison s r.lid p then failPart s r i (uncorrAt p)
    else done (setBuf s r.id (readPart s r p))
  | .wrv =>
    match resvOn s home (p.pa / 8) with
    | some v =>
      if some v.holder ≠ r.holder then failPart s r i ⟨.lapsed, 0, p.va, none, false⟩
      else if storePoison s r.lid p then failPart s r i (uncorrAt p)
      else
        dropResv (done (writePart s r.lid p (partBytes r p))) home (p.pa / 8)
    | none => failPart s r i ⟨.lapsed, 0, p.va, none, false⟩
  | .rsv | .amo _ _ _ | .lock _ _ => grant s home r i p

/-- R90, R319: the write of a granted atomic, LAPSED where its term has ended. -/
def amoWrite (s : State) (home : Nat) (r : Req) (i : Nat) (p : Part) : State :=
  match r.kind, atomicOn s home (p.pa / 8) with
  | .amo op x c, some v =>
    if some v.holder ≠ r.holder then failPart s r i ⟨.lapsed, 0, p.va, none, false⟩
    else
      let s := match amoValue op (8 * r.size) (leNat r.buf) (x % 2 ^ (8 * r.size)) (c % 2 ^ (8 * r.size)) with
        | some y => writePart s r.lid p (leBytes r.size y)
        | none => s
      setStage (dropResv s home (p.pa / 8)) r.id i .done
  | _, _ => failPart s r i ⟨.lapsed, 0, p.va, none, false⟩

/-! ## Packets out (R178, R182, R377) -/

/-- The header of a packet as its 16 bytes (Table 8-2). -/
def headerBytes (p : Packet) : List Byte :=
  leBytes 16 (p.type * 2 ^ 120 + p.len % 2 ^ 8 * 2 ^ 112 + p.cap % 2 ^ 16 * 2 ^ 96 + p.dstPkg % 2 ^ 8 * 2 ^ 88 +
    p.srcPkg % 2 ^ 8 * 2 ^ 80 + p.txid % 2 ^ 16 * 2 ^ 64 + p.srcTile % 2 ^ 12 * 2 ^ 52 + p.addr % 2 ^ 52)

/-- One bit of a CRC-64 with the polynomial of ECMA-182, the most significant bit first. -/
def crcBit (c : BitVec 64) (b : Bool) : BitVec 64 := if c.msb != b then c <<< 1 ^^^ 0x42F0_E1EB_A9EA_3693#64 else c <<< 1

/-- The CRC-64 of bytes. -/
def crc64 (l : List Byte) : BitVec 64 :=
  l.foldl (fun c b => (List.range 8).foldl (fun c i => crcBit c (b.getLsbD (7 - i))) c) 0

/-- R178: the CRC over a packet's header and every payload byte. -/
def packetCrc (p : Packet) : BitVec 64 := crc64 (headerBytes p ++ p.payload)

/-- A packet as a port sends it: its header beat carries its CRC (R178). -/
def sealed (p : Packet) : Packet := { p with crc := packetCrc p }

/-- A packet of this package; LEN counts the beats of its payload, which comes in steps of 32 bytes (R178). -/
def mkPacket (s : State) (type cap dst txid tile addr : Nat) (payload : List Byte) : Packet where
  type := type
  len := payload.length / 32
  cap := cap
  dstPkg := dst
  srcPkg := s.pkg
  txid := txid
  srcTile := tile
  addr := addr
  payload := payload
  crc := 0
  stamp := none

/-- A transaction tag: 16 bits, a number of its own while it is in use. -/
def State.txid (s : State) : Nat := s.nextId % 65536

/-- The path between a tile and the port controllers in ns: 40 cycles (R377). -/
def homePath : Nat := 18

/-- A packet joins a port's FIFO of an owner, with its CRC, not to depart before a PTB. -/
def sendAfter (s : State) (port : Nat) (owner : SlotOwner) (p : Packet) (after : Nat) : State :=
  { s.updPort port (fun q => { q with fifo := q.fifo ++ [⟨owner, sealed p, after, 1 + p.len⟩] }) with nextId := s.nextId + 1 }

/-- A packet of a tile joins a port's FIFO of an owner, its path to the port before it (R377). -/
def sendPacket (s : State) (port : Nat) (owner : SlotOwner) (p : Packet) : State := sendAfter s port owner p (s.ptb + homePath)

/-- The capability an access carries (R156): the key of its context, 0 for firmware. -/
def Req.cap (s : State) (r : Req) : Nat :=
  match r.owner with
  | .thread k => if privileged k then 0 else (s.ctx r.ctx).pkey.toNat
  | .engine _ _ _ => (s.ctx r.ctx).pkey.toNat
  | .peer _ _ _ _ cap => cap

/-- The tile an access comes from. -/
def Req.tile (r : Req) : Nat := match r.owner with | .thread k => tileOf k | .engine t _ _ => t | .peer _ t _ _ _ => t

/-- A part's request sent to its drawer or to the package of its home, its answer awaited (R78, R182). -/
def sendPart (s : State) (port die type : Nat) (r : Req) (i : Nat) (p : Part) : State :=
  let x := s.txid
  sendPacket (setStage s r.id i (.sent x port)) port (.pool die) (mkPacket s type (r.cap s) (pkgOf p.pa) x r.tile p.pa [])

/-- The first aligned 32-byte beat that a part touches, and how many it spans (R178). -/
def Part.beats (p : Part) : Nat × Nat :=
  let bs := p.moves.map fun m => m.1 / 32
  let lo := bs.foldl min (p.pa / 32)
  (lo, bs.foldl max (p.pa / 32) + 1 - lo)

/-- The beats of a part's bytes `data`, in the order of its moves, and of the bits of each that it writes; of two places of one
byte the later one holds its value (R74). -/
def Part.payload (p : Part) (data keep : List Byte) : List (Byte × Byte) :=
  let ms := (p.moves.zip (data.zip keep)).reverse
  (List.range (32 * p.beats.2)).map fun k =>
    match ms.find? fun m => m.1.1 == 32 * p.beats.1 + k with
    | some m => m.2
    | none => (0, 0)

/-- The bits of a part's bytes that its access writes: those of its mask, else all (R313). -/
def keptBits (r : Req) (p : Part) : List Byte :=
  p.moves.map fun m => match r.kind with | .storeMask k => k.getD m.2 0 | _ => 0xFF

/-- A part's bytes sent to its drawer or peer in one packet, and so performed at one instant (R71, R74, R78): whole beats, of
which it writes the bits that its mask sets (DESIGN CHOICE, log entry 30). One that writes nothing is done. -/
def sendBytes (s : State) (port die type : Nat) (r : Req) (i : Nat) (p : Part) (data : List Byte) : State :=
  let bs := p.payload data (keptBits r p)
  if bs.all fun b => b.2 == 0 then setStage s r.id i .done
  else
    let x := s.txid
    sendPacket (setStage s r.id i (.sent x port)) port (.pool die)
      { mkPacket s type (r.cap s) (pkgOf p.pa) x r.tile (32 * p.beats.1) (bs.map (·.1)) with
        keep := if bs.all fun b => b.2 == 0xFF then [] else bs.map (·.2) }

/-- A store's part sent to its drawer or peer. -/
def sendStore (s : State) (port die : Nat) (r : Req) (i : Nat) (p : Part) : State :=
  sendBytes s port die 0x03 r i p (partBytes r p)

/-- A lock's number in a packet of TYPE 0x05: context and index (log entry 75). -/
def lockNumber (ctx hold : Nat) : Nat := ctx * 4096 + hold

/-- The number that says in such a packet that the sending tile's atomic reservation on the word ends; above it, those of its
requests for one that are withdrawn, by their tags (log entry 75). -/
def endNumber : Nat := 2 ^ 17
def withdrawNumber (txid : Nat) : Nat := endNumber + 1 + txid

/-- A request for a reservation or a lock sent to the package of its word's home (R89, R182). -/
def askPart (s : State) (port die : Nat) (r : Req) (i : Nat) (p : Part) : State :=
  let x := s.txid
  sendPacket (setStage s r.id i (.asked x port)) port (.pool die)
    { mkPacket s 0x05 (r.cap s) (pkgOf p.pa) x r.tile p.pa [] with
      stamp := match r.kind with | .lock ctx h => some (lockNumber ctx h, true) | _ => none }

/-- The port the pod routing table names for a package (R182). -/
def portFor (s : State) (pkg : Nat) : Option Nat := tfind s.routing pkg

/-! ## The drawer cache (R189, R191) -/

def lineOf (pa : Nat) : Nat := pa / 128

/-- Sets of the cache at a carve (R189): its width w is 7, 8 or 9. -/
def setBits (carve : Nat) : Nat := if carve ≥ 512 then 9 else if carve ≥ 256 then 8 else 7

/-- The home tile and the set of a line, as one number. -/
def cacheSet (carve line : Nat) : Nat := drawerHome (line * 128) * 512 + line * 128 / 2 ^ 19 % 2 ^ setBits carve

def cached (d : Die) (line : Nat) : Bool := d.cache.any fun l => l.addr == line

/-- A line used: it moves to the front, dirty where it is written; a prefetched line's first demand use counts
(R225). -/
def touchLine (s : State) (die line : Nat) (write : Bool) : State :=
  s.updDie die fun d =>
    match d.cache.find? fun l => l.addr == line with
    | none => d
    | some l =>
      let first := l.prefetch && !l.used
      { d with
        cache := { l with dirty := l.dirty || write, used := true } :: d.cache.filter (fun x => !(x.addr == line))
        pfCounts := if first then d.pfCounts.set 1 (d.pfCounts[1] + 1) else d.pfCounts }

/-- A read request of a line joins its pool (R189). A line that waits for its write-back is asked for behind it. -/
def requestLine (s : State) (die line port : Nat) (prefetch : Bool) : State :=
  if (s.die die).backs.contains line then s
  else
  let x := s.txid
  let s := s.updDie die fun d =>
    { d with
      fills := d.fills ++ [⟨line, x, port, prefetch, !prefetch, false⟩]
      pfCounts := if prefetch then d.pfCounts.set 0 (d.pfCounts[0] + 1) else d.pfCounts }
  sendPacket s port (.pool die) (mkPacket s 0x01 0 s.pkg x (drawerHome (line * 128)) (line * 128) [])

/-- R191: the first line that the prefetcher has still to request enters its pool FIFO while that FIFO is empty, so that it
never delays a demand fill; one that has come meanwhile, or is on its way, is passed over. With EN clear none enters. -/
def pumpPrefetch (s : State) (die : Nat) : State :=
  let d := s.die die
  if !d.pfctl.getLsbD 0 then (if d.pfWant.isEmpty then s else s.setDie die { d with pfWant := [] })
  else match d.pfWant.filter fun n => !cached d n && !d.fills.any fun f => f.addr == n && !f.back with
  | [] => if d.pfWant.isEmpty then s else s.setDie die { d with pfWant := [] }
  | n :: r =>
    match windowPort s (n * 128) with
    | none => s.setDie die { d with pfWant := r }
    | some port =>
      if (s.port port).fifo.all fun o => o.owner != .pool die then
        requestLine (s.setDie die { d with pfWant := r }) die n port true
      else s

/-- R191: the lines that a demand miss makes the prefetcher want: where an earlier miss lies 512 bytes away in its 4 KiB
region, the next DEPTH lines of this die in the same direction within that region; with an earlier miss on either side, in
both directions. -/
def prefetchLines (d : Die) (line : Nat) : List Nat :=
  let depth := d.pfctl.toNat / 16 % 16
  let below := decide (4 ≤ line) && d.missed.contains (line - 4) && (line - 4) / 32 == line / 32
  let above := d.missed.contains (line + 4) && (line + 4) / 32 == line / 32
  let up := (List.range depth).map fun k => line + 4 * (k + 1)
  let down := ((List.range depth).filter fun k => 4 * (k + 1) ≤ line).map fun k => line - 4 * (k + 1)
  if !d.pfctl.getLsbD 0 then []
  else ((if below then up else []) ++ (if above then down else [])).filter fun n => n / 32 == line / 32

/-- A demand miss as the prefetcher of its die sees it. -/
def prefetchOn (s : State) (die line : Nat) : State :=
  let d := s.die die
  let new := (prefetchLines d line).filter fun n => !d.pfWant.contains n
  pumpPrefetch (s.setDie die { d with
    missed := if d.missed.contains line then d.missed else line :: d.missed
    pfWant := d.pfWant ++ new }) die

/-- A demand miss (R189): its line is requested where no fill of it is under way; each that finds its line under way on a
prefetch counts in PFLATE and PFUSE (R225). -/
def missLine (s : State) (die line port : Nat) : State :=
  match (s.die die).fills.find? fun f => f.addr == line && !f.back with
  | some f =>
    s.updDie die fun d =>
      { d with
        fills := lupd (fun g => g.txid == f.txid) (fun g => { g with demanded := true }) d.fills
        pfCounts := if f.prefetch then
            (d.pfCounts.set 1 (d.pfCounts[1] + 1)).set 2 (d.pfCounts[2] + 1)
          else d.pfCounts }
  | none => prefetchOn (requestLine s die line port false) die line

/-! ## The bank (R105, R171, R173) -/

/-- The class of a request at a bank, by its place in the counters (Table 8-1). -/
def bankClass (r : Req) (home : Nat) : Nat :=
  match r.owner with
  | .thread k => if tileOf k = home then 0 else 3
  | .engine t e _ => if t = home then (match e with | .mx => 1 | _ => 2) else 3
  | .peer _ _ _ _ _ => 3

def bankCount (s : State) (home cls : Nat) : Nat := (s.bank home).counts.getD cls 0

/-- One grant of a class's budget: a cycle of the bank's port (R171). -/
def takeGrant (s : State) (home cls : Nat) : State :=
  s.updBank home fun b =>
    { b with counts := b.counts.setIfInBounds cls (b.counts.getD cls 0 - 1), busy := s.cycle + 1 }

/-- Grants of the firmware class that a bank owes, each taken in a cycle of its own (R171). -/
def owe (s : State) (home n : Nat) : State := s.updBank home fun b => { b with owed := b.owed + n }

/-- Waiting requests a bank stores (R105). -/
def stored (s : State) (home : Nat) : Nat :=
  (s.reqs.filter fun r => r.parts.any fun p =>
    (match p.stage with | .queued _ => true | _ => false) && homeTile s p.pa == some home).length

/-- A request takes its ticket, its number of arrival, and joins the word's queue; one that finds 64 stored is sent
back deferred (R105). -/
def enqueue (s : State) (home : Nat) (r : Req) (i : Nat) : State :=
  let t := (s.bank home).tickets
  let s := s.updBank home fun b => { b with tickets := b.tickets + 1 }
  setStage s r.id i (if stored s home < 64 then .queued t.toNat else .deferred t.toNat s.cycle)

/-- A word is at its home: in SRAM, in the cache, or come from its drawer for the requests queued on it (R190). -/
def present (s : State) (p : Part) : Bool :=
  isSram p.pa || cached (s.die (p.pa / 128 % 4)) (lineOf p.pa) || (s.die (p.pa / 128 % 4)).arrived.contains (lineOf p.pa)

/-- The parts queued on a word with their tickets: request, index, part. -/
def waitersOn (s : State) (word : Nat) : List (Req × Nat × Part × Nat) :=
  (s.reqs.map fun r => (r.parts.mapIdx fun i p => (i, p)).filterMap fun x =>
    match x.2.ticket with
    | some t => if x.2.words.contains word then some (r, x.1, x.2, t) else none
    | none => none).flatten

/-- Ticket `a` was given before ticket `b`, both of a 32-bit counter (R105). -/
def ticketBefore (a b : Nat) : Bool := a != b && decide ((b + 2 ^ 32 - a) % 2 ^ 32 < 2 ^ 31)

/-- The lowest ticket of a list. -/
def lowest (l : List (Req × Nat × Part × Nat)) : Option (Req × Nat × Part × Nat) :=
  l.foldl (fun a x => match a with | none => some x | some y => if ticketBefore x.2.2.2 y.2.2.2 then some x else some y) none

/-- A queued part whose turn on its word has come, no other thread holding the word. -/
def wordTurn (s : State) (home : Nat) (r : Req) (i : Nat) (p : Part) : Bool :=
  !heldOff s home r p && (match lowest (waitersOn s (p.pa / 8)) with
    | some x => x.1.id == r.id && x.2.1 == i
    | none => false)

/-- A synchronising load of a granule that is not FULL. -/
def notFull (s : State) (r : Req) (p : Part) : Bool :=
  match r.kind with | .sync _ => decide ((s.tag (p.pa / 64)).toNat < 128) | _ => false

/-- The classes in the order in which a bank serves them (R173): THR, MSH, MXR, CPY, FIL, FWR. -/
def classOrder : List Nat := [0, 3, 1, 2, 4, 5]

/-- An entry of a bank's queue still waits for its grant. -/
def stillWaits (s : State) (home : Nat) (x : Nat × Nat × Nat) : Bool :=
  match s.req x.1 with
  | none => false
  | some r =>
    match r.parts[x.2.1]? with
    | none => false
    | some p =>
      match p.stage with
      | .waiting => !notFull s r p
      | .granted => true
      | .queued _ => wordTurn s home r x.2.1 p
      | _ => false

/-- The head of a class's queue at a bank. -/
def bankHead (s : State) (home cls : Nat) : Option (Nat × Nat × Nat) :=
  (s.bank home).queue.find? fun x => x.2.2 == cls && stillWaits s home x

/-- A dirty line of a home waits for the grant of the fill class that reads it (R171, R189). -/
def backWaits (s : State) (home : Nat) : Bool := (s.die (dieOf home)).backs.any fun l => drawerHome (l * 128) == home

/-- R173: in this cycle the bank may grant to a class: it has granted nothing yet, the class has budget left, and no class
before it has both budget and a head that waits. -/
def classTurn (s : State) (home cls : Nat) : Bool :=
  (s.bank home).busy != s.cycle + 1 && bankCount s home cls != 0 &&
    ((classOrder.takeWhile (· != cls)).all fun c => bankCount s home c == 0 || (bankHead s home c).isNone) &&
    (cls != 5 || bankCount s home 4 == 0 || !backWaits s home)

/-- The bank may grant to part `i` of a request now: its class's turn, and nothing of the class before it. -/
def bankTurn (s : State) (home : Nat) (r : Req) (i : Nat) : Bool :=
  classTurn s home (bankClass r home) && (match bankHead s home (bankClass r home) with
    | some x => x.1 == r.id && x.2.1 == i
    | none => true)

/-- A part that must wait for its grant stands in its class's queue from its arrival on (R173). -/
def joinBank (s : State) (home : Nat) (r : Req) (i : Nat) : Option State :=
  if (s.bank home).queue.any fun x => x.1 == r.id && x.2.1 == i then none
  else some (s.updBank home fun b =>
    { b with queue := b.queue.filter (stillWaits s home) ++ [(r.id, i, bankClass r home)] })

/-- Bytes of an access that have reached a bank. -/
def movedAt (s : State) (r : Req) (home : Nat) : Nat :=
  ((r.parts.filter fun p => homeTile s p.pa == some home &&
    (match p.stage with | .waiting | .queued _ | .deferred _ _ => false | _ => true)).map fun p => p.moves.length).sum

/-- R171: a part needs a grant: every operation does, and a load or store one for each 256 bytes that it moves at a bank. -/
def needsGrant (s : State) (r : Req) (p : Part) (home : Nat) : Bool :=
  match r.kind with
  | .load | .store | .storeMask _ => movedAt s r home % 256 == 0 || decide (256 < movedAt s r home % 256 + p.moves.length)
  | _ => true

/-- The grant that a part takes at its bank. -/
def grantFor (s : State) (home : Nat) (r : Req) (i : Nat) (p : Part) : State :=
  if needsGrant s r p home then
    (takeGrant s home (bankClass r home)).updBank home fun b =>
      { b with queue := b.queue.filter fun x => !(x.1 == r.id && x.2.1 == i) }
  else s

/-- The line of a word that is not at its home is fetched, where it is not on its way (R189, R190). -/
def fetchFor (s : State) (p : Part) : State :=
  let die := p.pa / 128 % 4
  match windowPort s p.pa with
  | some port =>
    if (s.die die).carve = 0 then
      if (s.die die).fills.any (fun f => f.addr == lineOf p.pa && !f.back) then s
      else requestLine s die (lineOf p.pa) port false
    else missLine s die (lineOf p.pa) port
  | none => s

/-- An operation that may write its word. -/
def ReqKind.writes (k : ReqKind) : Bool := match k with | .load | .sync _ | .tagRd | .rsv | .lock _ _ => false | _ => true

/-- A cached line that an access of a drawer uses (R189). -/
def touchPart (s : State) (r : Req) (p : Part) : State :=
  if isSram p.pa then s else touchLine s (p.pa / 128 % 4) (lineOf p.pa) r.kind.writes

/-- R89, R105: after a reservation ends, the word's queue is served in ticket order: stores are performed, and the
first `rsv`, `amo` or `hold.lk` is granted, each with a grant of the bank (R171), for which it waits (ACCESS_AT_HOME). A
deferred request keeps its turn; a word that is not at its home is fetched first (R190). -/
def serveWord (home word : Nat) : Nat → State → State
  | 0, s => s
  | fuel + 1, s =>
    match lowest (waitersOn s word) with
    | none => s
    | some (r, i, p, _) =>
      if (match p.stage with | .deferred _ _ => true | _ => false) then s
      else if heldOff s home r p then s
      else if !isSram p.pa && (s.die (p.pa / 128 % 4)).carve == 0 && !r.kind.ticketed then
        -- the home holds no copy: a store goes to its drawer, which answers it (R190)
        match windowPort s p.pa with
        | some port =>
          if bankTurn s home r i then
            serveWord home word fuel (sendStore (grantFor s home r i p) port (p.pa / 128 % 4) r i p)
          else (joinBank s home r i).getD s
        | none => s
      else if !present s p then fetchFor s p
      else if !bankTurn s home r i then (joinBank s home r i).getD s
      else
        let s := touchPart (grantFor s home r i p) r p
        if r.kind.ticketed then grant s home r i p else serveWord home word fuel (perform s home r i p)

def serve (s : State) (home word : Nat) : State := serveWord home word (s.reqs.length + 1) s

/-- R90: a reservation ends, and the word's queue is served. -/
def endResv (s : State) (home word : Nat) : State := serve (dropResv s home word) home word

/-- R89: a plain store of the thread that holds a word is its `wrv`, which ends its atomic reservation there. -/
def endHeld (s : State) (home : Nat) (r : Req) (p : Part) : State :=
  p.words.foldl (fun s w => if holds s home w r && !r.rlx then endResv s home w else s) s

/-- A note to the package of a word's home that a reservation or a lock on it ends, or that a request for one is withdrawn,
by its number (DESIGN CHOICE, log entry 75); a write status answers it. -/
def tellHome (s : State) (die cap tile pa number : Nat) : State :=
  match portFor s (pkgOf pa) with
  | some port =>
    sendPacket s port (.pool die) { mkPacket s 0x05 cap (pkgOf pa) s.txid tile pa [] with stamp := some (number, false) }
  | none => s

/-- R319: the atomic reservation a thread holds, if any, ends with no write, at its home. -/
def endOwn (s : State) (key : Nat) : State :=
  match (s.thr key).reserved with
  | none => s
  | some w =>
    match homeTile s (8 * w) with
    | some h => endResv s h w
    | none =>
      tellHome (s.updThr key fun t => { t with reserved := none }) (dieOf (tileOf key)) (capOf s key) (tileOf key) (8 * w)
        endNumber

/-- After a part was performed: words whose reservation it ended are served. -/
def serveAfter (s : State) (home : Nat) (p : Part) : State :=
  p.words.foldl (fun s w => if (resvOn s home w).isNone then serve s home w else s) s

/-- R73, R74, R92: an earlier access of the same thread that must be performed first: one that shares a byte, or one that
shares a granule with a later load; and an earlier part of the same access that shares a byte (R314). -/
def behindEarlier (s : State) (r : Req) (i : Nat) (p : Part) : Bool :=
  let open' (q : Part) : Bool := q.stage != .done && q.stage != .failed
  let share (q : Part) : Bool := q.moves.any fun m => p.moves.any fun n => m.1 == n.1
  let granule (q : Part) : Bool := q.moves.any fun m => p.moves.any fun n => m.1 / 64 == n.1 / 64
  (r.local && s.reqs.any fun q =>
    q.holder == r.holder && q.seq < r.seq &&
      q.parts.any fun x => open' x && (share x || (r.kind == .load && granule x))) ||
  ((r.parts.take i).any fun q => open' q && share q)

/-- A synchronising load that finds its granule not FULL: its thread now waits on the granule (R83, Table 5-1). -/
def granuleWait (s : State) (r : Req) (p : Part) : Option State :=
  match r.kind, r.owner with
  | .sync _, .thread k =>
    if (s.tag (p.pa / 64)).toNat < 128 then
      (if (s.thr k).wait = some .granule then none
       else some (s.updThr k fun t => { t with wait := some .granule }))
    else some s
  | _, _ => some s

/-- A queued part moved on: its line fetched, or the bank's grant taken (R105, R173, R190). -/
def queuedAtHome (s : State) (home : Nat) (r : Req) (i : Nat) (p : Part) : Option State :=
  if !wordTurn s home r i p then none
  else if present s p || (!r.kind.ticketed && (s.die (p.pa / 128 % 4)).carve == 0) then
    (if bankTurn s home r i then some (serve s home (p.pa / 8)) else joinBank s home r i)
  else if (windowPort s p.pa).isNone || (s.die (p.pa / 128 % 4)).backs.contains (lineOf p.pa) ||
      (s.die (p.pa / 128 % 4)).fills.any (fun f => f.addr == lineOf p.pa && !f.back) then none
  else some (serve s home (p.pa / 8))

/-- A request takes its ticket and its place in its class's queue (R105, R173). -/
def joinQueue (s : State) (home : Nat) (r : Req) (i : Nat) : State :=
  let t := enqueue s home r i
  (joinBank t home r i).getD t

/-- A part arrives at its home tile of this package and is performed, queued, or sent on to its drawer. -/
def arriveHere (s : State) (home : Nat) (r : Req) (i : Nat) (p : Part) : State :=
  if isSram p.pa then serveAfter (perform s home r i p) home p
  else
    let die := p.pa / 128 % 4
    match windowPort s p.pa with
    | none => failPart s r i ⟨.xlate, 3, p.va, none, false⟩
    | some port =>
      if (s.die die).carve = 0 then
        match r.kind with
        | .load => sendPart s port die 0x01 r i p
        | .store | .storeMask _ => endHeld (sendStore s port die r i p) home r p
        | .wrv =>
          if holds s home (p.pa / 8) r then endResv (sendStore s port die r i p) home (p.pa / 8)
          else failPart s r i ⟨.lapsed, 0, p.va, none, false⟩
        | _ => fetchFor (enqueue s home r i) p
      else if cached (s.die die) (lineOf p.pa) then
        serveAfter (perform (touchPart s r p) home r i p) home p
      else if r.kind.ticketed then fetchFor (enqueue s home r i) p
      else missLine (setStage s r.id i (.filling (lineOf p.pa))) die (lineOf p.pa) port

/-- The write of a granted atomic at its home; where the home holds no copy it goes to the drawer. -/
def amoAtHome (s : State) (home : Nat) (r : Req) (i : Nat) (p : Part) : State :=
  if !isSram p.pa && (s.die (p.pa / 128 % 4)).carve == 0 then
    match r.kind, atomicOn s home (p.pa / 8), windowPort s p.pa with
    | .amo op x c, some v, some port =>
      if some v.holder ≠ r.holder then failPart s r i ⟨.lapsed, 0, p.va, none, false⟩
      else
        match amoValue op (8 * r.size) (leNat r.buf) (x % 2 ^ (8 * r.size)) (c % 2 ^ (8 * r.size)) with
        | some y => endResv (sendBytes s port (p.pa / 128 % 4) 0x03 r i p (leBytes r.size y)) home (p.pa / 8)
        | none => endResv (setStage s r.id i .done) home (p.pa / 8)
    | _, _, _ => failPart s r i ⟨.lapsed, 0, p.va, none, false⟩
  else
    serveAfter (amoWrite (touchPart s r p) home r i p) home p

/-- A part whose home is another package leaves as a packet (R78, R89, R182). -/
def leaveForPeer (s : State) (r : Req) (i : Nat) (p : Part) : Option State :=
  match portFor s (pkgOf p.pa) with
  | none => none
  | some port =>
    let die := dieOf r.tile
    some <| match r.kind with
    | .load => sendPart s port die 0x01 r i p
    | .rsv | .amo _ _ _ | .lock _ _ => askPart s port die r i p
    | .wrv => sendBytes s port die 0x05 r i p (partBytes r p)
    | _ => sendStore s port die r i p

/-- ACCESS_AT_HOME (R69): a part of an access reaches its home. -/
def atHome (s : State) (id i : Nat) : Option State :=
  match s.req id with
  | none => none
  | some r =>
    match r.parts[i]? with
    | none => none
    | some p =>
      match p.stage, homeTile s p.pa with
      | .waiting, none => if behindEarlier s r i p then none else leaveForPeer s r i p
      | .waiting, some h =>
        if behindEarlier s r i p then none
        else
          match granuleWait s r p with
          | none => none
          | some s' =>
            if notFull s r p then some s'
            else if mustQueue s h r p then some (enqueue s h r i)
            else if r.kind.ticketed && !present s p then some (fetchFor (enqueue s h r i) p)
            else if r.kind.ticketed && !bankTurn s h r i then some (joinQueue s h r i)
            else if needsGrant s r p h && !bankTurn s h r i then joinBank s h r i
            else some (arriveHere (grantFor s h r i p) h r i p)
      | .queued _, some h => queuedAtHome s h r i p
      | .granted, some h =>
        if !bankTurn s h r i then joinBank s h r i
        else some (amoAtHome (grantFor s h r i p) h r i p)
      | .granted, none =>
        match r.kind, portFor s (pkgOf p.pa) with
        | .amo op x c, some port =>
          match amoValue op (8 * r.size) (leNat r.buf) (x % 2 ^ (8 * r.size)) (c % 2 ^ (8 * r.size)) with
          | some y => some (sendBytes s port (dieOf r.tile) 0x05 r i p (leBytes r.size y))
          | none => some (setStage s r.id i .done)
        | _, _ => none
      | _, _ => none

def execAccessAtHome (id i : Nat) (s : State) : Host.Outcome State Fault Refusal :=
  event "ACCESS_AT_HOME" s (atHome s id i)

end Sys2Proof.Machine
end

