-- ==== Sys2Proof/Machine/Memory.lean ====
section
/-! DEFINITION. Majors 0x20 to 0x27: loads, stores, gathers, blocks, the relay's `vldr`, synchronising loads, atomics,
fences and `pf` (spec/15_isa_memory_sync.md R309 to R320). -/

namespace Sys2Proof.Machine

/-! ## Forms of an access -/

/-- One run of bytes at an offset from a pointer, aligned to itself. -/
def oneAcc (p : Word) (off : Int) (n al : Nat) (need : Need) (kind : Nat) : Acc where
  ptr := p
  pieces := [⟨(ptrVa p : Int) + off, n, 0⟩]
  al := al
  base := false
  tagged := false
  need := need
  fmtBad := false
  each := false
  kind := kind

/-- `oneAcc` on an address that needs granule tags (R317). -/
def tagAcc (p : Word) (n al : Nat) (need : Need) (kind : Nat) : Acc :=
  { oneAcc p 0 n al need kind with tagged := true, each := true }

/-- Element-wise pieces of width `w` at the addresses `f i` of the active elements (R312, R314). -/
def elemAcc (p : Word) (w : Nat) (m : Mask) (f : Nat → Int) (need : Need) (each : Bool) (kind : Nat) : Acc where
  ptr := p
  pieces := (actives w m).map fun i => ⟨(ptrVa p : Int) + f i, w / 8, i * (w / 8)⟩
  al := w / 8
  base := false
  tagged := false
  need := need
  fmtBad := false
  each := each
  kind := kind

/-- The pieces of a formatted access (Table 15-2): the bytes of each active element. -/
def fmtPieces (p : Word) (m : Mask) (fmt : Nat) : List Piece :=
  let sh := fmtShape fmt
  ((List.range sh.1).filter (active sh.2.2 m)).map fun i =>
    ⟨(ptrVa p : Int) + (i * sh.2.1 / 8 : Nat), max 1 (sh.2.1 / 8), i * sh.2.1 / 8⟩

/-- The pieces of a block access (R315): the scale of block `j`, and the bytes of each element the mask names. -/
def blockPieces (p : Word) (m : Mask) (fmt j : Nat) : List Piece :=
  let w := codeBits fmt
  ⟨(ptrVa p : Int) + (2 * j : Nat), 2, 0⟩ ::
    ((List.range 16).filter fun i => m.getLsbD i).map fun i =>
      ⟨(ptrVa p : Int) + (32 + j * 2 * w + i * w / 8 : Nat), max 1 (w / 8), 2 + i * w / 8⟩

/-- A formatted access by the FMT of its pointer (R309, R313); reserved codes touch the byte at the VA alone. -/
def fmtAcc (p : Word) (m : Mask) (need : Need) (kind : Nat) : Acc :=
  let fmt := ptrFmt p
  let blk : Bool := 16 ≤ fmt && fmt ≤ 20
  let ok := codeAssigned fmt
  { ptr := p
    pieces := if !ok then [⟨ptrVa p, 1, 0⟩] else if blk then blockPieces p m fmt 0 else fmtPieces p m fmt
    al := if !ok then 1 else if blk then 32 else max 1 (codeBits fmt / 8)
    base := true
    tagged := false
    need := need
    fmtBad := !ok || (blk && ptrBlen p != 0)
    each := false
    kind := kind }

/-- A block form (R309, R315). -/
def blkAcc (p : Word) (j : Nat) (need : Need) (kind : Nat) : Acc :=
  let blk : Bool := 16 ≤ ptrFmt p && ptrFmt p ≤ 20
  { ptr := p
    pieces := if blk then blockPieces p (BitVec.allOnes 16) (ptrFmt p) j else [⟨ptrVa p, 1, 0⟩]
    al := 32
    base := true
    tagged := false
    need := need
    fmtBad := !blk || ptrBlen p != 0
    each := false
    kind := kind }

/-- Bytes in the buffer of a formatted access. -/
def fmtSize (fmt : Nat) : Nat :=
  if 16 ≤ fmt ∧ fmt ≤ 20 then blockLen fmt else (fmtShape fmt).1 * (fmtShape fmt).2.1 / 8

/-! ## Majors 0x20 and 0x21 (R311) -/

def execLd (size : Width) (u rlx : Bool) (d base : SReg) (off : BitVec 8) (g : KReg) (s : State) :
    Host.Outcome State Fault Refusal :=
  let n := size.bits / 8
  run s (guarded s g (do
    ready s rlx
    loadIssue s rlx (oneAcc (s.rs base) (off.toInt * n) n n needR 1) .load n (.scalar d.val size.bits (!u))))

def execSt (size : Width) (rlx : Bool) (base : SReg) (off : BitVec 8) (d : SReg) (g : KReg) (s : State) :
    Host.Outcome State Fault Refusal :=
  let n := size.bits / 8
  run s (guarded s g (do
    ready s rlx
    storeIssue s rlx (oneAcc (s.rs base) (off.toInt * n) n n needW 2) .store n (leBytes n (s.rs d).toNat) cmpStore))

/-! ## Majors 0x22 and 0x23 (R312, R313) -/

/-- A load's destination: lanes of a register, or a message whose allowance is taken now (R236). -/
def lanesTo (s : State) (v : VFld) (w : Nat) (m : Mask) : Finish × State :=
  if isChan v then
    let (n, s) := takeCredit s v
    (.push (n.getD 0) w, s)
  else (.lanes v.val w m, s)

/-- A vector load (R309, R312): nothing where no element is active. -/
def vectorLoad (rlx : Bool) (v : VFld) (w : Nat) (m : Mask) (a : Acc) (kind : ReqKind) (s : State) : M State := do
  if (actives w m).isEmpty then .ok s
  else
    ready s rlx
    checkBound s [] (some v)
    checkReady s [] (some v)
    let (f, s) := lanesTo s v w m
    loadIssue s rlx a kind 64 f

/-- A vector store of register bytes. -/
def vectorStore (rlx : Bool) (v : VFld) (w : Nat) (m : Mask) (a : Acc) (s : State) : M State := do
  if !(actives w m).isEmpty then ready s rlx
  let (x, s) ← sources1 s v none
  if (actives w m).isEmpty then .ok s
  else storeIssue s rlx a .store 64 (vecBytes x) cmpStore

def execVld (e : Width) (rlx : Bool) (v : VFld) (base : SReg) (g : MReg) (s : State) :
    Host.Outcome State Fault Refusal :=
  run s (vectorLoad rlx v e.bits (s.rm g)
    (elemAcc (s.rs base) e.bits (s.rm g) (fun i => (i * (e.bits / 8) : Nat)) needR false 1) .load s)

def execVldS (e : Width) (rlx : Bool) (v : VFld) (base aux : SReg) (g : MReg) (s : State) :
    Host.Outcome State Fault Refusal :=
  run s (vectorLoad rlx v e.bits (s.rm g)
    (elemAcc (s.rs base) e.bits (s.rm g) (fun i => i * (s.rs aux).toInt) needR false 1) .load s)

def execVst (e : Width) (rlx : Bool) (base : SReg) (v : VFld) (g : MReg) (s : State) :
    Host.Outcome State Fault Refusal :=
  run s (vectorStore rlx v e.bits (s.rm g)
    (elemAcc (s.rs base) e.bits (s.rm g) (fun i => (i * (e.bits / 8) : Nat)) needW false 2) s)

def execVstS (e : Width) (rlx : Bool) (base : SReg) (v : VFld) (aux : SReg) (g : MReg) (s : State) :
    Host.Outcome State Fault Refusal :=
  run s (vectorStore rlx v e.bits (s.rm g)
    (elemAcc (s.rs base) e.bits (s.rm g) (fun i => i * (s.rs aux).toInt) needW false 2) s)

/-- A mask under which no element of a format is active. -/
def idle (fmt : Nat) (m : Mask) : Bool := !((List.range (fmtShape fmt).1).any (active (fmtShape fmt).2.2 m))

/-- The finish of a formatted load, a destination channel's allowance taken now. -/
def fmtTo (s : State) (v : VFld) (fmt : Nat) (m : Mask) : Finish × State :=
  let blk : Bool := 16 ≤ fmt && fmt ≤ 20
  if isChan v then
    let (n, s) := takeCredit s v
    (if blk then .block v.val n fmt m else .formatted v.val n fmt m, s)
  else (if blk then .block v.val none fmt m else .formatted v.val none fmt m, s)

def execVldF (rlx : Bool) (v : VFld) (base : SReg) (g : MReg) (s : State) : Host.Outcome State Fault Refusal :=
  let p := s.rs base
  let m := s.rm g
  run s (do
    if idle (ptrFmt p) m then .ok s
    else
      ready s rlx
      checkBound s [] (some v)
      checkReady s [] (some v)
      let (f, s) := fmtTo s v (ptrFmt p) m
      loadIssue s rlx (fmtAcc p m needR 1) .load (fmtSize (ptrFmt p)) f)

/-- One register element as the element of a format that a formatted store writes, and its flags (R313). -/
def fmtStore (v : Env) (fmt x : Nat) : Nat × BitVec 8 :=
  match fmt with
  | 1 | 2 | 3 | 12 | 13 => convert v 4 fmt x
  | 6 | 7 | 8 | 9 => convert v 10 fmt x
  | _ => (x, 0)

/-- One element of a register block as it is written: the TERN code 0b10 reads as 0 and raises TERNBAD, and is never written (R40;
log entry 115). -/
def blkStore (fmt x : Nat) : Nat × BitVec 8 := if fmt = 20 ∧ x = 2 then (0, fTERNBAD) else (x, 0)

/-- The bytes and the bit mask of a formatted store, and its flags. -/
def fmtOut (v : Env) (fmt : Nat) (m : Mask) (x : Vec) : List Byte × List Byte × BitVec 8 :=
  if 16 ≤ fmt ∧ fmt ≤ 20 then
    let w := codeBits fmt
    let r (i : Nat) := blkStore fmt (elem x w i)
    let ones := packN w (fun i => if m.getLsbD i then 2 ^ w - 1 else 0) 16
    (leBytes 2 (x.toNat / 2 ^ 496) ++ leBytes (2 * w) (packN w (fun i => (r i).1) 16), [0xFF, 0xFF] ++ leBytes (2 * w) ones,
      orFlags 16 fun i => if m.getLsbD i then (r i).2 else 0)
  else
    let sh := fmtShape fmt
    let r (i : Nat) := fmtStore v fmt (elem x sh.2.2 i)
    let ones := packN sh.2.1 (fun i => if active sh.2.2 m i then 2 ^ sh.2.1 - 1 else 0) sh.1
    (leBytes (fmtSize fmt) (packN sh.2.1 (fun i => (r i).1) sh.1), leBytes (fmtSize fmt) ones,
      orFlags sh.1 fun i => if active sh.2.2 m i then (r i).2 else 0)

def execVstF (rlx : Bool) (base : SReg) (v : VFld) (g : MReg) (s : State) : Host.Outcome State Fault Refusal :=
  let p := s.rs base
  let m := s.rm g
  let fmt := ptrFmt p
  run s (do
    if !idle fmt m then ready s rlx
    let (x, s) ← sources1 s v none
    if idle fmt m then .ok s
    else
      let o := fmtOut s.env fmt m x
      let whole := o.2.1.all fun b => b == 0xFF || b == 0
      let s ← storeIssue s rlx (fmtAcc p m needW 2) (if whole then .store else .storeMask o.2.1) (fmtSize fmt) o.1 cmpStore
      .ok (s.raise o.2.2))

/-! ## Major 0x24 (R314 to R316) -/

def execVgath (e : WW) (rlx : Bool) (v : VFld) (base : SReg) (aux : VFld) (g : MReg) (s : State) :
    Host.Outcome State Fault Refusal :=
  let m := s.rm g
  let w := e.bits
  run s (do
    if !(actives w m).isEmpty then ready s rlx
    let (x, s) ← sources1 s aux (some v)
    if (actives w m).isEmpty then .ok s
    else
      let (f, s) := lanesTo s v w m
      loadIssue s rlx (elemAcc (s.rs base) w m (fun i => sgnN w (elem x w i) * (w / 8 : Nat)) needR true 1) .load 64 f)

/-- The index vector is popped before the data (the order of the syntax). -/
def execVscat (e : WW) (rlx : Bool) (base : SReg) (aux v : VFld) (g : MReg) (s : State) :
    Host.Outcome State Fault Refusal :=
  let m := s.rm g
  let w := e.bits
  run s (do
    if !(actives w m).isEmpty then ready s rlx
    let (x, y, s) ← sources2 s aux v none
    if (actives w m).isEmpty then .ok s
    else
      storeIssue s rlx (elemAcc (s.rs base) w m (fun i => sgnN w (elem x w i) * (w / 8 : Nat)) needW true 2) .store 64
        (vecBytes y) cmpStore)

/-- A hold named by a handle, live and with its reuse count (R28). -/
def liveHold (s : State) (ctx handle : Nat) : Option Hold :=
  match s.hold ctx (handle % 4096) with
  | some h => if h.live && h.reuse.toNat == handle / 4096 % 16 then some h else none
  | none => none

/-- A group hold named by a handle. -/
def liveGroup (s : State) (ctx handle : Nat) : Option (List Word) :=
  match liveHold s ctx handle with
  | some h => match h.kind with | .group d _ => some d | _ => none
  | none => none

/-- The formats `vldr` takes (R316). -/
def ldrFmt (f : Nat) : Bool := f == 4 || f == 6 || f == 7 || f == 9 || f == 10

/-- A group as its partition names it (R325): the partition key and the GID of its descriptor. -/
def groupName (s : State) (ctx : Nat) (d : List Word) : Nat := (s.ctx ctx).pkey.toNat * 2 ^ 16 + wordAt d 0 % 2 ^ 16

/-- The name of the group that a handle of a context holds. -/
def groupKey (s : State) (ctx handle : Nat) : Nat := groupName s ctx ((liveGroup s ctx handle).getD [])

/-! ## Groups (Table 15-11) and pod barrier episodes (R139) -/

def grpId (d : List Word) : Nat := wordAt d 0 % 2 ^ 16
def grpHome (d : List Word) : Nat := bitsOf (wordAt d 0) 23 16
def grpMems (d : List Word) : Nat := bitsOf (wordAt d 0) 27 24
def grpMember (d : List Word) (i : Nat) : Nat := bitsOf (wordAt d (1 + i / 8)) (8 * (i % 8) + 7) (8 * (i % 8))
def grpCores (d : List Word) (i : Nat) : Nat := bitsOf (wordAt d (3 + i / 4)) (16 * (i % 4) + 15) (16 * (i % 4))
/-- The member packages in descriptor order. -/
def grpList (d : List Word) : List Nat := (List.range (grpMems d)).map (grpMember d)
/-- The place of a package among the members. -/
def grpIndex (d : List Word) (pkg : Nat) : Option Nat := idxOf (· == pkg) (grpList d) 0

/-- The cores of this package that take part (Table 15-11). -/
def myCores (s : State) (d : List Word) : Nat :=
  match grpIndex d s.pkg with | some i => grpCores d i | none => 0

/-- The group's descriptor by its partition and GID. -/
def groupByKey (s : State) (key : Nat) : Option (List Word) :=
  let f (c : Nat × Ctx) : Option (List Word) :=
    c.2.holds.findSome? fun h => match h.2.kind with
      | .group d _ => if h.2.live && groupName s c.1 d == key then some d else none
      | _ => none
  s.ctxs.findSome? f

def State.episode (s : State) (key tick : Nat) : Option Episode := s.episodes.find? fun e => e.key == key && e.tick == tick

/-- An episode recorded. -/
def setEpisode (s : State) (e : Episode) : State :=
  { s with episodes := (s.episodes.filter fun x => !(x.key == e.key && x.tick == e.tick)) ++ [e] }

/-- The flags of the cores of this package whose arrival stands, and those merged with the other members' (R54). -/
def Episode.mine (e : Episode) : BitVec 8 := e.tiles.foldl (fun f x => f ||| x.2) 0
def Episode.flags (e : Episode) : BitVec 8 := e.remote.foldl (fun f x => f ||| x.2) e.mine

/-- The member has arrived: as many of its cores as the group counts have (R139). -/
def memberArrived (s : State) (d : List Word) (e : Episode) : Bool := e.tiles.length == myCores s d

/-- A packet of this package that reports its arrival at an episode. -/
def ofEpisode (e : Episode) (p : Packet) : Bool :=
  p.type == 0x0C && p.cap * 2 ^ 16 + p.txid == e.key && p.stamp == some (e.tick, false)

/-- The arrival of this member reported to every other, with its flags; or, with `gone`, that it does not stand (log entries 11
and 98: what the packet's header carries). -/
def tellMembers (s : State) (tile : Nat) (d : List Word) (e : Episode) (gone : Bool) : State :=
  ((grpList d).filter (· != s.pkg)).foldl (fun s m =>
    match portFor s m with
    | none => s
    | some port =>
      sendPacket s port (.pool (dieOf tile))
        { mkPacket s 0x0C (e.key / 2 ^ 16) m (grpId d) e.mine.toNat (m * 4096) [] with stamp := some (e.tick, gone) }) s

/-! ## The access of `vldr` -/

def ldrPieces (p : Word) : List Piece :=
  if codeAssigned (ptrFmt p) then
    (List.range 16).map fun i =>
      ⟨(ptrVa p : Int) + (i * codeBits (ptrFmt p) / 8 : Nat), max 1 (codeBits (ptrFmt p) / 8),
        i * codeBits (ptrFmt p) / 8⟩
  else [⟨ptrVa p, 1, 0⟩]

/-- The access of a `vldr` (R309, R316). -/
def ldrAcc (p : Word) : Acc :=
  let fmt := ptrFmt p
  { ptr := p
    pieces := ldrPieces p
    al := if codeAssigned fmt then (if 16 ≤ fmt ∧ fmt ≤ 20 then 32 else max 1 (codeBits fmt / 8)) else 1
    base := true
    tagged := false
    need := needR
    fmtBad := !ldrFmt fmt
    each := false
    kind := 1 }

/-- R316: the access's own faults, then LAPSED of the group, then a watch; the 16 elements are read by a plain load; the round writes its result (RELAY_ROUND_SUM). -/
def execVldr (k : KReg) (v : VFld) (base aux : SReg) (s : State) : Host.Outcome State Fault Refusal :=
  let p := s.rs base
  let fmt := ptrFmt p
  let handle := (s.rs aux).toNat % 2 ^ 16
  run s (do
    plainReady s
    if isChan v then illegal s 2
    if s.me.role != .trailing then do
      let _ ← checkAcc s (ldrAcc p)
      ensure (liveGroup s (ctxOf s (tileOf s.cur)) handle).isSome .lapsed 0 handle
    loadIssue s false (ldrAcc p) .load (2 * codeBits fmt) (.ldr k.val v.val aux.val handle fmt))

/-- R315: the block index is `S[aux][3:0]`. -/
def execVldBlk (rlx : Bool) (v : VFld) (base aux : SReg) (s : State) : Host.Outcome State Fault Refusal :=
  let p := s.rs base
  run s (do
    ready s rlx
    checkBound s [] (some v)
    checkReady s [] (some v)
    let (n, s) := if isChan v then takeCredit s v else (none, s)
    loadIssue s rlx (blkAcc p ((s.rs aux).toNat % 16) needR 1) .load (blockLen (ptrFmt p))
      (.block v.val n (ptrFmt p) (BitVec.allOnes 16)))

def execVstBlk (rlx : Bool) (base : SReg) (v : VFld) (aux : SReg) (s : State) : Host.Outcome State Fault Refusal :=
  let p := s.rs base
  run s (do
    ready s rlx
    let (x, s) ← sources1 s v none
    let o := fmtOut s.env (ptrFmt p) (BitVec.allOnes 16) x
    let s ← storeIssue s rlx (blkAcc p ((s.rs aux).toNat % 16) needW 2) .store (blockLen (ptrFmt p)) o.1 cmpStore
    .ok (s.raise o.2.2))

/-! ## Major 0x25 (R317, R318) -/

/-- The expected sequence of a synchronising load: `S[b][6:0]`. -/
def seqOf (x : Word) : Nat := x.toNat % 128

def execLdSync (w : Width) (d a b : SReg) (g : KReg) (s : State) : Host.Outcome State Fault Refusal :=
  let n := w.bits / 8
  run s (guarded s g (do
    plainReady s
    loadIssue s false (tagAcc (s.rs a) n n needR 1) (.sync (seqOf (s.rs b))) n (.scalar d.val w.bits true)))

def execLdSyncU (w : NW) (d a b : SReg) (g : KReg) (s : State) : Host.Outcome State Fault Refusal :=
  let n := w.bits / 8
  run s (guarded s g (do
    plainReady s
    loadIssue s false (tagAcc (s.rs a) n n needR 1) (.sync (seqOf (s.rs b))) n (.scalar d.val w.bits false)))

def execGtagRd (d a : SReg) (g : KReg) (s : State) : Host.Outcome State Fault Refusal :=
  run s (guarded s g (do
    plainReady s
    loadIssue s false (tagAcc (s.rs a) 1 1 needR 1) .tagRd 1 (.tagByte d.val)))

def execGtagSet (a b : SReg) (g : KReg) (s : State) : Host.Outcome State Fault Refusal :=
  run s (guarded s g (do
    plainReady s
    storeIssue s false (tagAcc (s.rs a) 1 1 needRW 2) (.tagSet (seqOf (s.rs b))) 1
      [BitVec.ofNat 8 (seqOf (s.rs b))] cmpTagSet))

def execGtagClr (a : SReg) (g : KReg) (s : State) : Host.Outcome State Fault Refusal :=
  run s (guarded s g (do
    plainReady s
    storeIssue s false (tagAcc (s.rs a) 1 1 needRW 2) .tagClr 1 [] cmpTagClr))

/-- One whole granule, its active lanes written. -/
def execVldSync (d : VFld) (a b : SReg) (g : MReg) (s : State) : Host.Outcome State Fault Refusal :=
  run s (vectorLoad false d 32 (s.rm g) (tagAcc (s.rs a) 64 64 needR 1) (.sync (seqOf (s.rs b))) s)

/-! ## Major 0x26 (R319) -/

/-- R319: `rsv` first ends the atomic reservation the thread holds. -/
def execRsv (w : WW) (d a : SReg) (g : KReg) (s : State) : Host.Outcome State Fault Refusal :=
  let n := w.bits / 8
  run s (guarded s g (do
    plainReady s
    atomicIssue (endOwn s s.cur) (oneAcc (s.rs a) 0 n n needRW 2) .rsv n [] (.atomicOld d.val w.bits) false))

def execWrv (w : WW) (a b : SReg) (g : KReg) (s : State) : Host.Outcome State Fault Refusal :=
  let n := w.bits / 8
  run s (guarded s g (do
    plainReady s
    wrvIssue s (oneAcc (s.rs a) 0 n n needRW 2) n (leBytes n (s.rs b).toNat)))

/-- `rsv`, the operation and `wrv` as one instruction. -/
def amoOp (op : AmoOp) (w : WW) (d a b : SReg) (g : KReg) (s : State) : Host.Outcome State Fault Refusal :=
  let n := w.bits / 8
  let x := (s.rs b).toNat % 2 ^ w.bits
  let c := if op = .cas then (s.rs d).toNat % 2 ^ w.bits else 0
  run s (guarded s g (do
    plainReady s
    atomicIssue (endOwn s s.cur) (oneAcc (s.rs a) 0 n n needRW 2) (.amo op x c) n [x, c]
      (.atomicOld d.val w.bits) true))

def execAmoAdd (w : WW) (d a b : SReg) (g : KReg) (s : State) : Host.Outcome State Fault Refusal := amoOp .add w d a b g s
def execAmoAnd (w : WW) (d a b : SReg) (g : KReg) (s : State) : Host.Outcome State Fault Refusal := amoOp .and w d a b g s
def execAmoOr (w : WW) (d a b : SReg) (g : KReg) (s : State) : Host.Outcome State Fault Refusal := amoOp .or w d a b g s
def execAmoXor (w : WW) (d a b : SReg) (g : KReg) (s : State) : Host.Outcome State Fault Refusal := amoOp .xor w d a b g s
def execAmoMin (w : WW) (d a b : SReg) (g : KReg) (s : State) : Host.Outcome State Fault Refusal := amoOp .min w d a b g s
def execAmoMax (w : WW) (d a b : SReg) (g : KReg) (s : State) : Host.Outcome State Fault Refusal := amoOp .max w d a b g s
def execAmoMinu (w : WW) (d a b : SReg) (g : KReg) (s : State) : Host.Outcome State Fault Refusal :=
  amoOp .minu w d a b g s
def execAmoMaxu (w : WW) (d a b : SReg) (g : KReg) (s : State) : Host.Outcome State Fault Refusal :=
  amoOp .maxu w d a b g s
def execAmoSwap (w : WW) (d a b : SReg) (g : KReg) (s : State) : Host.Outcome State Fault Refusal :=
  amoOp .swap w d a b g s
def execAmoCas (w : WW) (d a b : SReg) (g : KReg) (s : State) : Host.Outcome State Fault Refusal := amoOp .cas w d a b g s

/-! ## Major 0x27 (R86, R320) -/

/-- A destination core, by package and tile, lies within a scope of this tile (Table 1-1). -/
def within' (s : State) (tile pkg dst : Nat) (sc : Scope) : Bool :=
  match sc with
  | .core => pkg == s.pkg && dst == tile
  | .quad => pkg == s.pkg && quadOf dst == quadOf tile
  | .die => pkg == s.pkg && dieOf dst == dieOf tile
  | .pkg => pkg == s.pkg
  | .pod => true

/-- Earlier messages of the thread to destinations within a scope are placed (R86). -/
def placedWithin (s : State) (sc : Scope) : Bool :=
  s.net.all fun m => !(ownMsg s m && within' s (tileOf s.cur) m.pkg m.dst sc)

/-- Every engine command the running thread has pushed is complete (R80); or one of them has failed and its report is
due, which counts the wait complete (R203; DEDUCED, log entry 74). -/
def engIdle (s : State) : Bool :=
  let mine (e : Nat × RingEntry) : Bool := e.2.slot == slotOf s.cur && e.2.own == s.me.born
  s.myCore.ring.all (fun e => !(mine e && e.2.state < 2)) ||
    (!s.me.act && s.myCore.ring.any fun e => mine e && e.2.state == 3 && !e.2.taken)

/-- What a fence waits for and reports (Table 4-2, R75, R158, R310). -/
def fenceWait (s : State) (sc : Scope) (eng : Bool) : M Unit := do
  plainReady s
  messageReports s
  await (placedWithin s sc) .placement
  await (!eng || engIdle s) .engine

def execFence (sc : Scope) (g : KReg) (s : State) : Host.Outcome State Fault Refusal :=
  run s (guarded s g (do
    fenceWait s sc false
    .ok s))

def execFenceEng (sc : Scope) (g : KReg) (s : State) : Host.Outcome State Fault Refusal :=
  run s (guarded s g (do
    fenceWait s sc true
    .ok s))

/-- R320: `pf` asks the home of a readable drawer address of this package to fill its line; otherwise it does nothing. -/
def prefetchLine (s : State) (p : Word) : State :=
  match walkCheck s (ctxOf s (tileOf s.cur)) p (ptrVa p) needR with
  | .error _ => s
  | .ok pa =>
    let d := s.die (pa / 128 % 4)
    if pkgOf pa = s.pkg ∧ isDrawer pa ∧ d.carve ≠ 0 ∧ !cached d (lineOf pa) ∧ !(d.fills.any fun f => f.addr == lineOf pa)
    then match windowPort s pa with
      | some port => requestLine s (pa / 128 % 4) (lineOf pa) port false
      | none => s
    else s

def execPf (a : SReg) (g : KReg) (s : State) : Host.Outcome State Fault Refusal :=
  run s (guarded s g (.ok (prefetchLine s (s.rs a))))

end Sys2Proof.Machine
end

