-- ==== Sys2Proof/Machine/Returns.lean ====
section
/-! DEFINITION. The machine's own steps about a core's threads and their accesses: a value or an acknowledgement
arriving (R72 to R75), the ends of terms and timeouts (R74, R90, R105), the SFU (R96, R97), the rotation table (R14),
and the faults that are not an instruction's own (R117, R118, R203). -/

namespace Sys2Proof.Machine

/-! ## Accesses that have settled -/

/-- A part that is performed or has failed. -/
def Part.settled (p : Part) : Bool := p.stage == .done || p.stage == .failed
/-- An access whose parts are all performed or failed. -/
def Req.settled (r : Req) : Bool := r.parts.all Part.settled

/-- An access that its thread's home acknowledges; any other returns a value, or its end (R72). -/
def ReqKind.acked : ReqKind → Bool
  | .store | .storeMask _ | .tagSet _ | .tagClr => true
  | _ => false

/-- The channel a load's value is to be pushed on, whose allowance was taken at issue. -/
def Finish.chan (f : Finish) : Option Nat :=
  match f with
  | .push n _ => some n
  | .formatted _ c _ _ | .block _ c _ _ => c
  | _ => Option.none

/-- A message put back at the head of the channel it was popped from. -/
def unpop (s : State) (tile lid : Nat) (p : Nat × Vec) : State :=
  if p.1 = inboxChan then s.updCore tile fun c => { c with inbox := p.2 :: c.inbox, spill := c.spill - 1, inboxDue := c.inboxDue - 1 }
  else s.updLaunch lid fun l =>
    { l with chans := l.chans.mapIdx fun i c => if i = p.1 then { c with buf := p.2 :: c.buf } else c }

/-- An allowance given back for a message that is not pushed. -/
def recredit (s : State) (tile lid n : Nat) : State :=
  if n = inboxChan then s.updCore tile fun c => { c with spill := c.spill + 1, inboxDue := c.inboxDue - 1 }
  else s.updLaunch lid fun l =>
    { l with chans := l.chans.mapIdx fun i c => if i = n then { c with credits := c.credits + 1 } else c }

/-- A lock request. -/
def ReqKind.isLock : ReqKind → Bool
  | .lock _ _ => true
  | _ => false

/-- The hold index that a lock request took is free again: the request ends without a grant (R105, R323). -/
def freeLock (s : State) (r : Req) : State :=
  match r.kind with
  | .lock ctx h =>
    match s.hold ctx h with
    | some x => s.setHold ctx h { x with free := true }
    | none => s
  | _ => s

/-- A number that names no thread. -/
def noThread : Nat := 65536

/-- A thread's SFU request that will write nothing: it is served all the same (R97), and the allowance of its push goes
back. The pair it belonged to was taken back (R235), or its thread has ended. -/
def dropSfu (s : State) (key : Nat) : State :=
  let q := s.quad (quadOf (tileOf key))
  let mine := (q.queue ++ q.serving.map (·.1)).filter fun r => r.key == key
  let f (r : SfuReq) : SfuReq := if r.key = key then { r with key := noThread, writes := [], push := none, flags := 0 } else r
  let s := s.setQuad (quadOf (tileOf key)) { q with queue := q.queue.map f, serving := q.serving.map fun x => (f x.1, x.2) }
  mine.foldl (fun s r => match r.push with
    | some p => recredit s (tileOf key) (lidOf s (tileOf key)) p.1
    | none => s) s

/-- Whether the quad holds an SFU request of a thread. -/
def sfuPending (s : State) (key : Nat) : Bool :=
  let q := s.quad (quadOf (tileOf key))
  q.queue.any (fun r => r.key == key) || q.serving.any fun x => x.1.key == key

/-- R75, R197: the instruction of a plain access that failed is as if it had not begun: registers, program counter,
flags and QPRIME as they were, messages back in their channels, allowances returned. A trace record of the pair stands
(DESIGN CHOICE, log entry 106). -/
def takeBack (s : State) (key : Nat) (r : Req) (u : Undo) : State :=
  let tile := tileOf key
  let s := s.updThr key fun t =>
    { t with
      pc := u.pc
      npc := u.pc
      regs := u.regs
      fpflags := u.flags
      qprime := u.qprime
      dlEn := match u.dl with | some d => d.1 | none => t.dlEn
      dlLeft := match u.dl with | some d => d.2 | none => t.dlLeft
      dlDue := if u.dl.isSome then false else t.dlDue
      wait := none
      ibuf := [] }
  let s := u.pops.foldr (fun p s => unpop s tile r.lid p) s
  let s := u.pushes.foldl (fun s q => recredit s tile r.lid q.1) s
  let s := match r.fin.chan with | some n => recredit s tile r.lid n | none => s
  dropSfu s key

/-- The value of a load of a leading thread, for the trailing one. -/
def lvqFill (s : State) (key id : Nat) (bs : List Byte) : State :=
  if (s.thr key).role = .leading then
    s.updThr (partnerOf key) fun t =>
      { t with lvq := lupd (fun p => p.1 == id) (fun p => (p.1, some bs)) t.lvq }
  else s

/-- A plain access's instruction ends: what it popped and pushed takes effect, and its thread goes on, unless its pair
waits for the SFU. A STEP of it is over (R223). -/
def endAccess (s : State) (key : Nat) (r : Req) (u : Undo) : State :=
  let s := u.pops.foldl (fun s p => releasePop s (tileOf key) r.lid p) s
  let s := u.pushes.foldl (fun s q => releasePush s (tileOf key) r.lid q) s
  endStep (s.updThr key fun t => { t with wait := if sfuPending s key then some .sfu else none }) key

/-- The contribution a `vldr` presents when its elements have come (R316): the next frame's round. Its launch is replayable no
more (R211). -/
def presentLdr (s : State) (key : Nat) (r : Req) (handle fmt : Nat) : State :=
  let w := codeBits fmt
  { endReplay s r.lid with presents := s.presents ++ [{
      key := groupKey s r.ctx handle
      frame := s.frame + 1
      tile := tileOf key
      kind := 0
      root := 0
      thread := some key
      fmt := fmt
      elems := (List.range 16).map fun i => bytesElem r.buf w i
      bytes := []
      req := some r.id
      desc := (liveGroup s r.ctx handle).getD [] }] }

/-- The running item of an engine that waits for a request. -/
def engineWants (s : State) (r : Req) : Bool :=
  match r.owner with
  | .engine tile e _ =>
    let x := match e with | .mx => (s.core tile).mx | .cp => (s.core tile).cp | .rl => (s.core tile).rl
    match x.run with
    | some run => run.items.any fun i => i.stage == .reading r.id || i.stage == .writing r.id
    | none => false
  | _ => false

/-- The aligned 32-byte block in which a reply carries bytes from an address on (R178). -/
def inBlock (a : Nat) (bs : List Byte) : List Byte :=
  (List.range 32).map fun i => if a % 32 ≤ i then bs.getD (i - a % 32) 0 else 0

/-- The answer to another package's access that has settled here (Table 8-3): a read reply, a grant, a write status; a
CONTAIN reply for one that failed, and for a `wrv` whose reservation has ended a packet of TYPE 0x05 without payload
(DESIGN CHOICE, log entry 15). -/
def answerSettled (s : State) (r : Req) (pkg txid port : Nat) : State :=
  let home := match r.parts with | [] => 0 | p :: _ => (homeTile s p.pa).getD 0
  let send (type : Nat) (payload : List Byte) : State :=
    sendPacket s port (.pool (dieOf home)) (mkPacket s type 0 pkg txid home r.va payload)
  match r.fault, r.kind with
  | some _, .wrv => send 0x05 []
  | some _, _ => send 0x02 []
  | none, .load => send 0x02 (inBlock r.va r.buf)
  | none, .rsv | none, .lock _ _ => send 0x05 (inBlock r.va r.buf)
  | none, _ => send 0x04 []

/-- A core that is halted (R222) or that the Crown is stopping to save it (R205) takes no fault. -/
def faultsHeld (s : State) (tile : Nat) : Bool := (s.core tile).halt || (s.core tile).stopping

/-- A thread takes no fault that is not its instruction's: its core is halted or stopping, and no STEP is its own
(R222, R223). -/
def stopped (s : State) (key : Nat) : Bool :=
  faultsHeld s (tileOf key) && (s.core (tileOf key)).step != some (slotOf key)

/-- A plain access fails (R75): its instruction is taken back, and its thread takes the fault at it, after an imprecise report
that is due (R200). On a core that is halted or being saved it is kept, and reported when the thread goes on (R205, R222). -/
def accessFails (s : State) (key : Nat) (r : Req) (u : Undo) (f : FaultRec) : State :=
  let s := takeBack s key r u
  if impreciseDue s key then s
  else if stopped s key then s.updThr key fun t => { t with failures := t.failures ++ [⟨f, none, r.seq, true⟩] }
  else takeFault s key f

/-- The write of an access that has been performed ends its launch's replayability (R211). -/
def notePerformed (s : State) (r : Req) : State :=
  match r.fault, r.undo with
  | none, some u => if u.nrpl then endReplay s r.lid else s
  | _, _ => s

/-- LOAD_VALUE_RETURN (R72, R73, R75): the value of an access that has settled is written, or its failure noted: a
plain access takes its fault at itself, a relaxed one keeps it for the first instruction that waits for it. -/
def loadReturn (s : State) (id : Nat) : Option State :=
  match s.req id with
  | none => none
  | some r =>
    match r.owner with
    | .engine _ _ _ =>
      -- a beat whose command has ended without it (R215)
      if r.settled && !engineWants s r then some { s with reqs := s.reqs.filter fun q => q.id != id } else none
    | .peer pkg _ txid port _ =>
      if r.kind.acked || !r.settled then none
      else some (answerSettled { s with reqs := s.reqs.filter fun q => q.id != id } r pkg txid port)
    | .thread key =>
      if r.kind.acked || !r.settled then none
      else
        let s := notePerformed { s with reqs := s.reqs.filter fun q => q.id != id } r
        if !(s.thr key).live || r.lid != lidOf s (tileOf key) || r.seq < (s.thr key).born then some s
        else
          match r.fault, r.undo with
          | some f, some u => some (accessFails s key r u f)
          | some f, none =>
            if r.fin = .stash || r.kind.isLock then
              some ((freeLock s r).updThr key fun t => { t with got := some (.fault f), wait := none })
            else
              let s := match r.fin.chan with | some n => recredit s (tileOf key) r.lid n | none => s
              some (s.updThr key fun t => { t with failures := t.failures ++ [⟨f, finishReg r.fin, r.seq, false⟩] })
          | none, some u =>
            match r.fin with
            | .ldr _ _ _ handle fmt =>
              if (liveGroup s r.ctx handle).isSome then some { presentLdr s key r handle fmt with reqs := s.reqs ++ [r] }
              else some (accessFails s key r u ⟨.lapsed, 0, handle, none, false⟩)
            | _ => some (endAccess (lvqFill (finishLoad s key r.fin r.buf) key id r.buf) key r u)
          | none, none =>
            match r.kind with
            | .lock ctx h =>
              let w := match s.hold ctx h with | some x => BitVec.ofNat 64 (handleOf x h) | none => 0
              some (s.updThr key fun t => { t with got := some (.words [w]), wait := none })
            | _ =>
            let s := lvqFill (finishLoad s key r.fin r.buf) key id r.buf
            if r.fin = .stash then some (s.updThr key fun t => { t with wait := none }) else some s

/-- A request of a `vldr` whose contribution has been presented stays until its round writes it. -/
def presented (s : State) (id : Nat) : Bool := s.presents.any fun p => p.req == some id

def execLoadValueReturn (id : Nat) (s : State) : Host.Outcome State Fault Refusal :=
  event "LOAD_VALUE_RETURN" s (if presented s id then none else loadReturn s id)

/-- STORE_ACK (R72, R75, R310): a store's home has performed it, or its failure is kept for the first instruction that
waits for it. -/
def storeAck (s : State) (id : Nat) : Option State :=
  match s.req id with
  | none => none
  | some r =>
    match r.owner with
    | .engine _ _ _ => none
    | .peer pkg _ txid port _ =>
      if !r.kind.acked || !r.settled then none
      else some (answerSettled { s with reqs := s.reqs.filter fun q => q.id != id } r pkg txid port)
    | .thread key =>
      if !r.kind.acked || !r.settled then none
      else
        let s := { s with reqs := s.reqs.filter fun q => q.id != id }
        match r.fault with
        | some f =>
          if r.lid ≠ lidOf s (tileOf key) ∨ r.seq < (s.thr key).born then some s
          else some (s.updThr key fun t => { t with failures := t.failures ++ [⟨f, none, r.seq, !r.rlx⟩] })
        | none => some s

def execStoreAck (id : Nat) (s : State) : Host.Outcome State Fault Refusal :=
  event "STORE_ACK" s (storeAck s id)

/-- COMBINING_ENTRY_TIMEOUT (R74): 64 cycles after its first store an entry drains. -/
def execCombiningEntryTimeout (tile slot granule : Nat) (s : State) : Host.Outcome State Fault Refusal :=
  let key := keyOf tile slot
  event "COMBINING_ENTRY_TIMEOUT" s
    (if (s.thr key).comb.any fun c => c.granule == granule && decide (c.since + 64 ≤ s.cycle) then
      some (drainWhere (fun c => c.granule == granule) key s)
    else none)

/-- ATOMIC_TERM_EXPIRY (R90): 256 cycles after its grant an atomic reservation ends, and the word's queue is served. -/
def execAtomicTermExpiry (word : Nat) (s : State) : Host.Outcome State Fault Refusal :=
  event "ATOMIC_TERM_EXPIRY" s
    (match homeTile s (8 * word) with
    | none => none
    | some h =>
      match atomicOn s h word with
      | some v => if v.granted + 256 ≤ s.cycle then some (endResv s h word) else none
      | none => none)

/-- DEFERRED_REPRESENT (R105): a deferred request comes again every 64 cycles with its ticket: it is granted or
performed if its turn has come, else stored where the bank has room, else deferred again. -/
def represent (s : State) (home ticket : Nat) : Option State :=
  let here (p : Part) : Bool :=
    homeTile s p.pa == some home &&
      (match p.stage with | .deferred t since => t == ticket && decide (since + 64 ≤ s.cycle) | _ => false)
  match s.reqs.find? fun r => r.parts.any here with
  | none => none
  | some r =>
    match idxOf here r.parts 0 with
    | none => none
    | some i =>
      match r.parts[i]? with
      | none => none
      | some p =>
        let room := decide (stored s home < 64)
        let t := p.words.foldl (fun t w => serve t home w) (setStage s r.id i (.queued ticket))
        let still : Bool := match t.req r.id with
          | some q => (match q.parts[i]? with | some x => x.stage == .queued ticket | none => false)
          | none => false
        some (if still && !room then setStage t r.id i (.deferred ticket s.cycle) else t)

def execDeferredRepresent (tile ticket : Nat) (s : State) : Host.Outcome State Fault Refusal :=
  event "DEFERRED_REPRESENT" s (represent s tile ticket)

/-! ## The SFU (R96, R97) -/

/-- SFU_SERVICE_START: the head of the queue is served for its occupancy. -/
def execSfuServiceStart (quad : Nat) (s : State) : Host.Outcome State Fault Refusal :=
  let q := s.quad quad
  event "SFU_SERVICE_START" s
    (match q.queue with
    | [] => none
    | r :: rest =>
      if q.freeAt ≤ s.cycle then
        some (s.setQuad quad
          { q with queue := rest, serving := q.serving ++ [(r, s.cycle + r.latency)], freeAt := s.cycle + r.occ })
      else none)

/-- The result of an SFU request: registers, a message, flags; the wait ends. The message of a pair whose load is
outstanding is kept with it (R197, R235). -/
def sfuWrite (s : State) (r : SfuReq) : State :=
  if r.key = noThread then s
  else
    let held := takesBack s r.key
    let s := s.updThr r.key fun t =>
      { t with
        regs := r.writes.foldl (fun g w => g.wv w.1 w.2) t.regs
        fpflags := t.fpflags ||| r.flags
        wait := if t.wait = some .sfu then none else t.wait }
    match r.push with
    | some p =>
      if held then keepChans s r.key [] [p] else releasePush s (tileOf r.key) (lidOf s (tileOf r.key)) p
    | none => s

/-- SFU_RESULT: a request whose latency has passed writes its result. -/
def execSfuResult (quad : Nat) (s : State) : Host.Outcome State Fault Refusal :=
  let q := s.quad quad
  event "SFU_RESULT" s
    (match q.serving.find? fun x => x.2 ≤ s.cycle with
    | some x => some (sfuWrite (s.setQuad quad { q with serving := q.serving.erase x }) x.1)
    | none => none)

/-! ## The rotation table (R12, R14) -/

/-- Entry `i` of the four shadow words. -/
def shadowEntry (w : Vector Word 4) (i : Nat) : Byte :=
  BitVec.ofNat 8 ((w.toArray.getD (i / 8) 0).toNat / 2 ^ (8 * (i % 8)))

/-- R12: no slot appears twice in any four consecutive entries, counted cyclically; R14: entry bits 6:4 are zero. -/
def rottabOk (w : Vector Word 4) : Bool :=
  (List.range 32).all fun i =>
    let e := (shadowEntry w i).toNat
    e / 16 % 8 == 0 && (e < 128 || [1, 2, 3].all fun k =>
      let f := (shadowEntry w ((i + k) % 32)).toNat
      f < 128 || f % 16 != e % 16)

/-- A write of one shadow word; the write of word 3 arms the shadow and clears REJ (Table 1-4). -/
def writeShadow (s : State) (tile i : Nat) (x : Word) : State :=
  s.updCore tile fun c =>
    { c with
      shadow := c.shadow.setIfInBounds i x
      pend := c.pend || i == 3
      rej := c.rej && i != 3 }

/-- The entries of a table that name slots 13 to 15, by their places (R170). -/
def fwEntries (w : Vector Word 4) : List (Nat × Byte) :=
  ((List.range 32).map fun i => (i, shadowEntry w i)).filter fun e => 128 ≤ e.2.toNat && 13 ≤ e.2.toNat % 16

/-- R170: the entries of slots 13 to 15 are the same for every launch: those of the table first given. -/
def fwEntriesOk (s : State) (w : Vector Word 4) : Bool :=
  match s.fwRot with
  | some e => fwEntries w == e
  | none => true

/-- R170: while a launch holds a core, its table is rewritten only to pre-empt, resume, migrate or end the launch. -/
def rottabFree (s : State) (tile : Nat) : Bool :=
  let c := s.core tile
  c.launch.isNone || c.stopping || c.doneOp.isSome

/-- ROTTAB_ARM: the Crown writes the four shadow words. -/
def execRottabArm (tile : Nat) (w0 w1 w2 w3 : Word) (s : State) : Host.Outcome State Fault Refusal :=
  event "ROTTAB_ARM" s
    (if tile < 4096 ∧ rottabFree s tile then
      some (writeShadow (writeShadow (writeShadow (writeShadow s tile 0 w0) tile 1 w1) tile 2 w2) tile 3 w3)
    else none)

/-- R14: at the step to entry 0 an armed shadow becomes the table, or is discarded with REJ set. What ROTTAB.0 to ROTTAB.3
read afterwards the spec does not say: here they keep the words written, discarded or not, and a later write of ROTTAB.3
alone arms them again (DESIGN CHOICE, log entry 81). -/
def checkShadow (s : State) (tile : Nat) : State :=
  s.updCore tile fun c =>
    if !c.pend then c
    else if rottabOk c.shadow then
      { c with rottab := Vector.ofFn fun i => shadowEntry c.shadow i.val, pend := false, rej := false }
    else { c with pend := false, rej := true }

/-- ROTTAB_SHADOW_CHECK: an armed shadow is checked when the core next steps to entry 0. -/
def execRottabShadowCheck (tile : Nat) (s : State) : Host.Outcome State Fault Refusal :=
  event "ROTTAB_SHADOW_CHECK" s
    (if (s.core tile).pend && (s.core tile).rotPos == 31 then some (checkShadow s tile) else none)

/-! ## Boundaries: waits abandoned (R118, R203) -/

/-- A request of a thread's `rsv`, `amo` or `hold.lk` that is not finished. -/
def queuedReq (s : State) (key : Nat) : Option Req :=
  s.reqs.find? fun r => r.ofThread key && r.kind.ticketed

/-- A request that has not been granted its word, here or at the package of its home. -/
def Req.ungranted (r : Req) : Bool :=
  r.parts.all fun p => p.stage != .granted && p.stage != .done && p.stage != .failed &&
    (match p.stage with | .sent _ _ => false | _ => true)

/-- A request of a thread that has ended, for a reservation not granted or a granule not FULL: it is withdrawn (R105,
R199). -/
def orphaned (s : State) (r : Req) : Bool :=
  match r.owner with
  | .thread key =>
    (!(s.thr key).live || decide (r.seq < (s.thr key).born)) && r.ungranted &&
      (r.kind.ticketed || (match r.kind with | .sync _ => true | _ => false))
  | _ => false

/-- A request that has left for the package of its word's home is withdrawn there; a lock's index waits for that package's
answer (R105, R323; log entry 75). -/
def withdrawAway (s : State) (r : Req) (p : Part) (x : Nat) : State :=
  match r.kind with
  | .lock ctx h =>
    let s := match s.hold ctx h with | some y => s.setHold ctx h { y with lapsing := [p.pa] } | none => s
    tellHome s (dieOf r.tile) (r.cap s) r.tile p.pa (lockNumber ctx h)
  | _ => tellHome s (dieOf r.tile) (r.cap s) r.tile p.pa (withdrawNumber x)

/-- A request leaves its words' queues, here or at the package of their home, and the next tickets are served (R105). -/
def leaveQueue (s : State) (r : Req) : State :=
  let s : State := { s with reqs := s.reqs.filter fun q => q.id != r.id }
  match r.parts.findSome? fun p => match p.stage with | .asked x _ => some (p, x) | _ => none with
  | some (p, x) => withdrawAway s r p x
  | none =>
    r.parts.foldl (fun s p =>
      p.words.foldl (fun s w =>
        match homeTile s (8 * w) with
        | some h => if (resvOn s h w).isNone then serve s h w else s
        | none => s) s) (freeLock s r)

/-- A request withdrawn, and the instruction that made it taken back (R105). -/
def withdraw (s : State) (key : Nat) (r : Req) : State :=
  let s := leaveQueue s r
  let s := match r.undo with | some u => takeBack s key r u | none => s
  s.updThr key fun t => { t with wait := none }

/-- R118, R139: a core's arrival at a pod barrier is withdrawn, and the members that were told of the package's arrival are told
so. From T - 2,048 on the arrival stands, since every package decides by then (DESIGN CHOICE, log entry 98). -/
def leavePod (s : State) (key tick tile : Nat) : State :=
  match s.episode key tick with
  | none => s
  | some e =>
    if tick < s.ptb + 2048 then s
    else
      let d := (groupByKey s key).getD []
      let x := { e with tiles := e.tiles.filter fun y => y.1 != tile }
      let t := setEpisode s x
      if memberArrived s d e && !memberArrived s d x then tellMembers t tile d x true else t

/-- R118, R203: a thread's wait abandoned; none where it is one that is not. A thread that has received what its
instruction waited for goes on with it first. -/
def abandonWait (s : State) (key : Nat) : Option State :=
  let clear (s : State) : State := s.updThr key fun t => { t with wait := none, got := none }
  let t := s.thr key
  match t.wait with
  | none => if t.got.isSome then none else some s
  | some .reservation =>
    match queuedReq s key with
    | some r => if r.ungranted then some (withdraw s key r) else none
    | none => none
  | some .granule =>
    match s.reqs.find? fun r => r.ofThread key && (match r.kind with | .sync _ => true | _ => false) with
    | some r => some (withdraw s key r)
    | none => some (clear s)
  | some (.podBarrier k tick _) =>
    some (leavePod (clear s) k tick (tileOf key))
  | some .call => some (clear (dropCall s key))
  | some .completion => some (clear (s.updCore (tileOf key) fun c => { c with doneOp := none }))
  | some .pair => some ((clear s).updThr key fun t => { t with cmp := none })
  | some w => if w.abandonable then some (clear s) else none

/-- A boundary at which a thread may take a fault that is not its instruction's: its wait abandoned, every access of it
performed or failed (R75). Where accesses are outstanding its combining buffer drains first. -/
def boundary (s : State) (key : Nat) : Option State :=
  let t := s.thr key
  if !t.live || t.parked || sfuPending s key then none
  else
    match abandonWait s key with
    | none => none
    | some s => if s.busy key then none else some s

/-- LEFT of a thread has reached 0 (R117): EN is cleared, and the fault is to be taken at its next boundary. A trailing
thread's is its leading thread's (R118), unless it is parked while that one's handler runs (R210). -/
def deadlineMark (s : State) (key : Nat) : State :=
  let t := s.thr key
  let s := s.updThr key fun t => { t with dlEn := false, dlDue := t.role != .trailing }
  if t.role = .trailing ∧ !t.parked then s.updThr (partnerOf key) fun p => { p with dlEn := false, dlDue := true } else s

/-- DEADLINE_EXPIRY (R117, R118): LEFT is 0: EN is cleared, whatever the core does; the fault is taken at the next boundary,
after an imprecise report or a failure that waits there (R200), and not while the core is halted or being saved. -/
def deadlineTake (s : State) (key : Nat) : Option State :=
  let t := s.thr key
  if !t.live || !deadlineDue t then none
  else
    let s1 := deadlineMark s key
    let marked : Option State := if t.dlDue then none else some s1
    if t.role = .trailing || impreciseDue s1 key || stopped s key then marked
    else
      match boundary s1 key with
      | none => if (s.thr key).comb.isEmpty then marked else some (drainAll key s1)
      | some s2 =>
        match earlierReport s2 key with
        | some (f, s3) => some (takeFault s3 key f)
        | none => some (takeFault s2 key ⟨.deadline, 0, 0, none, false⟩)

def execDeadlineExpiry (tile slot : Nat) (s : State) : Host.Outcome State Fault Refusal :=
  event "DEADLINE_EXPIRY" s (deadlineTake s (keyOf tile slot))

/-- R203: TAKEN set in a ring entry. -/
def markTaken (s : State) (tile idx : Nat) : State :=
  s.updCore tile fun c =>
    { c with ring := c.ring.map fun e => if e.1 = idx then (e.1, { e.2 with taken := true }) else e }

/-- IMPRECISE_FAULT_TAKEN (R203): at a boundary with ACT 0 the oldest failed command of the thread is reported. -/
def impreciseTake (s : State) (key : Nat) : Option State :=
  if !impreciseDue s key || (s.thr key).role == .trailing || stopped s key then none
  else
    match boundary s key with
    | none => if (s.thr key).live && !(s.thr key).comb.isEmpty then some (drainAll key s) else none
    | some s =>
      match pendingImprecise s key with
      | none => none
      | some (i, e) =>
        match codeOfNum e.code with
        | none => none
        | some c =>
          some (takeFault (markTaken s (tileOf key) i) key ⟨c, e.detail, e.addr.toNat, some e.seq.toNat, false⟩)

def execImpreciseFaultTaken (tile slot : Nat) (s : State) : Host.Outcome State Fault Refusal :=
  event "IMPRECISE_FAULT_TAKEN" s (impreciseTake s (keyOf tile slot))

end Sys2Proof.Machine
end

