-- ==== Sys2Proof/Machine/Slots.lean ====
section
/-! DEFINITION. Slot tables of the Hatband and the routes and groups that hold their slots (spec/08_isolation_time.md
R180 to R185, spec/15 R324, R325). -/

namespace Sys2Proof.Machine

/-! ## Tables (R180, R181) -/

/-- The direction numbers of a port's shadows. -/
def dirNum (d : Dir) : Nat := match d with | .outward => 0 | .inward => 1

/-- A port's active table of a direction: entries that are not idle. -/
def Port.table (p : Port) (d : Dir) : List (Nat × SlotOwner) := match d with | .outward => p.outTab | .inward => p.inTab

/-- The table of a direction as it will stand: the shadow armed last, else the active table. -/
def Port.coming (p : Port) (d : Dir) : List (Nat × SlotOwner) :=
  match (p.shadow.filter fun x => x.1 == dirNum d).getLast? with
  | some x => x.2.2
  | none => p.table d

/-- R187: a port that carries nothing: from the start of the slot that follows the one in which it came to need a retraining,
until it resumes. -/
def Port.closed (s : State) (p : Port) : Bool := p.stalled.isSome || (decide (16 ≤ p.frameErrs) && decide (p.errAt < s.ptb))

/-- The owner of a port's in-slot at a PTB (R180). -/
def inOwner (s : State) (port t : Nat) : SlotOwner := tget (s.port port).inTab (t % 2048) .idle

/-- A slot that carries the packets of a pool (R182). -/
def pooled (o : SlotOwner) : Bool := match o with | .pool _ | .transit => true | _ => false

/-- Two owners are one, whatever their FWD. -/
def sameOwner (a b : SlotOwner) : Bool :=
  match a, b with
  | .route c h _, .route d k _ => c == d && h == k
  | _, _ => a == b

/-- A shadow table armed for a frame; one armed for the same frame is replaced (R181). -/
def Port.arm (p : Port) (d : Dir) (frame : Nat) (t : List (Nat × SlotOwner)) : Port :=
  { p with shadow := p.shadow.filter (fun x => !(x.1 == dirNum d && x.2.1 == frame)) ++
      [(dirNum d, frame, t.filter fun e => e.2 != .idle)] }

/-- The frame for which a change made now is armed. -/
def armFrame (s : State) (p : Port) (d : Dir) : Nat :=
  (p.shadow.filter fun x => x.1 == dirNum d).foldl (fun f x => max f x.2.1) (s.frame + 1)

/-- The slot indices a route owns: consecutive, within the frame's 2,048. -/
def routeSlots (first n : Nat) : List Nat := (List.range n).map fun i => (first + i) % 2048

/-- Some slot is owned. -/
def clash (t : List (Nat × SlotOwner)) (slots : List Nat) : Bool := t.any fun e => slots.contains e.1

/-- Free slots of a table given to an owner until it has 64 (R182), the lowest ones (DESIGN CHOICE, log entry 101). -/
def topUp (o : SlotOwner) (t : List (Nat × SlotOwner)) : List (Nat × SlotOwner) :=
  let have' := (t.filter fun e => e.2 == o).length
  (((List.range 2048).filter fun i => !t.any fun e => e.1 == i).take (64 - have')).foldl (fun t i => tset t i o) t

/-- R182: the slots that the Crown keeps on a port for each die's pool, and on a peer port for transit. -/
def keepPools (role : Role) (t : List (Nat × SlotOwner)) : List (Nat × SlotOwner) :=
  let t := (List.range 4).foldl (fun t d => topUp (.pool d) t) t
  if role = .peer then topUp .transit t else t

/-- Slots given an owner from a frame on. -/
def giveSlotsAt (s : State) (frame port : Nat) (d : Dir) (slots : List Nat) (o : SlotOwner) : State :=
  let p := s.port port
  s.setPort port (p.arm d frame (slots.foldl (fun t i => tset t i o) (p.coming d)))

/-- Slots given an owner at the next frame boundary. -/
def giveSlots (s : State) (port : Nat) (d : Dir) (slots : List Nat) (o : SlotOwner) : State :=
  giveSlotsAt s (armFrame s (s.port port) d) port d slots o

/-- An owner whose slots return to idle. -/
def dropOwner (o : SlotOwner → Bool) (p : Port) : Port :=
  { p with
    outTab := p.outTab.filter fun e => !o e.2
    inTab := p.inTab.filter fun e => !o e.2
    shadow := p.shadow.map fun x => (x.1, x.2.1, x.2.2.filter fun e => !o e.2) }

/-- An owner is a route hold of a context, by its index. -/
def ownedBy (ctx idx : Nat) (o : SlotOwner) : Bool :=
  match o with
  | .route c h _ => c == ctx && h % 4096 == idx
  | _ => false

/-- Route slots that a context owns on a port, in a direction. -/
def ctxSlots (s : State) (ctx port : Nat) (d : Dir) : Nat :=
  ((s.port port).coming d |>.filter fun e => match e.2 with | .route c _ _ => c == ctx | _ => false).length

/-- R183: the limit of a context on a port: DRAWMAX on a drawer port, PEERMAX on a peer port. -/
def slotLimit (s : State) (ctx port : Nat) : Nat :=
  match (s.port port).role with
  | .drawer => (s.ctx ctx).slots.toNat % 2 ^ 12
  | _ => (s.ctx ctx).slots.toNat / 2 ^ 12 % 2 ^ 12

/-! ## Routes (Table 15-10) -/

def rtDst (d : List Word) : Nat := bitsOf (wordAt d 0) 39 32
def rtPort (d : List Word) : Nat := bitsOf (wordAt d 0) 31 28
def rtGw (d : List Word) : Bool := bitOf (wordAt d 0) 27
def rtHops (d : List Word) : Nat := bitsOf (wordAt d 0) 26 24
def rtPref (d : List Word) : Nat := bitsOf (wordAt d 0) 18 8
def rtSlots (d : List Word) : Nat := bitsOf (wordAt d 0) 7 0
def hopPkg (d : List Word) (h : Nat) : Nat := bitsOf (wordAt d 1) (16 * h + 15) (16 * h + 8)
def hopIn (d : List Word) (h : Nat) : Nat := bitsOf (wordAt d 1) (16 * h + 7) (16 * h + 4)
def hopOut (d : List Word) (h : Nat) : Nat := bitsOf (wordAt d 1) (16 * h + 3) (16 * h)

/-- A malformed route descriptor (STATUS 4). -/
def rtBad (d : List Word) : Bool :=
  bitsOf (wordAt d 0) 63 40 != 0 || bitsOf (wordAt d 0) 23 19 != 0 || 4 < rtHops d || rtSlots d == 0 || 128 < rtSlots d

/-- An invalid path (STATUS 6): the role of the source port, a package not in the pod, a port of a hop of this package that is no
peer port, or a hop that names a port beyond 11 or delivers elsewhere than at the last hop, which is the destination. -/
def rtPathBad (s : State) (d : List Word) : Bool :=
  let n := rtHops d
  let role := (s.port (rtPort d)).role
  if n = 0 then role != .drawer
  else
    role != .peer || !s.pod.contains (rtDst d) || hopPkg d (n - 1) != rtDst d ||
      (List.range n).any fun h =>
        let notPeer (i : Nat) : Bool := hopPkg d h == s.pkg && (s.port i).role != .peer
        !s.pod.contains (hopPkg d h) || 11 < hopIn d h || notPeer (hopIn d h) || (hopOut d h ≤ 11 && notPeer (hopOut d h)) || 12 ≤ hopOut d h && hopOut d h ≤ 14 ||
          ((hopOut d h == 15) != (h + 1 == n))

/-- R184: the in-slot paired with an out-slot of a drawer port. -/
def pairedIn (p : Port) (slot : Nat) : Nat := (slot + p.delay) % 2048

/-- The slots that a route owns at one place of its path: package, port, direction, the first of them, and FWD with 16
added where the slot's route names gateway processing (R193). -/
structure Leg where
  pkg   : Nat
  port  : Nat
  dir   : Dir
  first : Nat
  fwd   : Nat
  deriving DecidableEq, Repr

/-- The flight of the link that leaves a port (R177). -/
def flightFrom (s : State) (pkg port : Nat) : Nat := if pkg = s.pkg then (s.port port).flight else Config.linkFlight pkg port

/-- Whether a route's hop passes through a gateway core (R193, R324). -/
def gatewayHop (d : List Word) (h : Nat) : Bool := rtGw d && h + 1 == rtHops d

/-- What a gateway core adds to a route's slots (R185, R193). -/
def gatewayShift : Nat := 4

/-- The slots by which a hop delays a route's beats: 2 through a crossbar that forwards them, and 4 more through a gateway core
(R185). -/
def hopShift (d : List Word) (h : Nat) : Nat :=
  (if hopOut d h ≤ 11 then 2 else 0) + if gatewayHop d h then gatewayShift else 0

/-- The legs from hop `h` on, the beats having left a package's port in a slot: each link shifts by its flight, each
hop by its crossbar and its gateway core (R185). -/
def legsFrom (s : State) (d : List Word) : Nat → Nat → Nat → Nat → Nat → List Leg
  | 0, _, _, _, _ => []
  | n + 1, h, pkg, port, slot =>
    let at' := (slot + flightFrom s pkg port) % 2048
    let here : Leg := ⟨hopPkg d h, hopIn d h, .inward, at', hopOut d h + if gatewayHop d h then 16 else 0⟩
    let next := (at' + hopShift d h) % 2048
    if hopOut d h ≤ 11 then
      here :: ⟨hopPkg d h, hopOut d h, .outward, next, 15⟩ :: legsFrom s d n (h + 1) (hopPkg d h) (hopOut d h) next
    else [here]

/-- R184, R185, R324: every leg of a route whose first out-slot is given; a drawer route has its paired in-slots. -/
def routeLegs (s : State) (d : List Word) (first : Nat) : List Leg :=
  ⟨s.pkg, rtPort d, .outward, first, 15⟩ ::
    (if rtHops d = 0 then [⟨s.pkg, rtPort d, .inward, pairedIn (s.port (rtPort d)) first, 15⟩]
     else legsFrom s d (rtHops d) 0 s.pkg (rtPort d) first)

/-- R185: the slot in which a beat that leaves in a route's first out-slot arrives at its destination: in the last leg's slot, and
where a gateway core handles it there, 4 slots on. -/
def arrivalSlot (s : State) (d : List Word) (first : Nat) : Nat :=
  match (routeLegs s d first).getLast? with
  | some l => if 16 ≤ l.fwd then (l.first + gatewayShift) % 2048 else l.first
  | none => first

/-- R183: a route would take its context beyond its limit on some port of this package, in some direction. -/
def rtOver (s : State) (ctx : Nat) (d : List Word) : Bool :=
  let legs := (routeLegs s d 0).filter fun l => l.pkg == s.pkg
  legs.any fun l =>
    slotLimit s ctx l.port < ctxSlots s ctx l.port l.dir +
      rtSlots d * (legs.filter fun k => k.port == l.port && k.dir == l.dir).length

/-- Whether the slots from `first` are free at every place of the path that is on this package. -/
def rtFree (s : State) (d : List Word) (first : Nat) : Bool :=
  (routeLegs s d first).all fun l =>
    l.pkg != s.pkg || !clash ((s.port l.port).coming l.dir) (routeSlots l.first (rtSlots d))

/-- A place of the path lies on another package, whose tables decide there. -/
def rtAway (s : State) (d : List Word) : Bool := (List.range (rtHops d)).any fun h => hopPkg d h != s.pkg

/-- R181, R185: the slots of a route on this package, armed in all their tables for one frame. -/
def placeRoute (s : State) (ctx handle first : Nat) (d : List Word) : State :=
  let legs := (routeLegs s d first).filter fun l => l.pkg == s.pkg
  let frame := legs.foldl (fun f l => max f (armFrame s (s.port l.port) l.dir)) 0
  legs.foldl (fun s l =>
    giveSlotsAt s frame l.port l.dir (routeSlots l.first (rtSlots d)) (.route ctx handle l.fwd)) s

/-! ## Groups (Table 15-11) -/

/-- A malformed group descriptor, or one that does not list this package (STATUS 4).
NMEM of 16 does not fit its four bits; a field of 0 or 1 is refused. -/
def grpBad (s : State) (d : List Word) : Bool :=
  wordAt d 0 / 2 ^ 28 != 0 || grpMems d < 2 || wordAt d 7 != 0 || !(grpList d).contains (grpHome d) ||
    !(grpList d).contains s.pkg ||
    (List.range (grpMems d)).any fun i => grpCores d i == 0 || 4096 < grpCores d i

/-- R325: a live group hold of the partition that has the same GID and another descriptor (STATUS 7). -/
def grpDiffers (s : State) (ctx : Nat) (d : List Word) : Bool :=
  s.ctxs.any fun c => c.2.pkey == (s.ctx ctx).pkey && c.2.holds.any fun h =>
    h.2.live && (match h.2.kind with | .group e _ => grpId e == grpId d && e != d | _ => false)

/-- The packages at the other ends of a group's slots on this package (R325). -/
def grpPeers (s : State) (d : List Word) : List Nat :=
  if grpHome d = s.pkg then (grpList d).filter (· != s.pkg) else [grpHome d]

/-- The first slot free in a port's coming table, from a slot on around the frame. -/
def freeSlot (s : State) (port : Nat) (dir : Dir) (start : Nat) : Option Nat :=
  ((List.range 2048).map fun i => (start + i) % 2048).find? fun i => !clash ((s.port port).coming dir) [i]

/-- R325: one slot in each direction on the port toward each of the other ends. The Crowns of the two ends choose a slot that is
free at both, the flight of the link apart, so that a member's contribution meets the slot of its group: which one is a free
value (log entry 100). -/
def placeGroup (s : State) (ctx handle : Nat) (d : List Word) : State :=
  (grpPeers s d).foldl (fun s m =>
    match portFor s m with
    | none => s
    | some port =>
      let give (s : State) (dir : Dir) : State :=
        match freeSlot s port dir ((Config.freeWord s.free).toNat % 2048) with
        | some i => { giveSlots s port dir [i] (.route ctx handle 15) with free := s.free + 1 }
        | none => s
      give (give s .outward) .inward) s

/-- A group's slots go beyond its context's limit (STATUS 2). -/
def grpOver (s : State) (ctx : Nat) (d : List Word) : Bool :=
  (grpPeers s d).any fun m =>
    match portFor s m with
    | none => false
    | some port =>
      let n := ((grpPeers s d).filter fun k => portFor s k == some port).length
      slotLimit s ctx port < ctxSlots s ctx port .outward + n || slotLimit s ctx port < ctxSlots s ctx port .inward + n

end Sys2Proof.Machine
end

