-- ==== Sys2Proof/Machine/Holds.lean ====
section
/-! DEFINITION. Holds (spec/05_progress_threads.md R105 to R115, spec/15_isa_memory_sync.md R321 to R326): major 0x28,
the keeper and the Crown that answer it, and what a lapse does. -/

namespace Sys2Proof.Machine

/-! ## The hold table of a context (R28, R111) -/

/-- An index without an entry: never issued, counted as a lapsed hold of reuse count 0 (R28). -/
def Hold.none : Hold where
  reuse := 0
  issued := false
  live := false
  kind := .context
  expiry := 0
  granted := 0
  lapsing := []
  free := true

/-- The entry of an index, issued or not. -/
def holdAt (s : State) (ctx i : Nat) : Hold := (s.hold ctx i).getD .none

/-- The bank of a frame's slice owes no zeroing: every page that was zeroed there has been acknowledged (R154, R171). -/
def zeroed (s : State) (pa : Nat) : Bool := !(isSram pa && pkgOf pa == s.pkg) || (s.bank (localOf pa / 2 ^ 20)).owed == 0

/-- An index is free when every step of its hold's lapse has completed at every home (R111). -/
def indexFree (s : State) (ctx i : Nat) : Bool :=
  let h := holdAt s ctx i
  h.free && (match h.kind with | .range _ _ _ _ fs => fs.all (zeroed s) | _ => true)

/-- The index that a new hold takes of 1 to 4,095 (R111): the lowest that was never issued, else the one whose hold lapsed
longest ago (DESIGN CHOICE, log entry 102). -/
def freeIndex (s : State) (ctx : Nat) : Option Nat :=
  let all := (List.range 4096).drop 1
  match all.find? fun i => !(holdAt s ctx i).issued && indexFree s ctx i with
  | some i => some i
  | none => (all.filter (indexFree s ctx)).foldl (fun a i => match a with
    | none => some i
    | some j => if (holdAt s ctx i).expiry < (holdAt s ctx j).expiry then some i else some j) none

/-- R28, R107: an index issued now for a kind, with its life. -/
def issueHold (s : State) (ctx i : Nat) (k : HoldKind) (life : Nat) : State :=
  let old := holdAt s ctx i
  s.setHold ctx i {
    reuse := if old.issued then old.reuse + 1 else old.reuse
    issued := true
    live := true
    kind := k
    expiry := ctxNow s ctx + keptLife life (maxLife k)
    granted := ctxNow s ctx
    lapsing := []
    free := false }

/-- The answer word (Table 15-8). -/
def answerWord (status handle first : Nat) : Word := BitVec.ofNat 64 (first * 2 ^ 24 + status * 2 ^ 16 + handle)

/-! ## Major 0x28: what a core sends its keeper -/

/-- Words as bytes. -/
def wordsBytes (ws : List Word) : List Byte := (ws.map fun w => leBytes 8 w.toNat).flatten
/-- Bytes as words. -/
def bytesWords (bs : List Byte) : List Word :=
  (List.range (bs.length / 8)).map fun i => BitVec.ofNat 64 (leNat ((bs.drop (8 * i)).take 8))

/-- A keeper's answer written, or asked for with a request; a trailing thread takes its leading thread's answer. -/
def withAnswer (s : State) (write : List Word → State → State) (ask : M State) : M State := do
  if s.me.role = .trailing then
    let (b, s) ← lvqTake s
    .ok (write (bytesWords b) s)
  else
    match s.me.got with
    | some (.fault f) => .error (.fault f)
    | some (.words ws) => .ok (write ws (lvqPush (s.updMe fun t => { t with got := none }) (wordsBytes ws)))
    | none => do
      plainReady s
      lvqRoom s
      ask

/-- A request of the running thread to its keeper. -/
def keeperReq (s : State) (kind d : Nat) (arg life : Word) (desc : List Word) (pa : Nat) : KeeperReq where
  id := s.nextId
  key := s.cur
  ctx := ctxOf s (tileOf s.cur)
  kind := kind
  d := d
  arg := arg
  life := life
  desc := desc
  wordPa := pa
  crown := false

/-- Words an instruction reads before it goes on with them: one plain load, aligned to 8. -/
def readFirst {α : Type} (s : State) (p : Word) (n : Nat) : M α := do
  let parts ← checkAcc s (oneAcc p 0 (8 * n) 8 needR 1)
  watchCheck s (oneAcc p 0 (8 * n) 8 needR 1)
  .error (.stash (mkReq s false .load (ptrVa p) (8 * n) parts (List.replicate (8 * n) 0) .stash false))

/-- `S[d]` written with the answer's first word. -/
def putAnswer (d : SReg) (ws : List Word) (s : State) : State := s.ws d (ws.getD 0 0)

/-- R322: `S[d]` takes the answer and `S[d+1]` the pointer, 0 on a refusal. -/
def execHoldRng (d a b : SReg) (g : KReg) (s : State) : Host.Outcome State Fault Refusal :=
  run s (guarded s g (withAnswer s
    (fun ws s => (putAnswer d ws s).ws (d + 1) (ws.getD 1 0))
    (.error (.ask (keeperReq s 0 d.val (s.rs a) (s.rs b) [] 0)))))

/-- R323: checked as an atomic on the word that holds the address. -/
def execHoldLk (d a b : SReg) (g : KReg) (s : State) : Host.Outcome State Fault Refusal :=
  let p := s.rs a
  run s (guarded s g (withAnswer s (putAnswer d) do
    let parts ← checkAcc s (oneAcc p 0 1 1 needRW 2)
    watchCheck s (oneAcc p 0 1 1 needRW 2)
    let pa := match parts with | [] => 0 | q :: _ => q.pa
    .error (.ask (keeperReq s 1 d.val (BitVec.ofNat 64 (ptrVa p / 8 * 8)) (s.rs b) [] pa))))

/-- A request with a descriptor in memory (R324, R325): the descriptor is read first, then the keeper is asked. -/
def holdDesc (kind n : Nat) (d a b : SReg) (g : KReg) (s : State) : Host.Outcome State Fault Refusal :=
  let fresh := s.updMe fun t => { t with got := none }
  match s.me.got with
  | some (.words ws) =>
    if ws.length = n then run s (guarded s g (.error (.ask (keeperReq fresh kind d.val 0 (s.rs b) ws 0))))
    else run s (guarded s g (withAnswer s (putAnswer d) (.ok s)))
  | _ => run s (guarded s g (withAnswer s (putAnswer d) (readFirst s (s.rs a) n)))

def execHoldRt (d a b : SReg) (g : KReg) (s : State) : Host.Outcome State Fault Refusal := holdDesc 2 2 d a b g s
def execHoldGrp (d a b : SReg) (g : KReg) (s : State) : Host.Outcome State Fault Refusal := holdDesc 3 8 d a b g s

/-- R326: PRIV for handle 0x0000. -/
def execRenew (a b : SReg) (g : KReg) (s : State) : Host.Outcome State Fault Refusal :=
  run s (guarded s g (withAnswer s (fun _ s => s) do
    ensure ((s.rs a).toNat % 2 ^ 16 != 0) .priv 0 (curWord s)
    .error (.ask (keeperReq s 4 0 (s.rs a) (s.rs b) [] 0))))

def execLife (d a : SReg) (g : KReg) (s : State) : Host.Outcome State Fault Refusal :=
  run s (guarded s g (withAnswer s (putAnswer d) (.error (.ask (keeperReq s 5 d.val (s.rs a) 0 [] 0)))))

def execHinfo (d a : SReg) (g : KReg) (s : State) : Host.Outcome State Fault Refusal :=
  run s (guarded s g (withAnswer s (putAnswer d) (.error (.ask (keeperReq s 6 d.val (s.rs a) 0 [] 0)))))

/-! ## The keeper (R106 to R109) -/

/-- An answer reaches its thread. -/
def giveAnswer (s : State) (k : KeeperReq) (g : Got) : State :=
  if (s.thr k.key).live && (s.thr k.key).wait == some (.keeper k.id) then
    s.updThr k.key fun t => { t with got := some g, wait := none }
  else s

/-- A request leaves its die's keeper. -/
def dropKeeper (s : State) (die id : Nat) : State :=
  s.updDie die fun d => { d with keeper := d.keeper.filter fun k => k.id != id }

/-- Whether a request waits on a lock's word at its home; at a home on another package that is a free value (log entry
75). -/
def lockWanted (s : State) (word : Nat) : Bool :=
  match homeTile s (8 * word) with
  | some _ => queuedOn s 0 word
  | none => (Config.freeWord s.free).getLsbD 0

/-- R106: a renewal of a lock with a waiter on its word is clamped. -/
def renewTo (s : State) (ctx : Nat) (h : Hold) (life : Nat) : Nat :=
  let e := ctxNow s ctx + keptLife life (maxLife h.kind)
  match h.kind with
  | .lock w _ => if lockWanted s w then min e (max h.expiry (h.granted + 16000000)) else e
  | _ => e

/-- The LAPSED of a handle. -/
def lapsedHandle (h : Nat) : Got := .fault ⟨.lapsed, 0, h, none, false⟩

/-- Table 15-12. -/
def holdInfo (h : Hold) : Word :=
  let k : Nat × Nat × Nat := match h.kind with
    | .context => (0, 0, 0)
    | .range va _ _ gen _ => (1, gen, va)
    | .lock _ va => (2, 0, va)
    | .route _ first n _ => (3, 0, first * 2 ^ 16 + n)
    | .group d _ => (4, 0, grpId d)
  BitVec.ofNat 64 (k.1 * 2 ^ 60 + k.2.1 * 2 ^ 52 + h.reuse.toNat * 2 ^ 48 + k.2.2)

/-- The request of a lock joins its word's queue (R323). -/
def lockReq (s : State) (k : KeeperReq) (i : Nat) : Req where
  id := s.nextId
  owner := .thread k.key
  ctx := k.ctx
  lid := lidOf s (tileOf k.key)
  va := k.arg.toNat
  rlx := false
  kind := .lock k.ctx i
  size := 8
  parts := [⟨k.arg.toNat, (List.range 8).map fun j => (k.wordPa / 8 * 8 + j, j), .waiting⟩]
  buf := List.replicate 8 0
  fin := .none
  undo := none
  fault := none
  stamp := none
  seq := (s.thr k.key).seq
  last := false

/-- The keeper performs a request (R107, R109, R326), or passes it to the Crown. -/
def keeperDo (s : State) (die : Nat) (k : KeeperReq) : State :=
  let handle := k.arg.toNat % 2 ^ 16
  let h := holdAt s k.ctx (handle % 4096)
  let same : Bool := h.reuse.toNat == handle / 4096
  let gone := dropKeeper s die k.id
  match k.kind with
  | 1 =>
    match freeIndex s k.ctx with
    | none => giveAnswer gone k (.words [answerWord 1 0 0])
    | some i =>
      let old := holdAt s k.ctx i
      let s := gone.setHold k.ctx i { old with
        live := false, kind := .lock (k.wordPa / 8) k.arg.toNat, expiry := keptLife k.life.toNat 1000000, free := false }
      if (s.thr k.key).live then
        ({ s with reqs := s.reqs ++ [lockReq s k i], nextId := s.nextId + 1 }).updThr k.key
          fun t => { t with wait := some .reservation, seq := t.seq + 1 }
      else s.setHold k.ctx i old
  | 4 =>
    if same && h.live then
      giveAnswer ({ gone with free := gone.free + 1 }.setHold k.ctx (handle % 4096)
        { h with expiry := renewTo s k.ctx h k.life.toNat }) k (.words [])
    else giveAnswer gone k (lapsedHandle handle)
  | 5 =>
    if !same then giveAnswer gone k (lapsedHandle handle)
    else giveAnswer gone k (.words [if h.live then BitVec.ofNat 64 (h.expiry - ctxNow s k.ctx) else 0])
  | 6 => giveAnswer gone k (if same && h.live then .words [holdInfo h] else lapsedHandle handle)
  | _ => s.updDie die fun d =>
    { d with keeper := d.keeper.map fun x => if x.id = k.id then { x with crown := true } else x }

/-- HOLD_REQUEST_AT_KEEPER (R107): the keeper performs what it has received in arrival order. -/
def execHoldRequestAtKeeper (die : Nat) (s : State) : Host.Outcome State Fault Refusal :=
  event "HOLD_REQUEST_AT_KEEPER" s
    (((s.die die).keeper.find? fun k => !k.crown).map fun k => keeperDo s die k)

/-! ## Page tables (R146, R151) -/

/-- A leaf (Table 7-3). -/
def leafPte (pa log gen : Nat) (r w x : Bool) : Nat :=
  gen * 2 ^ 56 + pa + (if log = 16 then 2 ^ 8 else 0) + 2 * 2 ^ 6 + r.toNat * 4 + w.toNat * 2 + x.toNat

/-- The level whose entry a page of a size is mapped by. -/
def leafLevel (log : Nat) : Nat := if log = 30 then 2 else if log = 21 then 1 else 0

/-- A fresh table of 512 empty entries in firmware SRAM, which no access but the firmware's own reaches (R146, R162): zeroed,
and taken downwards from the supervisor queue (log entry 3). -/
def newTable (s : State) : Nat × State :=
  let a := s.pkg * 2 ^ 44 + Config.fwBase + Config.supOff - (s.tableNext + 1) * 4096
  (a, { s with
    tableNext := s.tableNext + 1
    mem := s.mem.filter fun c => !(a ≤ c.1 && c.1 < a + 4096)
    poison := s.poison.filter fun w => !(a ≤ 8 * w && 8 * w < a + 4096) })

/-- An entry written at a level, tables on the way made where they are missing. -/
def writeLeaf (va stop leaf : Nat) : Nat → Nat → State → State
  | level, table, s =>
    let a := table + 8 * (va / 2 ^ (12 + 9 * level) % 512)
    if level = stop then { s with mem := writeWord s.mem a (BitVec.ofNat 64 leaf) }
    else match level with
      | 0 => s
      | n + 1 =>
        let e := (readWord s.mem a).toNat
        if pteKind e = 1 then writeLeaf va stop leaf n (ptePa e) s
        else
          let t := newTable s
          writeLeaf va stop leaf n t.1 { t.2 with mem := writeWord t.2.mem a (BitVec.ofNat 64 (t.1 + 2 ^ 6)) }

/-- A page mapped; a 64 KiB page by sixteen entries (R146). -/
def mapPage (s : State) (ctx va pa log gen : Nat) (r w x : Bool) : State :=
  let leaf := leafPte pa log gen r w x
  (List.range (if log = 16 then 16 else 1)).foldl
    (fun s i => writeLeaf (va + 4096 * i) (leafLevel log) leaf 3 (s.ctx ctx).root s) s

/-- The 4 KiB page numbers of a span. -/
def pagesOf (va bytes : Nat) : List Nat := (List.range (bytes / 4096)).map fun i => va / 4096 + i

/-! ## The Crown's answers (R321 to R325) -/

/-- log2 of the page size PG names. -/
def pgLog (pg : Nat) : Nat := match pg with | 0 => 12 | 1 => 16 | 2 => 21 | _ => 30

/-- Fields of a range request (Table 15-9). -/
def rngPlace (a : Word) : Nat := bitsOf a.toNat 63 60
def rngTile (a : Word) : Nat := bitsOf a.toNat 59 48
def rngLog (a : Word) : Nat := pgLog (bitsOf a.toNat 41 40)
def rngSize (a : Word) : Nat := a.toNat % 2 ^ 40
def rngBad (a : Word) : Bool :=
  3 < rngPlace a || (rngPlace a != 1 && rngTile a != 0) || bitsOf a.toNat 47 42 != 0 || rngSize a == 0
/-- Pages asked for: the size rounded up. -/
def rngPages (a : Word) : Nat := (rngSize a + 2 ^ rngLog a - 1) / 2 ^ rngLog a

/-- Bytes a context's live ranges hold in SRAM, or in drawers. -/
def heldBytes (s : State) (ctx : Nat) (drawer : Bool) : Nat :=
  (s.ctx ctx).holds.foldl (fun n h =>
    if h.2.live then
      match h.2.kind with
      | .range _ pages log _ frames => if isDrawer (frames.headD 0) = drawer then n + pages * 2 ^ log else n
      | _ => n
    else n) 0

/-- No frame in use overlaps a span of physical memory. -/
def frameFree (s : State) (pa bytes : Nat) : Bool :=
  s.usedFrames.all fun f => f.1 + f.2 ≤ pa || pa + bytes ≤ f.1

/-- The whole span lies below the carve of its slices (R22, R148), and below a carve that waits, in whose bytes the Crown
issues no new page. -/
def belowCarve (s : State) (pa log : Nat) : Bool :=
  let d := s.die (localOf pa / 2 ^ 30)
  let c := max d.carve (d.carveWant.getD 0) * 1024
  if log ≤ 16 then localOf pa % 2 ^ 20 + 2 ^ log ≤ 2 ^ 20 - c else c == 0

/-- Page `i`'s frame lies where the request's PLACE asks (R322). -/
def placedRight (s : State) (tile : Nat) (a : Word) (i pa : Nat) : Bool :=
  let log := rngLog a
  let slice := localOf pa / 2 ^ 20
  let die := dieOf tile
  pkgOf pa == s.pkg && pa % 2 ^ log == 0 &&
    match rngPlace a with
    | 0 => isSram pa && log ≤ 16 && slice == tile && belowCarve s pa log
    | 1 => isSram pa && log ≤ 16 && slice == rngTile a && belowCarve s pa log
    | 2 =>
      isSram pa && belowCarve s pa log &&
        (if log ≤ 16 then slice == die * 1024 + i % 1024
         else if log = 21 then slice == die * 1024 + 2 * i && decide (2 * i + 1 < 1024)
         else slice == die * 1024 && i == 0)
    | _ => isDrawer pa && (windowPort s pa).isSome && (windowPort s (pa + 2 ^ log - 1)).isSome &&
        windowOf pa == windowOf (pa + 2 ^ log - 1)

/-- Free frames of the size asked in a slice. -/
def freeInSlice (s : State) (tile log : Nat) : Nat :=
  let base := s.pkg * 2 ^ 44 + tile * 2 ^ 20
  ((List.range (2 ^ (20 - log))).filter fun i =>
    belowCarve s (base + i * 2 ^ log) log && frameFree s (base + i * 2 ^ log) (2 ^ log)).length

/-- Frames of a size in the installed drawers, and those of them in use. -/
def freeInDrawers (s : State) (log : Nat) : Nat :=
  let all := (s.ports.filter fun p => p.2.role == .drawer && p.2.window.isSome).foldl (fun n p => n + p.2.bytes / 2 ^ log) 0
  let blocked := (s.usedFrames.filter fun f => isDrawer f.1).foldl (fun l f =>
    ((List.range (f.2 / 2 ^ log + 1)).map fun i => f.1 / 2 ^ log + i).filter (fun x => x * 2 ^ log < f.1 + f.2) ++ l) []
  all - blocked.eraseDups.length

/-- R322: the place asked has no room, so that the Crown refuses with STATUS 3. -/
def noRoom (s : State) (tile : Nat) (a : Word) : Bool :=
  let log := rngLog a
  let n := rngPages a
  let die := dieOf tile
  let base := s.pkg * 2 ^ 44 + die * 2 ^ 30
  match rngPlace a with
  | 0 => 16 < log || freeInSlice s tile log < n
  | 1 => 16 < log || freeInSlice s (rngTile a) log < n
  | 2 =>
    if log ≤ 16 then (List.range (min n 1024)).any fun i => freeInSlice s (die * 1024 + i) log < (n - i + 1023) / 1024
    else (s.die die).carve != 0 || decide (2 ^ 30 < n * 2 ^ log) || !frameFree s base (n * 2 ^ log)
  | _ => freeInDrawers s log < n

/-- The last generation of a page of a context (R114). -/
def lastGen (s : State) (ctx page : Nat) : Nat := tget (s.ctx ctx).lastGen page 0

/-- R114: the generation a new range over these pages takes. -/
def newGen (s : State) (ctx va bytes : Nat) : Nat :=
  1 + (pagesOf va bytes).foldl (fun g p => max g (lastGen s ctx p)) 0

/-- No page of the span is issued: none lies in a range that is not yet freed, and none is mapped without one. -/
def vaFree (s : State) (ctx va bytes : Nat) : Bool :=
  ((s.ctx ctx).holds.all fun h => match h.2.kind with
    | .range b n log _ _ => h.2.free || b + n * 2 ^ log ≤ va || va + bytes ≤ b
    | _ => true) &&
  (pagesOf va bytes).all fun p => match walk s ctx (p * 4096) with
    | .ok e => e.lap
    | .error _ => true

/-- A range that the Crown may grant with this address and these frames. -/
def rangeOk (s : State) (ctx tile : Nat) (a : Word) (va : Nat) (frames : List Nat) : Bool :=
  let bytes := rngPages a * 2 ^ rngLog a
  va % 2 ^ rngLog a == 0 && va + bytes ≤ 2 ^ 48 && frames.length == rngPages a && vaFree s ctx va bytes &&
    newGen s ctx va bytes ≤ 255 &&
    (frames.mapIdx fun i f => placedRight s tile a i f && frameFree s f (2 ^ rngLog a)).all id && frames.all (zeroed s) &&
    (frames.eraseDups.length == frames.length)

/-- The status that a request's own words decide, none where the Crown's placement decides (Table 15-8). Where several apply,
that of the request's words comes first, 4, then 6 and 7, and that of what the context has after it, 1, 2, then 3 (DESIGN
CHOICE, log entry 59). -/
def forcedStatus (s : State) (k : KeeperReq) : Option Nat :=
  let full : Option Nat := if (freeIndex s k.ctx).isNone then some 1 else none
  match k.kind with
  | 0 =>
    let bytes := rngPages k.arg * 2 ^ rngLog k.arg
    let drawer := rngPlace k.arg == 3
    if rngBad k.arg then some 4
    else if full.isSome then full
    else if (if drawer then (s.ctx k.ctx).drawb else (s.ctx k.ctx).sramb) < heldBytes s k.ctx drawer + bytes then some 2
    else if noRoom s (tileOf k.key) k.arg then some 3
    else none
  | 2 =>
    if rtBad k.desc then some 4
    else if rtPathBad s k.desc then some 6
    else if full.isSome then full
    else if rtOver s k.ctx k.desc then some 2
    else none
  | 3 =>
    if grpBad s k.desc then some 4
    else if (grpList k.desc).any (fun m => !s.pod.contains m) then some 6
    else if grpDiffers s k.ctx k.desc then some 7
    else if full.isSome then full
    else if grpOver s k.ctx k.desc then some 2
    else none
  | _ => none

/-- R152: a TLB without a context's entries of a span. -/
def tlbClear (ctx va bytes : Nat) (l : List TlbEntry) : List TlbEntry :=
  l.filter fun e => !(e.ctx == ctx && decide (e.vpn * 4096 < va + bytes) && decide (va < e.vpn * 4096 + 2 ^ e.log))

/-- Every tile and quad TLB of the package without a context's entries of a span; walks of it in flight deliver
nothing and are made again. -/
def shootDown (s : State) (ctx va bytes : Nat) : State :=
  { s with
    cores := s.cores.map fun c => (c.1, { c.2 with tlb := tlbClear ctx va bytes c.2.tlb })
    quads := s.quads.map fun q => (q.1, { q.2 with tlb := tlbClear ctx va bytes q.2.tlb })
    dies := s.dies.map fun d => (d.1, { d.2 with walks := d.2.walks.map fun w =>
      if w.ctx = ctx ∧ va ≤ w.vpn * 4096 ∧ w.vpn * 4096 < va + bytes then { w with stale := w.stale || w.taken } else w }) }

/-- A range issued to the launch that asked for it is listed there, with the reuse count it takes (R211, R213). -/
def listRange (s : State) (k : KeeperReq) (i : Nat) : State :=
  let old := holdAt s k.ctx i
  match (s.core (tileOf k.key)).launch with
  | some l => s.updLaunch l fun x => { x with ranges := x.ranges ++ [(i, (if old.issued then old.reuse + 1 else old.reuse).toNat)] }
  | none => s

/-- R114, R151, R322: a range issued: every TLB copy of its old entries removed, its leaves written, its pages' generations
recorded, its frames taken. -/
def grantRange (s : State) (k : KeeperReq) (i va : Nat) (frames : List Nat) : State :=
  let log := rngLog k.arg
  let bytes := rngPages k.arg * 2 ^ log
  let g := newGen s k.ctx va bytes
  let s := shootDown s k.ctx va bytes
  let s := (frames.mapIdx fun j f => (j, f)).foldl
    (fun s x => mapPage s k.ctx (va + x.1 * 2 ^ log) x.2 log g true true true) s
  let s := s.updCtx k.ctx fun c =>
    { c with lastGen := (pagesOf va bytes).foldl (fun t p => tset t p g) c.lastGen }
  let s := { s with usedFrames := s.usedFrames ++ frames.map fun f => (f, 2 ^ log) }
  issueHold (listRange s k i) k.ctx i (.range va (rngPages k.arg) log g frames) k.life.toNat

/-- R181: the Crown serves requests for slots of one port in the order of their arrival: an earlier one still waits. -/
def slotsBefore (s : State) (k : KeeperReq) : Bool :=
  s.dies.any fun d => d.2.keeper.any fun x =>
    x.crown && x.kind == 2 && decide (x.id < k.id) && rtPort x.desc == rtPort k.desc && (forcedStatus s x).isNone

/-- CROWN_HOLD_PLACEMENT (R321 to R325): the Crown answers a request: refused with the status its words decide, or for
want of slots, or granted at a place that the request allows. What other packages hold is theirs to say: slots of a route's
later hops (STATUS 5), and a live group of the same name with another descriptor (STATUS 7). -/
def crownPlace (s : State) (die : Nat) (k : KeeperReq) (p : Placement) : Option State :=
  let gone := dropKeeper s die k.id
  let refuse (st : Nat) : State := giveAnswer gone k (.words [answerWord st 0 0, 0])
  let handle (s : State) (i : Nat) : Nat := handleOf (holdAt s k.ctx i) i
  match forcedStatus s k with
  | some st => if p = .refuse st then some (if k.kind = 0 then refuse st else giveAnswer gone k (.words [answerWord st 0 0])) else none
  | none =>
    match freeIndex s k.ctx with
    | none => none
    | some i =>
      match k.kind, p with
      | 0, .range va frames =>
        if rangeOk s k.ctx (tileOf k.key) k.arg va frames then
          let t := grantRange gone k i va frames
          let ptr := newGen s k.ctx va (rngPages k.arg * 2 ^ rngLog k.arg) * 2 ^ 48 + va
          some (giveAnswer t k (.words [answerWord 0 (handle t i) 0, BitVec.ofNat 64 ptr]))
        else none
      | 2, .route first =>
        if rtPref k.desc ≤ first ∧ first < 2048 ∧ rtFree s k.desc first ∧ !slotsBefore s k then
          let t := issueHold gone k.ctx i (.route (rtPort k.desc) first (rtSlots k.desc) k.desc) k.life.toNat
          let t := placeRoute t k.ctx (handle t i) first k.desc
          some (giveAnswer t k (.words [answerWord 0 (handle t i) first]))
        else none
      | 2, .refuse 5 =>
        if !slotsBefore s k &&
            (rtAway s k.desc || (List.range 2048).all fun f => f < rtPref k.desc || !rtFree s k.desc f) then
          some (giveAnswer gone k (.words [answerWord 5 0 0]))
        else none
      | 3, .refuse 7 => some (giveAnswer gone k (.words [answerWord 7 0 0]))
      | 3, .group =>
        let t := issueHold gone k.ctx i (.group k.desc false) k.life.toNat
        some (giveAnswer t k (.words [answerWord 0 (handle t i) 0]))
      | _, _ => none

def execCrownHoldPlacement (req : Nat) (p : Placement) (s : State) : Host.Outcome State Fault Refusal :=
  event "CROWN_HOLD_PLACEMENT" s
    (match s.dies.find? fun d => d.2.keeper.any fun k => k.id == req && k.crown with
    | none => none
    | some d =>
      match d.2.keeper.find? fun k => k.id == req with
      | none => none
      | some k => crownPlace s d.1 k p)

/-! ## Lapses (R77, R108, R112, R152) -/

/-- LAP set in the leaf of a page (R152). -/
def lapLeaf (s : State) (ctx va log : Nat) : State :=
  (List.range (if log = 16 then 16 else 1)).foldl (fun s i =>
    let a := va + 4096 * i
    match walk s ctx a with
    | .ok e => writeLeaf a (leafLevel log) (leafPte e.pa e.log e.gen e.r e.w e.x + (if e.lap then 0 else 2 ^ 55)) 3
        (s.ctx ctx).root s
    | .error _ => s) s

/-- R226: a trace encoder whose range has lapsed clears TREN and reports status 2 in its context's mailbox. -/
def stopTraces (s : State) (ctx handle : Nat) : State :=
  let hit (c : Core) : Bool := match c.trace with | some t => t.ctx == ctx && t.handle == handle | none => false
  let any := s.cores.any fun c => hit c.2
  let s := { s with cores := s.cores.map fun c => (c.1,
    if hit c.2 then { c.2 with trace := none, dbgctl := c.2.dbgctl &&& ~~~(0x100#64) } else c.2) }
  if any then s.putObs ctx ((s.obs ctx).set 8 2) else s

/-- R108, R112: the lapse mark of a hold that is not the context's own. The lapse of a lock is sent to its word's home on another
package, whose answer frees the index (R111). -/
def markLapse (s : State) (ctx i : Nat) (h : Hold) : State :=
  match h.kind with
  | .context => s
  | .range va pages log _ frames =>
    let s := (List.range pages).foldl (fun s j => lapLeaf s ctx (va + j * 2 ^ log) log) s
    let s := stopTraces (shootDown s ctx va (pages * 2 ^ log)) ctx (handleOf h i)
    s.setHold ctx i { h with live := false, lapsing := frames }
  | .lock w _ =>
    match homeTile s (8 * w) with
    | some home =>
      let s := s.setHold ctx i { h with live := false, free := true }
      if s.bank home |>.resv.any (fun v => v.word == w && v.lock == some (ctx, i)) then serve (dropLock s home w ctx i) home w
      else s
    | none =>
      tellHome (s.setHold ctx i { h with live := false, lapsing := [8 * w] }) 0 (s.ctx ctx).pkey.toNat 0 (8 * w) (lockNumber ctx i)
  | .route _ _ _ _ => s.setHold ctx i { h with live := false }
  | .group _ _ => s.setHold ctx i { h with live := false }

/-- A hold whose keeper may mark it lapsed now (R108, R110). -/
def holdLapsable (s : State) (ctx i : Nat) : Option Hold :=
  match s.hold ctx i with
  | some h => if h.live && (s.ctx ctx).frozenAt.isNone && decide (h.expiry ≤ s.ptb) then some h else none
  | none => none

/-- Bytes of one frame of a range. -/
def frameLog (h : Hold) : Nat := match h.kind with | .range _ _ log _ _ => log | _ => 12

/-- A part lies in a frame. -/
def inFrame (pa log : Nat) (p : Part) : Bool := p.moves.any fun m => pa ≤ m.1 && m.1 < pa + 2 ^ log

/-- A part that passed its check before the mark and is still to be performed (R77, step 2). -/
def mustPerform (s : State) (r : Req) (p : Part) : Bool :=
  match p.stage with
  | .filling _ | .sent _ _ | .asked _ _ | .granted => true
  | .waiting => (match r.kind with | .sync _ => (s.tag (p.pa / 64)).toNat ≥ 128 | _ => true)
  | _ => false

/-- A part that the lapse ends: queued, deferred, or waiting for its granule (Table 5-5). -/
def lapsePart (pa log : Nat) (s : State) (r : Req) (i : Nat) (p : Part) : State :=
  if inFrame pa log p ∧ !p.settled then
    match s.req r.id with
    | some q => failPart s q i ⟨.lapsed, 0, p.va, none, false⟩
    | none => s
  else s

/-- The grants of the firmware class that zeroing a span of SRAM takes, slice by slice, one for each 256 bytes (R171). -/
def oweZero (s : State) (pa bytes : Nat) : State :=
  if isSram pa && pkgOf pa == s.pkg then
    (List.range ((bytes + 2 ^ 20 - 1) / 2 ^ 20)).foldl
      (fun s i => owe s (localOf pa / 2 ^ 20 + i) ((min bytes (2 ^ 20) + 255) / 256)) s
  else s

/-- R154: a page zeroed at its home: bytes, tags and poison, its cached lines and its shadows discarded (R77, R212). -/
def zeroFrame (s : State) (pa bytes : Nat) : State :=
  let inside (a : Nat) : Bool := pa ≤ a && a < pa + bytes
  let s := oweZero s pa bytes
  { s with
    launches := s.launches.map fun l => (l.1, { l.2 with
      shadows := l.2.shadows.filter fun x => !inside (x.1 * 4096)
      shadowLost := l.2.shadowLost.filter fun w => !inside (8 * w) })
    mem := s.mem.filter fun c => !inside c.1
    tags := s.tags.filter fun t => !inside (t.1 * 64)
    poison := s.poison.filter fun w => !inside (w * 8)
    dies := s.dies.map fun d => (d.1, { d.2 with
      cache := d.2.cache.filter fun l => !inside (l.addr * 128)
      backs := d.2.backs.filter fun l => !inside (l * 128)
      arrived := d.2.arrived.filter fun l => !inside (l * 128) }) }

/-- R152: the keeper of another package has marked a range of its own, of which a translation here maps a page at `va`: LAP is
set in the leaf, and every TLB entry and walk of it goes. -/
def lapsePeer (s : State) (ctx va : Nat) : Option State :=
  match walk s ctx va with
  | .ok e =>
    if pkgOf e.pa ≠ s.pkg ∧ e.gen ≠ 0 ∧ !e.lap then
      let base := e.vpn * 4096
      some (shootDown (lapLeaf s ctx base e.log) ctx base (2 ^ e.log))
    else none
  | .error _ => none

/-- The index by which LAPSE_AT_HOME names the ranges of other packages, no index of a hold here. -/
def peerRange : Nat := 4096

/-- The hold is a range whose page's home has still to order its lapse. -/
def pageLapsing (s : State) (ctx i pa : Nat) : Bool :=
  match s.hold ctx i with
  | some h => h.lapsing.contains pa && (match h.kind with | .range _ _ _ _ _ => true | _ => false)
  | none => false

/-- LAPSE_AT_HOME (R77, R115): the parts that passed before the mark being performed, the home orders the lapse, ends
what waits on the frame's words, and zeroes it; when every home has, frames and index are free. For a range of another package
the page is a virtual address that maps it (R152). -/
def lapseHome (s : State) (ctx i pa : Nat) : Option State :=
  if i = peerRange then lapsePeer s ctx pa
  else if !pageLapsing s ctx i pa then none
  else match s.hold ctx i with
  | none => none
  | some h =>
    let log := frameLog h
    let held := s.threads.any fun t => t.2.comb.any fun c => pa ≤ c.granule * 64 && c.granule * 64 < pa + 2 ^ log
    if held || s.reqs.any (fun r => r.parts.any fun p => inFrame pa log p && mustPerform s r p) then none
    else
      let s := s.reqs.foldl (fun s r =>
        (r.parts.mapIdx fun j p => (j, p)).foldl (fun s x => lapsePart pa log s r x.1 x.2) s) s
      let s := zeroFrame s pa (2 ^ log)
      let rest := h.lapsing.erase pa
      let s := s.setHold ctx i { h with lapsing := rest, free := rest.isEmpty }
      some { s with usedFrames := s.usedFrames.filter fun f => f.1 != pa }

def execLapseAtHome (ctx idx page : Nat) (s : State) : Host.Outcome State Fault Refusal :=
  event "LAPSE_AT_HOME" s (lapseHome s ctx idx page)

end Sys2Proof.Machine
end

