-- ==== Sys2Proof/Machine/System.lean ====
section
/-! DEFINITION. Major 0x38 (spec/16_isa_engines_system.md R353 to R358, spec/01 R19): system registers, `trap`, `eret`,
`hcall`, `dbg` and `tlbinv`; and the die's page walkers (spec/07 R149 to R152). -/

namespace Sys2Proof.Machine

/-! ## Debug control (Table 10-1, R222, R223) -/

/-- A shadow word of ROTTAB as it reads: the reserved bits of its entries are 0 (R4, Table 1-4). -/
def shadowReads (w : Word) : Word := w &&& 0x8F8F_8F8F_8F8F_8F8F

/-- A core is halted (HALTED): HALT is set, no step is under way, and its threads have nothing outstanding. -/
def haltedNow (s : State) (tile : Nat) : Bool :=
  (s.core tile).halt && (s.core tile).step.isNone &&
    (List.range 16).all fun i => !s.busy (keyOf tile i) &&
      (match (s.thr (keyOf tile i)).wait with | some (.keeper _) => false | _ => true)

/-- A slot stands halted: its core is halted, or a STEP of another slot is under way there (R222, R223). -/
def slotHalted (s : State) (key : Nat) : Bool :=
  haltedNow s (tileOf key) ||
    ((s.core (tileOf key)).halt && (s.core (tileOf key)).step.isSome && (s.core (tileOf key)).step != some (slotOf key))

/-- DBGCTL as it reads: HALTED computed, STEP and the reserved bits 0. -/
def readDbgctl (s : State) (tile : Nat) : Word :=
  ((s.core tile).dbgctl &&& 0xF5FF00#64) ||| (if haltedNow s tile then 0x20000#64 else 0)

/-- R110: the hold clock of a context stands while a core of it is halted with FREEZE set; when it goes on, every
hold's expiry takes the time it stood. -/
def refreeze (s : State) (ctx : Nat) : State :=
  let frozen := s.cores.any fun c =>
    c.2.launch.isSome && ctxOf s c.1 == ctx && c.2.dbgctl.getLsbD 18 && haltedNow s c.1
  let x := s.ctx ctx
  match x.frozenAt with
  | none => if frozen then s.setCtx ctx { x with frozenAt := some s.ptb } else s
  | some t =>
    if frozen then s
    else s.setCtx ctx { x with
      frozenAt := none
      holds := x.holds.map fun h => (h.1, if h.2.live then { h.2 with expiry := h.2.expiry + (s.ptb - t) } else h.2) }

/-- A write of DBGCTL (R222, R223): HALT stops the core's threads at their boundaries, a STEP while halted releases
SSLOT for one instruction, and the rest is stored. -/
def writeDbgctl (s : State) (tile : Nat) (x : Word) : State :=
  let was := haltedNow s tile
  let s := s.updCore tile fun c =>
    { c with
      dbgctl := x &&& 0xF5FF00#64
      step := if x.getLsbD 19 && was && x.getLsbD 16 then some (x.toNat / 2 ^ 20 % 16)
        else if x.getLsbD 16 then c.step else none }
  let s := if x.getLsbD 16 then haltCore s tile else s
  refreeze s (ctxOf s tile)

/-! ## System registers (Table 1-7) -/

/-- The value a system register reads; none where the number is not assigned. -/
def sysValue (s : State) (n : Nat) : Option Word :=
  let t := s.me
  let c := s.myCore
  let tile := tileOf s.cur
  match n with
  | 0x000 => some (BitVec.ofNat 64 (coreId s tile))
  | 0x001 => some (BitVec.ofNat 64 (slotOf s.cur))
  | 0x002 => some (BitVec.ofNat 64 (ctxOf s tile))
  | 0x003 => some (BitVec.ofNat 64 (capOf s s.cur))
  | 0x010 => some (t.fpctl.zeroExtend 64)
  | 0x011 => some (t.fpflags.zeroExtend 64)
  | 0x012 => some (t.qprime.zeroExtend 64)
  | 0x013 => some (BitVec.ofNat 64 ((if t.dlEn then 2 ^ 63 else 0) + t.dlLeft.toNat))
  | 0x014 => some (c.eseq.zeroExtend 64)
  | 0x015 => some (BitVec.ofNat 64 ((if c.mxprog.valid then 2 ^ 48 else 0) + c.mxprog.seq.toNat * 2 ^ 32 +
      c.mxprog.groups.toNat))
  | 0x020 => some t.trapvec
  | 0x021 => some t.trapcause
  | 0x022 => some t.trappc
  | 0x023 => some t.trapval
  | 0x100 => some (shadowReads c.shadow[0])
  | 0x101 => some (shadowReads c.shadow[1])
  | 0x102 => some (shadowReads c.shadow[2])
  | 0x103 => some (shadowReads c.shadow[3])
  | 0x104 => some (BitVec.ofNat 64 ((if c.rej then 2 else 0) + if c.pend then 1 else 0))
  | 0x105 => some (c.stagger.zeroExtend 64)
  | 0x106 => some (readDbgctl s tile)
  | _ => none

/-- Registers marked priv (Table 1-7). -/
def sysPriv (n : Nat) : Bool := 0x100 ≤ n && n ≤ 0x106
/-- Registers marked ro. -/
def sysRo (n : Nat) : Bool := n ≤ 0x003 || n == 0x014 || n == 0x015 || n == 0x104

/-- A write of a register that may be written, its reserved bits ignored (R4, R353). -/
def sysWrite (s : State) (n : Nat) (x : Word) : State :=
  let tile := tileOf s.cur
  match n with
  | 0x010 => s.updMe fun t => { t with fpctl := x.truncate 4 }
  | 0x011 => s.updMe fun t => { t with fpflags := x.truncate 8 }
  | 0x012 => s.updMe fun t => { t with qprime := x.truncate 4 }
  | 0x013 => s.updMe fun t => { t with dlEn := x.getLsbD 63, dlLeft := x.truncate 48, dlDue := false }
  | 0x020 => s.updMe fun t => { t with trapvec := x &&& 0x0000FFFFFFFFFFFC#64 }
  | 0x021 => s.updMe fun t => { t with trapcause := x &&& 0x0000FFFF0007FFFF#64 }
  | 0x022 => s.updMe fun t => { t with trappc := x &&& 0x0000FFFFFFFFFFFF#64 }
  | 0x023 => s.updMe fun t => { t with trapval := x }
  | 0x100 => writeShadow s tile 0 x
  | 0x101 => writeShadow s tile 1 x
  | 0x102 => writeShadow s tile 2 x
  | 0x103 => writeShadow s tile 3 x
  | 0x105 => s.updCore tile fun c => { c with stagger := x.truncate 6 }
  | 0x106 => writeDbgctl s tile x
  | _ => s

/-- R19: the checks of an access in their order. -/
def sysCheck (s : State) (n : Nat) (write : Bool) : M Unit :=
  if (sysValue s n).isNone then illegal s 4
  else if sysPriv n && !privileged s.cur then raisePrecise .priv 0 (curWord s)
  else if write && sysRo n then illegal s 4
  else .ok ()

def execSysrd (d : SReg) (n : Fin 2048) (g : KReg) (s : State) : Host.Outcome State Fault Refusal :=
  run s (do
    sysCheck s n.val false
    guarded s g (.ok (s.ws d ((sysValue s n.val).getD 0))))

/-- In a protected pair the write passes the store comparator, and each thread writes its own register (R209). -/
def execSyswr (n : Fin 2048) (a : SReg) (g : KReg) (s : State) : Host.Outcome State Fault Refusal :=
  run s (do
    sysCheck s n.val true
    guarded s g (do
      let s ← compareOp s ⟨cmpSyswr + n.val, [], [(s.rs a).toNat], 8⟩
      .ok (sysWrite s n.val (s.rs a))))

/-! ## `trap`, `eret`, `hcall`, `dbg` -/

/-- R354: ILLEGAL, DETAIL 1, for a code out of range or a nonzero field above DETAIL. -/
def execTrap (d a : SReg) (g : KReg) (s : State) : Host.Outcome State Fault Refusal :=
  let x := (s.rs a).toNat
  run s (guarded s g (
    match codeOfNum (x % 256) with
    | none => illegal s 1
    | some c =>
      if x / 2 ^ 16 ≠ 0 then illegal s 1
      else raisePrecise c (x / 256 % 256) (s.rs d).toNat))

/-- R210: the trailing thread takes the leading thread's registers and runs again beside it. -/
def restorePair (s : State) (pc : VAddr) : State :=
  let t := s.me
  let p := s.thr (partnerOf s.cur)
  if slotOf s.cur % 2 = 1 ∧ p.live ∧ p.role = .trailing then
    (s.updThr (partnerOf s.cur) fun q =>
      { t with
        role := .trailing, parked := false, pc := pc, npc := pc, wait := none, lvq := [], cmp := none, ibuf := []
        view := none, oldDl := none, scrub := none, comb := [], failures := [], contain := [], stalls := [], reserved := none, counters := q.counters
        got := none, missPage := none, walkFault := none }).updMe fun t => { t with role := .leading, cmp := none }
  else s

/-- R355, R198. -/
def eretTo (s : State) : State :=
  let pc : VAddr := s.me.trappc.truncate 48
  let s := s.updMe fun t =>
    { t with npc := pc, trapcause := t.trapcause &&& ~~~(0x40000#64), noHit := true
             ibuf := t.ibuf.take ((t.npc - t.pc).toNat / 4) }
  traceRecord (restorePair s pc) s.cur 5 pc.toNat (BitVec.ofNat 64 s.ptb)

def execEret (g : KReg) (s : State) : Host.Outcome State Fault Refusal :=
  run s (guarded s g (
    if s.me.role = .trailing then blockOn .pair
    else if s.me.trappc.toNat % 4 ≠ 0 then raisePrecise .align 0 s.me.trappc.toNat
    else .ok (eretTo s)))

/-- R356: eight words read, posted to the driver, its answer written. -/
def execHcall (d a : SReg) (g : KReg) (s : State) : Host.Outcome State Fault Refusal :=
  run s (
    if privileged s.cur then illegal s 1
    else guarded s g (
      match s.me.got with
      | some (.words ws) =>
        if ws.length = 8 then .error (.call ⟨lidOf s (tileOf s.cur), s.myCore.index, slotOf s.cur, d.val, ws⟩)
        else withAnswer s (putAnswer d) (.ok s)
      | _ => withAnswer s (putAnswer d) (readFirst s (s.rs a) 8)))

/-- An answer delivered to a thread that waits for its call. -/
def answerCall (answer : Word) (t : Thread) : Thread :=
  if t.live && t.wait == some .call then { t with got := some (.words [answer]), wait := none } else t

/-- The answer reaches the caller where it runs, or in its saved image (R206). -/
def deliverAnswer (s : State) (c : Call) (answer : Word) : State :=
  let l := s.launch c.lid
  match l.tiles[c.index]? with
  | some tile =>
    if (s.core tile).launch = some c.lid then s.updThr (keyOf tile c.slot) (answerCall answer) else s
  | none =>
    s.setLaunch c.lid { l with saved := l.saved.map fun x =>
      if x.index = c.index then
        { x with threads := x.threads.map fun t => (t.1, if t.1 = c.slot then answerCall answer t.2 else t.2) }
      else x }

/-- CALL_DONE (R356): the driver has written DONE: the answer goes to the caller, unless it was abandoned, and the next
call is posted. -/
def execCallDone (ctx : Nat) (answer : Word) (s : State) : Host.Outcome State Fault Refusal :=
  event "CALL_DONE" s
    (match (s.ctx ctx).posted with
    | none => none
    | some c =>
      let s' := (s.updCtx ctx fun x => { x with posted := none, orphan := false }).putBox ctx callAt
        (answeredBox answer (s.callBox ctx))
      some (postCall (if (s.ctx ctx).orphan then s' else deliverAnswer s' c answer) ctx))

/-- R357. -/
def execDbg (g : KReg) (s : State) : Host.Outcome State Fault Refusal :=
  run s (guarded s g (
    if s.myCore.dbgctl.getLsbD 9 then raisePrecise .debug 3 s.me.pc.toNat
    else .ok (haltCore s (tileOf s.cur))))

/-! ## Translation: invalidation and walks (R150, R152, R358) -/

/-- Fields of a `tlbinv` descriptor. -/
def tlbinvBad (x : Word) : Bool :=
  16 < bitsOf x.toNat 57 53 || bitsOf x.toNat 62 58 != 0 || bitsOf x.toNat 51 48 != 0 || bitsOf x.toNat 11 0 != 0

/-- TLB entries that a descriptor names. -/
def tlbinvHit (x : Word) (e : TlbEntry) : Bool :=
  e.ctx == bitsOf x.toNat 57 53 && (bitOf x.toNat 52 || bitsOf x.toNat 47 12 * 4096 / 2 ^ e.log == e.vpn * 4096 / 2 ^ e.log)

/-- A walk in flight for a page that a descriptor names, whatever the size of the page it finds, is to be made again. -/
def staleBy (s : State) (x : Word) (w : Walk) : Walk :=
  let named := match walk s w.ctx (w.vpn * 4096) with
    | .ok e => tlbinvHit x e
    | .error _ => w.vpn == bitsOf x.toNat 47 12
  let hit := w.taken && w.ctx == bitsOf x.toNat 57 53 && (bitOf x.toNat 52 || named)
  { w with stale := w.stale || hit }

/-- R358: entries removed on the named dies, and walks in flight for those pages marked to be made again. -/
def invalidate (s : State) (x : Word) : State :=
  let here (die : Nat) : Bool := bitOf x.toNat 63 || die == dieOf (tileOf s.cur)
  { s with
    cores := s.cores.map fun c =>
      (c.1, if here (dieOf c.1) then { c.2 with tlb := c.2.tlb.filter fun e => !tlbinvHit x e } else c.2)
    quads := s.quads.map fun q =>
      (q.1, if here (q.1 / 256) then { q.2 with tlb := q.2.tlb.filter fun e => !tlbinvHit x e } else q.2)
    dies := s.dies.map fun d =>
      (d.1, if here d.1 then { d.2 with walks := d.2.walks.map (staleBy s x) } else d.2) }

/-- Walks that are to be made again. -/
def staleWalks (s : State) : Bool := s.dies.any fun d => d.2.walks.any (·.stale)

/-- R358: the thread waits until the walks in flight for those pages have ended. -/
def execTlbinv (a : SReg) (g : KReg) (s : State) : Host.Outcome State Fault Refusal :=
  run s (
    if !privileged s.cur then raisePrecise .priv 0 (curWord s)
    else guarded s g (
      if tlbinvBad (s.rs a) then illegal s 1
      else
        let t := invalidate s (s.rs a)
        .ok (if staleWalks t then t.updMe fun t => { t with wait := some .tlbInvalidate } else t)))

/-- R150: the context whose pages a free walker takes next, after the one it took last, in rotation by number. -/
def nextWalkCtx (d : Die) : Option Nat :=
  (((List.range 32).map fun i => (d.lastWalkCtx + 1 + i) % 32).find? fun c =>
    d.walks.any fun w => w.ctx == c && !w.taken)

/-- TLB_MISS_WALK: a free walker of 32 takes the oldest waiting page of the next context. -/
def execTlbMissWalk (die ctx : Nat) (s : State) : Host.Outcome State Fault Refusal :=
  let d := s.die die
  event "TLB_MISS_WALK" s
    (if (d.walks.filter (·.taken)).length < 32 ∧ nextWalkCtx d = some ctx then
      some (s.setDie die { d with
        lastWalkCtx := ctx
        walks := lupd (fun w => w.ctx == ctx && !w.taken) (fun w => { w with taken := true }) d.walks })
    else none)

/-- A walk's result for a thread that missed. -/
def walkThread (r : Except Nat TlbEntry) (vpn : Nat) (s : State) (key : Nat) : State :=
  let s := match r with | .ok e => tlbFill s (tileOf key) e | .error _ => s
  if (s.thr key).missPage = some vpn then
    s.updThr key fun t =>
      { t with
        missPage := none
        wait := if t.wait = some .translation then none else t.wait
        walkFault := match r with | .ok _ => none | .error c => some (vpn, c) }
  else s

/-- A walk's result for an engine that missed. -/
def walkEngine (r : Except Nat TlbEntry) (vpn : Nat) (s : State) (n : Nat) : State :=
  match r with
  | .ok e => tlbFill s (n / 4) e
  | .error c => s.updCore (n / 4) fun k =>
    let e := k.eng (engOf n)
    k.setEng (engOf n) { e with run := e.run.map fun x => { x with walkFault := some (vpn, c) } }

/-- WALK_COMPLETE: the walk's result reaches every miss that joined it; one made stale delivers nothing and is made
again (R152). -/
def walkDone (s : State) (die id : Nat) : Option State :=
  match (s.die die).walks.find? fun w => w.id == id && w.taken with
  | none => none
  | some w =>
    let s :=
      if w.stale then
        s.updDie die fun d =>
          { d with walks := lupd (fun x => x.id == id) (fun x => { x with taken := false, stale := false }) d.walks }
      else
        let r := walk s w.ctx (w.vpn * 4096)
        let s := s.updDie die fun d => { d with walks := d.walks.filter fun x => x.id != id }
        w.engs.foldl (walkEngine r w.vpn) (w.waiters.foldl (walkThread r w.vpn) s)
    some (if staleWalks s then s
      else { s with threads := s.threads.map fun t =>
        (t.1, if t.2.wait = some .tlbInvalidate then { t.2 with wait := none } else t.2) })

def execWalkComplete (die walk : Nat) (s : State) : Host.Outcome State Fault Refusal :=
  event "WALK_COMPLETE" s (walkDone s die walk)

end Sys2Proof.Machine
end

