-- ==== Sys2Proof/Machine/Sync.lean ====
section
/-! DEFINITION. Majors 0x29 to 0x2C but `launch` (spec/15_isa_memory_sync.md R327 to R332): time, messages, barriers,
the end of a core's part, the probe, helpers. -/

namespace Sys2Proof.Machine

/-! ## Major 0x29 (R327) -/

def execTick (d : SReg) (g : KReg) (s : State) : Host.Outcome State Fault Refusal :=
  scalarOp d g s (BitVec.ofNat 64 s.ptb)

def execTickw (a : SReg) (g : KReg) (s : State) : Host.Outcome State Fault Refusal :=
  run s (guarded s g (do
    await (decide ((s.rs a).toNat ≤ s.ptb)) (.time (s.rs a).toNat)
    .ok s))

/-- `dline` with LEFT 0 turns the budget off. -/
def execDline (a : SReg) (g : KReg) (s : State) : Host.Outcome State Fault Refusal :=
  let left : BitVec 48 := (s.rs a).truncate 48
  run s (guarded s g (.ok (s.updMe fun t => { t with dlLeft := left, dlEn := left != 0, dlDue := false })))

/-! ## Major 0x2A (R328, R329) -/

/-- The header of a message as the core writes it (Table 15-15). -/
def msgHeader (cap : Nat) (x : Word) : Word :=
  BitVec.ofNat 64 (cap * 2 ^ 48 + x.toNat / 2 ^ 40 % 256 * 2 ^ 40 + x.toNat % 2 ^ 20)

def hdrDst (h : Word) : Nat := h.toNat % 2 ^ 20
def hdrHandler (h : Word) : Nat := h.toNat / 2 ^ 40 % 256
def hdrCap (h : Word) : Nat := h.toNat / 2 ^ 48

/-- The header of a message's 64 bytes. -/
def bodyHeader (v : Vec) : Word := BitVec.ofNat 64 (v.toNat % 2 ^ 64)

/-- A message's 64 bytes: header, then bytes 0 to 55 of the payload. -/
def msgBody (h : Word) (v : Vec) : Vec := BitVec.ofNat 512 (h.toNat + v.toNat % 2 ^ 448 * 2 ^ 64)

/-- Where a message to a tile is taken: at the tile, or where the live forward holds of tiles that no launch holds lead (R207). -/
def forwardTo (s : State) : Nat → Nat → Nat
  | 0, tile => tile
  | n + 1, tile =>
    if (s.core tile).launch.isSome then tile
    else match s.forwards.find? fun f => f.1 == tile && decide (s.ptb < f.2.2) with
      | some f => forwardTo s n f.2.1
      | none => tile

/-- A core of this package is bound to a launch, or the live forward holds of its tile lead to one that is (R140, R207). -/
def boundTo (s : State) (pkg tile lid : Nat) : Bool :=
  pkg == s.pkg && (s.core (forwardTo s s.forwards.length tile)).launch == some lid

/-- A message leaves: toward a tile of this package, or as a packet with its placement awaited (R88, R182). -/
def sendMsg (s : State) (key : Nat) (body : Vec) : State :=
  let tile := tileOf key
  let dst := hdrDst (bodyHeader body)
  let m : Msg := {
    key := key
    lid := lidOf s tile
    ctx := ctxOf s tile
    body := body
    dst := dst % 4096
    pkg := dst / 4096
    txid := none
    fwd := false
    peer := none
    born := (s.thr key).born }
  if dst / 4096 = s.pkg then { s with net := s.net ++ [m] }
  else match portFor s (dst / 4096) with
    | none => { s with net := s.net ++ [m] }
    | some port =>
      let x := s.txid
      let s := sendPacket s port (.pool (dieOf tile)) (mkPacket s 0x08 (capOf s key) (dst / 4096) x tile dst (vecBytes body))
      { s with net := s.net ++ [{ m with txid := some x }] }

/-- R88, R328: issued once every earlier access is performed and every earlier message of the thread placed. -/
def execMsend (a : SReg) (b : VFld) (g : KReg) (s : State) : Host.Outcome State Fault Refusal :=
  run s (do
    checkBound s [b] none
    guarded s g (do
      plainReady s
      messageReports s
      await (s.net.all fun m => !ownMsg s m) .placement
      let (v, t) ← sources1 s b none
      let h := msgHeader (capOf s s.cur) (s.rs a)
      let t ← compareOp t ⟨cmpMsend, [], [h.toNat, v.toNat % 2 ^ 448], 64⟩
      if s.me.role = .trailing then .ok t
      else
        let tile := tileOf s.cur
        let inside := boundTo s (hdrDst h / 4096) (hdrDst h % 4096) (lidOf s tile) && s.myCore.launch.isSome
        let t := if inside then t.updMyCore fun c => { c with sent := c.sent + 1 } else endReplay t (lidOf s tile)
        let t := traceRecord t s.cur 2 s.me.pc.toNat h
        .ok (sendMsg t s.cur (msgBody h v))))

/-- R329: a bound endpoint read without waiting. The inbox bound to `ch0` of slot 11 reads as a reader with the
inbox's 64 entries for its allowance (R102; DEDUCED, log entry 10). -/
def chanWord (s : State) (ch : Nat) : Option Nat :=
  let chans := (s.launch (lidOf s (tileOf s.cur))).chans
  match readEnd s s.cur ch, writeEnd s s.cur ch with
  | some n, _ =>
    if n = inboxChan then some (s.myCore.inbox.length + 64 * 256)
    else match chans[n]? with
      | some c => some (c.buf.length + c.allow * 256)
      | none => none
  | none, some n => match chans[n]? with
    | some c => some (c.credits + c.allow * 256 + 2 ^ 16)
    | none => none
  | none, none => none

def execChlen (d : SReg) (ch : Fin 8) (g : KReg) (s : State) : Host.Outcome State Fault Refusal :=
  run s (
    match chanWord s ch.val with
    | none => illegal s 2
    | some x => guarded s g (.ok (s.ws d (BitVec.ofNat 64 x))))

/-! ## Major 0x2B: barriers (R330, R136 to R139) -/

def BScopeTo (sc : BScope) : Scope := match sc with | .core => .core | .quad => .quad | .die => .die | .pkg => .pkg

/-- Slots in which a barrier member may issue (Table 15-16). -/
def barSlot (sc : BScope) (slot : Nat) : Bool := match sc with | .core => slot ≤ 10 | _ => slot == 0

/-- R330: the arrival fences, samples the flags and waits; BARRIER_RELEASE ends the wait. -/
def execBar (sc : BScope) (g : KReg) (s : State) : Host.Outcome State Fault Refusal :=
  run s (
    if !barSlot sc (slotOf s.cur) then illegal s 1
    else guarded s g (do
      fenceWait s (BScopeTo sc) false
      blockOn (.barrier sc s.me.fpflags s.cycle)))

/-- The instruction a thread waits at completes: it goes on at the next word. -/
def completeAt (t : Thread) : Thread :=
  { t with pc := t.pc + 4, npc := t.pc + 4, ibuf := t.ibuf.drop 1, wait := none, noHit := false, walkFault := none }

/-- A core whose slot 0 takes part in barriers: it is live and has not executed `done`. -/
def inBarrier (s : State) (tile : Nat) : Bool :=
  let t := s.thr (keyOf tile 0)
  t.live && t.wait != some .completion

/-- R136, Table 6-10: the threads whose arrival a barrier of a tile's launch counts. -/
def participants (s : State) (sc : BScope) (tile : Nat) : List Nat :=
  let lid := lidOf s tile
  let tiles := (s.launch lid).tiles
  let zero (p : Nat → Bool) : List Nat :=
    (tiles.filter fun t => p t && (s.core t).launch == some lid && inBarrier s t).map fun t => keyOf t 0
  match sc with
  | .core => ((List.range 11).map (keyOf tile)).filter fun k =>
      (s.thr k).live && (slotOf k != 0 || inBarrier s tile)
  | .quad => zero fun t => quadOf t == quadOf tile
  | .die => zero fun t => dieOf t == dieOf tile
  | .pkg => zero fun _ => true

/-- A participant that has arrived, and does not stand halted (R222): its flags and the cycle of its arrival. -/
def arrival (s : State) (sc : BScope) (key : Nat) : Option (BitVec 8 × Nat) :=
  if slotHalted s key then none
  else match (s.thr key).wait with
    | some (.barrier c f a) => if c = sc then some (f, a) else none
    | _ => none

/-- Release delays after the last arrival (Table 6-10). -/
def releaseDelay (sc : BScope) : Nat := match sc with | .core => 1 | .quad => 4 | .die => 48 | .pkg => 96

/-- R54, R137: a participant released with the merged flags; above `.core` its slot 0 is ready after its stagger. -/
def releaseOne (staggered : Bool) (flags : BitVec 8) (s : State) (key : Nat) : State :=
  let tile := tileOf key
  let d := (s.core tile).stagger.toNat * (pkgCol tile + pkgRow tile)
  (endStep s key).updThr key fun t =>
    { completeAt t with
      fpflags := t.fpflags ||| flags
      wait := if staggered && d != 0 then some (.stagger (s.cycle + d)) else none }

/-- BARRIER_RELEASE (R136, R137, R54): every current participant is waiting with the same scope. -/
def release (s : State) (sc : BScope) (tile : Nat) : Option State :=
  let ps := participants s sc tile
  let as := ps.map (arrival s sc)
  if (s.core tile).launch.isNone || ps.isEmpty || as.any (·.isNone) then none
  else
    let last := as.foldl (fun c a => max c (a.getD (0, 0)).2) 0
    let flags := as.foldl (fun f a => f ||| (a.getD (0, 0)).1) 0
    if s.cycle < last + releaseDelay sc then none
    else some (ps.foldl (releaseOne (sc != .core) flags) s)

def execBarrierRelease (sc : BScope) (tile : Nat) (s : State) : Host.Outcome State Fault Refusal :=
  event "BARRIER_RELEASE" s (release s sc tile)

/-- STAGGER_READY (R137). -/
def execStaggerReady (tile : Nat) (s : State) : Host.Outcome State Fault Refusal :=
  event "STAGGER_READY" s
    (match (s.thr (keyOf tile 0)).wait with
    | some (.stagger c) => if c ≤ s.cycle then some (s.updThr (keyOf tile 0) fun t => { t with wait := none }) else none
    | _ => none)

/-! ### Pod barriers (R139) -/

/-- A core arrives at an episode: counted among the member's first NCORE cores, the member's arrival reported when the
last of them comes in time. -/
def arriveEpisode (s : State) (key tick tile : Nat) (d : List Word) (flags : BitVec 8) : State :=
  let e := (s.episode key tick).getD ⟨key, tick, [], false, false, []⟩
  let e := { e with tiles := e.tiles ++ [(tile, flags)], late := e.late || decide (tick < s.ptb + 2048) }
  let s := setEpisode s e
  if memberArrived s d e ∧ !e.late then tellMembers s tile d e false else s

/-- R330, R139: LAPSED for a lapsed group, BARLATE after T or beyond the member's count, else the arrival. A core whose
arrival in the episode stands waits again in it (DESIGN CHOICE, log entry 98). -/
def execBarPod (a b : SReg) (g : KReg) (s : State) : Host.Outcome State Fault Refusal :=
  let handle := (s.rs a).toNat % 2 ^ 16
  let tick := (s.rs b).toNat
  let ctx := ctxOf s (tileOf s.cur)
  let key := groupKey s ctx handle
  if slotOf s.cur ≠ 0 then run s (illegal s 1)
  else if !s.rk g then run s (.ok s)
  else
    match s.me.got with
    | some (.fault f) => run s (.error (.fault f))
    | _ =>
      match fenceWait s .pod false with
      | .error h => run s (.error h)
      | .ok _ =>
        match liveGroup s ctx handle with
        | none => run s (raisePrecise .lapsed 0 handle)
        | some d =>
          let here := match s.episode key tick with | some e => e.tiles | none => []
          if s.ptb ≤ tick ∧ here.any (fun x => x.1 == tileOf s.cur) then
            .next (stay s (.podBarrier key tick s.me.fpflags))
          else if tick < s.ptb ∨ myCores s d ≤ here.length then run s (raisePrecise .barlate 0 tick)
          else .next (stay (arriveEpisode s key tick (tileOf s.cur) d s.me.fpflags) (.podBarrier key tick s.me.fpflags))

/-- A waiting participant's fault: taken at its `bar`, unless an imprecise report comes first, after which the `bar` is
met again; on a core that is halted or being saved, when the thread goes on (R205, R222). -/
def faultWaiter (f : FaultRec) (s : State) (key : Nat) : State :=
  if impreciseDue s key then s.updThr key fun t => { t with wait := none }
  else if stopped s key then s.updThr key fun t => { t with wait := none, got := some (.fault f) }
  else takeFault s key f

/-- Threads that wait at an episode. -/
def waitersAt (s : State) (key tick : Nat) : List Nat :=
  (s.threads.filter fun t => t.2.live && (match t.2.wait with | some (.podBarrier k T _) => k == key && T == tick | _ => false)).map
    (·.1)

/-- Saved threads that wait at an episode take its outcome into their image (R206). -/
def savedWaiters (s : State) (key tick : Nat) (f : Thread → Thread) : State :=
  let upd (t : Thread) : Thread :=
    match t.wait with
    | some (.podBarrier k T _) => if k = key ∧ T = tick then f t else t
    | _ => t
  { s with launches := s.launches.map fun l =>
      (l.1, { l.2 with saved := l.2.saved.map fun c => { c with threads := c.threads.map fun t => (t.1, upd t.2) } }) }

/-- This member's arrival at an episode is on its way to another member: held in a port's FIFO, or in flight. -/
def arrivalAway (s : State) (e : Episode) (held : Port → Bool) (flight : Flight → Bool) : Bool :=
  (s.ports.any fun p => held p.2 && p.2.fifo.any fun o => ofEpisode e o.pkt) ||
    s.flights.any fun f => ofEpisode e f.pkt && flight f

/-- A port that has stopped keeps this member's arrival from another member. -/
def arrivalStalled (s : State) (e : Episode) : Bool :=
  arrivalAway s e (fun p => p.closed s) fun f =>
    match (s.port f.port).stalled with | some t => t ≤ f.slot + (s.port f.port).flight | none => false

/-- R139: from T - 2,048 on the member has arrived, or it has not: it is late where cores of it are missing or halted (R222),
and where a port that has stopped holds its arrival back (R214). Members that were told otherwise are told so (DESIGN CHOICE,
log entry 98). -/
def closeEpisode (s : State) (e : Episode) : Option State :=
  let d := (groupByKey s e.key).getD []
  let halted := e.tiles.any fun x => slotHalted s (keyOf x.1 0)
  let told := memberArrived s d e && !e.late
  if !e.closed then
    let x := { e with closed := true, late := e.late || !told || halted }
    let t := setEpisode s x
    some (if told && halted then tellMembers t ((e.tiles.headD (0, 0)).1) d x true else t)
  else if !e.late && arrivalStalled s e then
    let x := { e with late := true }
    some (tellMembers (setEpisode s x) ((e.tiles.headD (0, 0)).1) d x true)
  else none

/-- POD_BARRIER_TICK (R139): from T - 2,048 on the member's arrival is decided; at T every participant is released with the
merged flags, or every one that waits raises BARLATE and its arrival is withdrawn. -/
def podTick (s : State) (key tick : Nat) : Option State :=
  match s.episode key tick with
  | none => none
  | some e =>
    if s.ptb + 2048 ≤ tick then none
    else match closeEpisode s e with
    | some t => some t
    | none =>
      if s.ptb < tick then none
      else
        let all : Bool := match groupByKey s key with
          | some d => memberArrived s d e && !e.late &&
              !arrivalAway s e (fun _ => true) (fun f => decide (tick ≤ f.slot + (s.port f.port).flight)) &&
              (grpList d).all fun m => m == s.pkg || e.remote.any fun x => x.1 == m
          | none => false
        let s' := { s with episodes := s.episodes.filter fun x => !(x.key == key && x.tick == tick) }
        if all then
          some (savedWaiters ((waitersAt s key tick).foldl (releaseOne true e.flags) s') key tick fun t =>
            { completeAt t with fpflags := t.fpflags ||| e.flags })
        else
          let f : FaultRec := ⟨.barlate, 0, tick, none, false⟩
          some (savedWaiters ((waitersAt s key tick).foldl (faultWaiter f) s') key tick fun t =>
            { t with wait := none, got := some (.fault f) })

def execPodBarrierTick (key tick : Nat) (s : State) : Host.Outcome State Fault Refusal :=
  event "POD_BARRIER_TICK" s (podTick s key tick)

/-- A group hold that lapses: the participants of its context that wait raise LAPSED (R139). -/
def groupLapse (s : State) (ctx i : Nat) (h : Hold) : State :=
  match h.kind with
  | .group d _ =>
    let key := groupName s ctx d
    let f : FaultRec := ⟨.lapsed, 0, handleOf h i, none, false⟩
    let mine := (s.threads.filter fun t => t.2.live && ctxOf s (tileOf t.1) == ctx &&
      (match t.2.wait with | some (.podBarrier k _ _) => k == key | _ => false)).map (·.1)
    let s := mine.foldl (faultWaiter f) s
    { s with
      episodes := s.episodes.filter fun e => e.key != key
      launches := s.launches.map fun l =>
        if l.2.ctx ≠ ctx then l
        else (l.1, { l.2 with saved := l.2.saved.map fun c => { c with threads := c.threads.map fun t =>
          (t.1, match t.2.wait with
            | some (.podBarrier k _ _) => if k = key then { t.2 with wait := none, got := some (.fault f) } else t.2
            | _ => t.2) } }) }
  | _ => s

/-! ## `done` and `probe` (R132, R141) -/

/-- R330: the core's part ends when the waits of R132 end (CORE_COMPLETION). -/
def execDone (a : SReg) (g : KReg) (s : State) : Host.Outcome State Fault Refusal :=
  run s (
    if slotOf s.cur ≠ 0 then illegal s 1
    else guarded s g (do
      plainReady s
      messageReports s
      .error (.finish (s.rs a))))

def execProbe (g : KReg) (s : State) : Host.Outcome State Fault Refusal :=
  run s (
    if slotOf s.cur ≠ 0 then illegal s 1
    else guarded s g (do
      plainReady s
      messageReports s
      blockOn .probe))

/-- A core is passive (R141). -/
def passive (s : State) (tile : Nat) : Bool :=
  let c := s.core tile
  (s.thr (keyOf tile 0)).live && (s.thr (keyOf tile 0)).wait == some .probe &&
    (List.range 12).all (fun i => !(s.thr (keyOf tile (i + 1))).live) && c.inbox.isEmpty && c.spill == 0

/-- Every waiting `probe` completes, and counters and colours return to their start (R141). -/
def endPhase (s : State) (tiles : List Nat) : State :=
  tiles.foldl (fun s t =>
    let s := s.updCore t fun c => { c with sent := 0, recv := 0, black := false }
    if (s.thr (keyOf t 0)).wait = some .probe then (endStep s (keyOf t 0)).updThr (keyOf t 0) completeAt else s) s

/-- PROBE_TOKEN (R141): the passive core at which the token waits adds its count, passes its colour on and turns white;
past the last core the phase ends, or another pass begins. -/
def probeToken (s : State) (lid : Nat) : Option State :=
  let l := s.launch lid
  match l.tiles[l.probeAt]? with
  | none => none
  | some tile =>
    if l.state != .running || (s.core tile).launch != some lid || !passive s tile then none
    else
      let c := s.core tile
      let sum := l.probeSum + (c.sent : Int) - (c.recv : Int)
      let black := l.probeBlack || c.black
      let s := s.setCore tile { c with black := false }
      if l.probeAt + 1 < l.tiles.length then
        some (s.setLaunch lid { l with probeAt := l.probeAt + 1, probeSum := sum, probeBlack := black })
      else
        let s := s.setLaunch lid { l with probeAt := 0, probeSum := 0, probeBlack := false }
        some (if !black && sum == 0 then endPhase s l.tiles else s)

def execProbeToken (launch : Nat) (s : State) : Host.Outcome State Fault Refusal :=
  event "PROBE_TOKEN" s (probeToken s launch)

/-- TIME_WAIT_END (R327): the time base has reached a `tickw`'s target. -/
def execTimeWaitEnd (tile slot : Nat) (s : State) : Host.Outcome State Fault Refusal :=
  event "TIME_WAIT_END" s
    (match (s.thr (keyOf tile slot)).wait with
    | some (.time t) => if t ≤ s.ptb then some (s.updThr (keyOf tile slot) fun x => { x with wait := none }) else none
    | _ => none)

/-! ## Major 0x2C: helpers (R331, R332) -/

/-- A slot in which a helper may start: no thread is live in it, its register bank is not being scrubbed (R208), and no
request of the thread before stands in the SFU's queue (R97). -/
def slotFree (s : State) (tile i : Nat) : Bool :=
  !(s.thr (keyOf tile i)).live && !(s.thr (keyOf tile i)).parked && !sfuPending s (keyOf tile i)

/-- The state of a helper at its start (R331), in a slot whose rotation counters run on. -/
def helperStart (t : Thread) (arg : Word) (pc : VAddr) (role : PairRole) (old : Thread) : Thread :=
  let r : Regs := (((Regs.reset.ws 1 (t.src.rs 1)).ws 2 (t.src.rs 2)).ws 3 (t.src.rs 3)).ws 4 arg
  { Thread.reset with
    live := true
    pc := pc
    npc := pc
    regs := r
    fpctl := t.fpctl
    qprime := t.qprime
    dlEn := t.dlEn
    dlLeft := t.dlLeft
    trapvec := t.trapvec
    role := role
    counters := old.counters
    seq := old.seq + 1
    born := old.seq + 1 }

/-- One helper started. -/
def startSlot (s : State) (i : Nat) (arg : Word) (pc : VAddr) (role : PairRole) : State :=
  let t := s.me
  s.updThr (keyOf (tileOf s.cur) i) (helperStart t arg pc role)

/-- R331: ILLEGAL outside slot 0, then ALIGN of the entry, before a slot is looked for. -/
def startHelper (d a : SReg) (g : KReg) (s : State) (find : Option Nat) (start : State → Nat → VAddr → State) :
    Host.Outcome State Fault Refusal :=
  run s (
    if slotOf s.cur ≠ 0 then illegal s 1
    else guarded s g (do
      ensure ((s.rs a).toNat % 4 == 0) .align 0 ((s.rs a).toNat % 2 ^ 48)
      match find with
      | none => .ok (s.ws d 0)
      | some i => .ok ((start s i ((s.rs a).truncate 48)).ws d (BitVec.ofNat 64 i))))

def execHstart (d a b : SReg) (g : KReg) (s : State) : Host.Outcome State Fault Refusal :=
  startHelper d a g s (((List.range 11).drop 1).find? (slotFree s (tileOf s.cur)))
    fun s i pc => startSlot s i (s.rs b) pc .alone

def execHprot (d a b : SReg) (g : KReg) (s : State) : Host.Outcome State Fault Refusal :=
  let tile := tileOf s.cur
  startHelper d a g s ([1, 3, 5, 7, 9].find? fun i => slotFree s tile i && slotFree s tile (i + 1))
    fun s i pc => startSlot (startSlot s i (s.rs b) pc .leading) (i + 1) (s.rs b) pc .trailing

/-- Slot `i` has stopped, and for a leading slot its partner too (R332). -/
def joined (s : State) (tile i : Nat) : Bool :=
  !(s.thr (keyOf tile i)).live &&
    !(i % 2 == 1 && (s.thr (keyOf tile (i + 1))).live && (s.thr (keyOf tile (i + 1))).role == .trailing)

def execHjoin (a : SReg) (g : KReg) (s : State) : Host.Outcome State Fault Refusal :=
  let i := (s.rs a).toNat
  run s (
    if slotOf s.cur ≠ 0 then illegal s 1
    else guarded s g (
      if i < 1 ∨ 10 < i then illegal s 1
      else do
        await (joined s (tileOf s.cur) i) .join
        .ok s))

/-- R332: the flags join slot 0's, and the thread ends; a pair whose handler runs ends whole, its parked trailing thread with it
(DEDUCED from R210, log entry 107). -/
def execStop (g : KReg) (s : State) : Host.Outcome State Fault Refusal :=
  run s (
    if slotOf s.cur < 1 ∨ 12 < slotOf s.cur then illegal s 1
    else guarded s g (do
      plainReady s
      let s ← compareOp s ⟨cmpStop, [], [], 0⟩
      let s := raiseTo s (keyOf (tileOf s.cur) 0) s.me.fpflags
      let s := if s.me.role = .handling then endThread s (partnerOf s.cur) else s
      .ok (endThread s s.cur)))

/-- Launch index × 16 + SLOT_ID. -/
def execTid (d : SReg) (g : KReg) (s : State) : Host.Outcome State Fault Refusal :=
  scalarOp d g s (BitVec.ofNat 64 (s.myCore.index * 16 + slotOf s.cur))

end Sys2Proof.Machine
end

