-- ==== Sys2Proof/Machine/Enqueue.lean ====
section
/-! DEFINITION. Major 0x2D (spec/16_isa_engines_system.md R334 to R337): pushing engine commands and reading the engine
fault ring (spec/09 R201, Table 9-3). -/

namespace Sys2Proof.Machine

/-- Ring entry `i` of 64, as binding left it where no command has replaced it (R335). -/
def ringAt (c : Core) (i : Nat) : RingEntry := tget c.ring (i % 64) (RingEntry.fresh (i % 64))

/-- The engine's number in a ring entry (Table 9-3). -/
def engCode (e : Eng) : Nat := match e with | .mx => 0 | .cp => 1 | .rl => 2

/-- Commands an engine holds, the running one counted (R335). -/
def Engine.count (e : Engine) : Nat := e.queue.length + (if e.run.isSome then 1 else 0)

/-- The ring entry of a command as it is pushed (R335). -/
def pushedEntry (seq : BitVec 16) (e : Eng) (slot own : Nat) : RingEntry where
  seq := seq
  code := 0
  detail := 0
  eng := engCode e
  state := 0
  parked := false
  taken := false
  slot := slot
  own := own
  doneN := 0
  nitems := 0
  addr := 0

/-- A command takes ESEQ, its ring entry and the tail of its engine's queue. -/
def pushCmd (c : Core) (e : Eng) (slot own : Nat) (w : Vec) : Core :=
  let x := c.eng e
  ({ c with
    eseq := c.eseq + 1
    ring := tset c.ring (c.eseq.toNat % 64) (pushedEntry c.eseq e slot own) }).setEng e
    { x with queue := x.queue ++ [Cmd.mk c.eseq slot own w] }

/-- An engine's queue has room, and the next ring entry holds no failure still to be taken (R201, R335). -/
def engineRoom (c : Core) (e : Eng) : Bool :=
  let r := ringAt c c.eseq.toNat
  (c.eng e).count < 8 && !(r.state == 3 && !r.taken)

/-- R335. The trailing thread of a pair takes the sequence number from its leading thread. -/
def execEnq (e : Eng) (d : SReg) (a : VFld) (g : KReg) (s : State) : Host.Outcome State Fault Refusal :=
  run s (do
    checkBound s [a] none
    guarded s g (do
      plainReady s
      if s.me.role = .trailing then
        let t ← compareOp s ⟨cmpEnq + engCode e, [], [(s.rv a.val).toNat], 64⟩
        let (b, t) ← lvqTake t
        .ok (t.ws d (BitVec.ofNat 64 (leNat b)))
      else
        await (engineRoom s.myCore e) .engineQueue
        let (w, t) ← sources1 s a none
        lvqRoom t
        let t ← compareOp t ⟨cmpEnq + engCode e, [], [w.toNat], 64⟩
        let seq := s.myCore.eseq
        let t := lvqPush (t.updMyCore fun c => pushCmd c e (slotOf s.cur) s.me.born w) (leBytes 2 seq.toNat)
        .ok (t.ws d (seq.zeroExtend 64))))

/-- The words of a ring entry (Table 9-3). -/
def ringWord (r : RingEntry) (n : RingWord) : Word :=
  match n with
  | .w0 => BitVec.ofNat 64 (r.seq.toNat * 2 ^ 48 + r.code * 2 ^ 40 + r.detail * 2 ^ 32 + r.eng * 2 ^ 30 +
      r.state * 2 ^ 28 + r.parked.toNat * 2 ^ 27 + r.taken.toNat * 2 ^ 26 + r.slot)
  | .w1 => BitVec.ofNat 64 (r.doneN * 2 ^ 32 + r.nitems)
  | .w2 => r.addr

/-- R336: all ones for a command never pushed or overwritten. -/
def execEseq (n : RingWord) (d a : SReg) (g : KReg) (s : State) : Host.Outcome State Fault Refusal :=
  let i := (s.rs a).toNat % 2 ^ 16
  let r := ringAt s.myCore i
  scalarOp d g s (if r.seq.toNat ≠ i then BitVec.allOnes 64 else ringWord r n)

/-- R337. -/
def execEwait (a : SReg) (g : KReg) (s : State) : Host.Outcome State Fault Refusal :=
  let i := (s.rs a).toNat % 2 ^ 16
  let r := ringAt s.myCore i
  run s (guarded s g (do
    await (r.seq.toNat != i || 2 ≤ r.state) .engine
    .ok s))

end Sys2Proof.Machine
end

