-- ==== Sys2Proof/Machine/Launches.lean ====
section
/-! DEFINITION. Launches (spec/06_progress_work.md R119 to R135): the records a Brim takes, their checks, the
instructions that place them, dispatch, completion, and the status word. -/

namespace Sys2Proof.Machine

/-- The firmware runs: the Brims take records and the Crown dispatches (R161, R164, R217). -/
def fwUp (s : State) : Bool := s.boot.state == 2

/-- R25 alone: no permission is asked. -/
def needNone : Need := ⟨false, false, false⟩

/-- A pointer that firmware checks by R25, with a permission where one is asked. -/
def pointerOk (s : State) (ctx : Nat) (p : Word) (n : Need) : Bool :=
  match walkCheck s ctx p (ptrVa p) n with | .ok _ => true | .error _ => false

/-- Every page of `bytes` from a pointer. -/
def spanOk (s : State) (ctx : Nat) (p : Word) (bytes : Nat) (n : Need) : Bool :=
  bytes == 0 || decide (ptrVa p + bytes ≤ 2 ^ 48) &&
    (List.range ((ptrVa p % 4096 + bytes + 4095) / 4096)).all fun i =>
      match walkCheck s ctx p (if i = 0 then ptrVa p else ptrVa p / 4096 * 4096 + 4096 * i) n with
      | .ok _ => true
      | .error _ => false

/-- A byte that firmware reads through a context's translation. -/
def byteVia (s : State) (ctx : Nat) (va : Nat) : Byte :=
  match walk s ctx va with
  | .ok e => readByte s.mem (e.addr va)
  | .error _ => 0

def bytesVia (s : State) (ctx va n : Nat) : List Byte := (List.range n).map fun i => byteVia s ctx (va + i)
def wordVia (s : State) (ctx va : Nat) : Word := BitVec.ofNat 64 (leNat (bytesVia s ctx va 8))

/-- Bytes written by firmware through a context's translation. -/
def writeVia (s : State) (ctx va : Nat) (bs : List Byte) : State :=
  (bs.mapIdx fun i b => (i, b)).foldl (fun s x =>
    match walk s ctx (va + x.1) with
    | .ok e => { s with mem := writeByte s.mem (e.addr (va + x.1)) x.2 }
    | .error _ => s) s

/-! ## The payload (Tables 6-4 and 6-5): P1 is word 0 -/

def pEntry (p : List Word) : Word := p.getD 0 0
def pParam (p : List Word) : Word := p.getD 1 0
def pShape (p : List Word) : Nat := wordAt p 2
def pCtl (p : List Word) : Nat := wordAt p 3
def pDeadline (p : List Word) : Word := p.getD 4 0
def pHtab (p : List Word) : Word := p.getD 5 0
def pHcount (p : List Word) : Nat := wordAt p 6
def pOvfl (p : List Word) : Word := p.getD 7 0
def pDone (p : List Word) : Word := p.getD 8 0
def pDctl (p : List Word) : Nat := wordAt p 9
def pPoolwait (p : List Word) : Nat := wordAt p 10
def pChan (p : List Word) : Word := p.getD 11 0
def pPblen (p : List Word) : Nat := wordAt p 12
def shNchan (p : List Word) : Nat := bitsOf (pShape p) 24 16
def shPlace (p : List Word) : Nat := bitsOf (pShape p) 15 14
def shNcore (p : List Word) : Nat := bitsOf (pShape p) 12 0

/-- A reserved field of the payload is nonzero (code 2). -/
def payloadReserved (pipe : Bool) (p : List Word) : Bool :=
  pShape p / 2 ^ 25 != 0 || bitOf (pShape p) 13 || pCtl p / 2 ^ 9 != 0 || bitsOf (pDeadline p).toNat 62 48 != 0 ||
    pHcount p / 2 ^ 8 != 0 || pDctl p / 2 ^ 20 != 0 || pPoolwait p / 2 ^ 32 != 0 || pPblen p / 2 ^ 16 != 0 ||
    wordAt p 13 != 0 || (!pipe && pChan p != 0)

/-! ## Stage and channel tables (Tables 6-7 and 6-8) -/

/-- The stage table of a pipeline: entry and core count of each stage. -/
def stageTable (s : State) (ctx : Nat) (p : List Word) : List (Word × Nat) :=
  (List.range (shNcore p)).map fun i =>
    (wordVia s ctx (ptrVa (pEntry p) + 16 * i), (wordVia s ctx (ptrVa (pEntry p) + 16 * i + 8)).toNat)

def chanTable (s : State) (ctx : Nat) (p : List Word) : List Word :=
  (List.range (shNchan p)).map fun i => wordVia s ctx (ptrVa (pChan p) + 8 * i)

/-- The channel table's pages; where a pipeline has no channels, CHAN points at nothing and is not checked (DESIGN CHOICE,
log entry 86). -/
def chansOk (s : State) (ctx : Nat) (p : List Word) : Bool :=
  shNchan p == 0 || spanOk s ctx (pChan p) (8 * shNchan p) needNone

def stagesOk (s : State) (ctx : Nat) (p : List Word) : Bool := spanOk s ctx (pEntry p) (16 * shNcore p) needNone
/-- Reserved fields of the tables, where they can be read. -/
def tablesReserved (s : State) (ctx : Nat) (p : List Word) : Bool :=
  (stagesOk s ctx p && shNcore p ≤ 16 && (stageTable s ctx p).any fun e => e.2 / 2 ^ 13 != 0) ||
    (chansOk s ctx p && shNchan p ≤ 256 && (chanTable s ctx p).any fun e => e.toNat / 2 ^ 44 != 0)

/-- The ends of a channel: stage, core, register of writer and of reader. -/
def wEnd (e : Word) : Nat × Nat × Nat := (bitsOf e.toNat 43 40, bitsOf e.toNat 39 27, bitsOf e.toNat 26 24)
def rEnd (e : Word) : Nat × Nat × Nat := (bitsOf e.toNat 23 20, bitsOf e.toNat 19 7, bitsOf e.toNat 6 4)

/-- R130: every end named exists, writer and reader are different cores, no core's register appears twice. -/
def tablesBad (s : State) (ctx : Nat) (p : List Word) : Bool :=
  let st := stageTable s ctx p
  let ch := chanTable s ctx p
  let missing (x : Nat × Nat × Nat) : Bool := match st[x.1]? with | some e => e.2 % 2 ^ 13 ≤ x.2.1 | none => true
  let ends := (ch.map wEnd) ++ ch.map rEnd
  ch.any (fun e => missing (wEnd e) || missing (rEnd e) ||
    ((wEnd e).1 == (rEnd e).1 && (wEnd e).2.1 == (rEnd e).2.1)) || ends.eraseDups.length != ends.length

/-- Cores a launch binds. -/
def coreCount (s : State) (ctx : Nat) (pipe : Bool) (p : List Word) : Nat :=
  if pipe then (stageTable s ctx p).foldl (fun n e => n + e.2 % 2 ^ 13) 0 else shNcore p

/-- Code 3: a count out of range, or more cores than the place or the allotment has. -/
def countsBad (s : State) (ctx : Nat) (pipe : Bool) (p : List Word) : Bool :=
  let n := shNcore p
  let total := coreCount s ctx pipe p
  let known := !pipe || stagesOk s ctx p
  n == 0 || shPlace p == 3 || (if pipe then 16 < n || 256 < shNchan p else 4096 < n || shNchan p != 0) ||
    (known && ((s.ctx ctx).cores < total || (shPlace p == 1 && 1024 < total) || (shPlace p == 2 && total % 4 != 0))) ||
    (pipe && known && (stageTable s ctx p).any fun e => e.2 % 2 ^ 13 == 0 || 4096 < e.2 % 2 ^ 13)

/-- Code 4: a pointer that fails R25, the ENTRY of a stage among them, or a DONE that is not a multiple of 16. -/
def pointersBad (s : State) (ctx : Nat) (pipe : Bool) (p : List Word) : Bool :=
  let bad (w : Word) : Bool := w != 0 && !pointerOk s ctx w needNone
  !pointerOk s ctx (pEntry p) needNone || !pointerOk s ctx (pParam p) needNone || bad (pHtab p) || bad (pOvfl p) ||
    bad (pDone p) || ptrVa (pDone p) % 16 != 0 || (pipe && (!stagesOk s ctx p || !chansOk s ctx p || (stageTable s ctx p).any fun e => !pointerOk s ctx e.1 needNone))

/-- R125, Table 6-6: the code of the first check that fails. -/
def rejectCode (s : State) (ctx : Nat) (pipe hdrBad : Bool) (p : List Word) : Option Nat :=
  if hdrBad || payloadReserved pipe p || (pipe && tablesReserved s ctx p) then some 2
  else if countsBad s ctx pipe p then some 3
  else if pointersBad s ctx pipe p then some 4
  else if pipe && tablesBad s ctx p then some 5
  else if bitOf (pCtl p) 8 && (decide (16384 < pPblen p) || !spanOk s ctx (pParam p) (pPblen p) needR) then some 6
  else match s.hold ctx 0 with
    | some h => if h.live then none else some 8
    | none => some 8

/-! ## Reporting (R125, R133) -/

/-- A ring's read index and ABANDON published (R119). -/
def publish (s : State) (ctx : Nat) : State :=
  match (s.ctx ctx).ring with
  | none => s
  | some r => { s with hostMem := writeBytes s.hostMem r.rdAddr (leBytes 8 r.rd ++ leBytes 8 (s.ctx ctx).abandon) }

/-- One record more in ABANDON. -/
def countAbandon (s : State) (ctx : Nat) : State :=
  publish (s.updCtx ctx fun c => { c with abandon := c.abandon + 1 }) ctx

/-- The interrupt of a payload's DCTL, where it is enabled. -/
def raiseDone (s : State) (ctx : Nat) (p : List Word) : State :=
  if bitOf (pDctl p) 19 then s.updCtx ctx fun c => { c with irqs := c.irqs ++ [bitsOf (pDctl p) 18 8] } else s

/-- TAG at DONE + 8, then the status word at DONE, and the stamp; at a DONE in a peer package they travel as a write of
firmware's. -/
def writeDone (s : State) (pa : Nat) (p : List Word) (tag : Nat) (word : Word) : State :=
  let bytes := leBytes 8 word.toNat ++ leBytes 8 tag
  if pkgOf pa ≠ s.pkg then
    match portFor s (pkgOf pa) with
    | some port =>
      let keep := (List.range 32).map fun i => if pa % 32 ≤ i ∧ i < pa % 32 + 16 then (0xFF : Byte) else 0
      sendPacket s port (.pool 0) { mkPacket s 0x03 0 (pkgOf pa) s.txid 0 (pa / 32 * 32) (inBlock pa bytes) with keep := keep }
    | none => s
  else
    let s := { s with
      mem := writeBytes s.mem pa bytes
      poison := s.poison.filter fun w => !(w == pa / 8 || w == pa / 8 + 1) }
    if bitOf (pDctl p) 7 && isSram pa then s.setTag (pa / 64) (stampByte (pDctl p % 128)) else s

/-- R125, R133: a launch's status reported: written where DONE can be written, else counted in ABANDON; the interrupt
either way. `silent` says that a DONE of 0 counts in ABANDON too (R125). -/
def report (s : State) (ctx : Nat) (p : List Word) (tag : Nat) (word : Word) (silent : Bool) : State :=
  let s :=
    if pDone p = 0 then (if silent then countAbandon s ctx else s)
    else if ptrVa (pDone p) % 16 ≠ 0 then countAbandon s ctx
    else match walkCheck s ctx (pDone p) (ptrVa (pDone p)) needW with
      | .ok pa => writeDone s pa p tag word
      | .error _ => countAbandon s ctx
  raiseDone s ctx p

/-- The status word of a rejected record (Table 6-9). -/
def rejectWord (code : Nat) : Word := BitVec.ofNat 64 (2 ^ 57 + code * 2 ^ 48)

/-! ## Placing a launch (R125, R134) -/

/-- A validated launch at the tail of its context's FIFO. -/
def placeLaunch (s : State) (ctx : Nat) (pipe : Bool) (p : List Word) (tag depth : Nat) (pool : Option Nat) : State :=
  let l : Launch := { Launch.reset with
    ctx := ctx
    pipe := pipe
    tag := tag
    payload := p
    depth := depth
    pool := pool
    stages := if pipe then (stageTable s ctx p).map fun e => (e.1, e.2 % 2 ^ 13) else [(pEntry p, shNcore p)]
    chanTab := if pipe then chanTable s ctx p else [] }
  let s := { (s.setLaunch s.nextId l) with nextId := s.nextId + 1 }
  s.updCtx ctx fun c => { c with fifo := c.fifo ++ [s.nextId - 1] }

/-- A launch checked and placed, or rejected with its status (R125). -/
def submit (s : State) (ctx : Nat) (pipe hdrBad : Bool) (p : List Word) (tag depth : Nat) (pool : Option Nat) : State :=
  match rejectCode s ctx pipe hdrBad p with
  | some c => report s ctx p tag (rejectWord c) true
  | none =>
    let s := placeLaunch s ctx pipe p tag depth pool
    match pool with
    | some d => s.updCtx ctx fun c => { c with quota := tset c.quota d (tget c.quota d 0 + 1) }
    | none => s

/-- R135: entries of a creator depth's quota in use. -/
def quotaUsed (s : State) (ctx depth : Nat) : Nat := tget (s.ctx ctx).quota depth 0

/-- R333: the payload is read first; POOL at depth 16, or when the quota stays full for POOLWAIT from the issue; the launch
placed, and the creator's own launch is no longer replayable. The TAG of a launch that no record names is a free value (log entry 12). -/
def launchDevice (pipe : Bool) (a : SReg) (g : KReg) (s : State) : Host.Outcome State Fault Refusal :=
  let tile := tileOf s.cur
  let ctx := ctxOf s tile
  let l := s.launch (lidOf s tile)
  let place (p : List Word) (t : State) : M State := do
    let t ← compareOp t ⟨cmpLaunch + pipe.toNat, [], p.map (·.toNat), 112⟩
    if t.me.role = .trailing then .ok t
    else
      if 16 ≤ l.depth then raisePrecise .pool 0 7
      if 16 ≤ quotaUsed s ctx l.depth then
        if pPoolwait l.payload = 0 then raisePrecise .pool 0 0 else blockOn (.pool s.me.asked)
      let t := endReplay t (lidOf s tile)
      .ok (submit { t with free := t.free + 1 } ctx pipe false p ((Config.freeWord s.free).toNat % 65536)
        (l.depth + 1) (some l.depth))
  run s (guarded s g (do
    if s.me.role = .trailing then
      match s.me.lvq with
      | (_, some b) :: r => place (bytesWords b) (s.updMe fun t => { t with lvq := r })
      | _ => blockOn .pair
    else
      match s.me.got with
      | some (.fault f) => .error (.fault f)
      | some (.words ws) => place ws (lvqPush (s.updMe fun t => { t with got := none }) (wordsBytes ws))
      | none => do
        plainReady s
        lvqRoom s
        readFirst s (s.rs a) 14))

def execLaunchGrid (a : SReg) (g : KReg) (s : State) : Host.Outcome State Fault Refusal := launchDevice false a g s
def execLaunchPipe (a : SReg) (g : KReg) (s : State) : Host.Outcome State Fault Refusal := launchDevice true a g s

/-- POOLWAIT_EXPIRY (R135): no entry has freed within POOLWAIT; POOL is raised, and nothing placed. -/
def execPoolwaitExpiry (tile slot : Nat) (s : State) : Host.Outcome State Fault Refusal :=
  let key := keyOf tile slot
  event "POOLWAIT_EXPIRY" s
    (match (s.thr key).wait with
    | some (.pool since) =>
      let l := s.launch (lidOf s tile)
      if since + pPoolwait l.payload ≤ s.ptb ∧ 16 ≤ quotaUsed s l.ctx l.depth ∧ !stopped s key then
        some (faultWaiter ⟨.pool, 0, 0, none, false⟩ s key)
      else none
    | _ => none)

/-! ## Host rings (R119 to R123) -/

/-- Record `i`'s place in a ring. -/
def recordAt (r : Ring) (i : Nat) : Nat := r.base + i % 2 ^ r.logSize * 64
/-- The eight words of record `i`. -/
def recordWords (s : State) (r : Ring) (i : Nat) : List Word := readWords s.hostMem (recordAt r i) 8

/-- Header fields (Table 6-2). -/
def hLap (h : Word) : Nat := bitsOf h.toNat 63 48
def hTag (h : Word) : Nat := bitsOf h.toNat 47 32
def hNrec (h : Word) : Nat := bitsOf h.toNat 23 16
def hType (h : Word) : Nat := h.toNat % 256
def hReserved (h : Word) : Bool := bitsOf h.toNat 31 24 != 0 || bitsOf h.toNat 15 8 != 0

/-- R121: record `i` is committed. -/
def committed (s : State) (r : Ring) (i : Nat) : Bool :=
  let h := (recordWords s r i).getD 0 0
  hLap h == i / 2 ^ r.logSize % 65535 + 1 && hType h != 0

/-- R121: the group at the read index is committed: its record, and for a launch record its continuation too. -/
def groupCommitted (s : State) (r : Ring) : Bool :=
  committed s r r.rd &&
    (let t := hType ((recordWords s r r.rd).getD 0 0)
     (t != 0x01 && t != 0x02) || committed s r (r.rd + 1))

/-- The Brim's head record of a context, where it takes records and the record is committed. -/
def headRecord (s : State) (ctx : Nat) : Option (Ring × List Word) :=
  match (s.ctx ctx).ring with
  | none => none
  | some r => if fwUp s && (s.ctx ctx).live && groupCommitted s r then some (r, recordWords s r r.rd) else none

/-- R122: the read index moved past a group and published. -/
def takeRecords (s : State) (ctx n : Nat) : State :=
  publish (s.updCtx ctx fun c => { c with ring := c.ring.map fun r => { r with rd := r.rd + n, waitSince := s.ptb } }) ctx

/-- A launch record's payload: words 1 to 7 of two records. -/
def ringPayload (s : State) (r : Ring) : List Word := (recordWords s r r.rd).drop 1 ++ (recordWords s r (r.rd + 1)).drop 1

/-- A launch record taken, checked, and queued or rejected: with code 2 too where the record behind it is no continuation (R121,
Table 6-3). -/
def launchRecord (s : State) (ctx : Nat) (pipe : Bool) (type : Nat) : Option State :=
  match headRecord s ctx with
  | none => none
  | some (r, ws) =>
    let h := ws.getD 0 0
    if hType h ≠ type then none
    else
      let p := ringPayload s r
      let h1 := (recordWords s r (r.rd + 1)).getD 0 0
      some (submit (takeRecords s ctx 2) ctx pipe (hReserved h || hReserved h1 || hNrec h != 2 || hType h1 != 0xFF) p (hTag h) 0 none)

def execGridLaunchRecord (ctx : Nat) (s : State) : Host.Outcome State Fault Refusal :=
  event "GRID_LAUNCH_RECORD" s (launchRecord s ctx false 0x01)

def execPipelineLaunchRecord (ctx : Nat) (s : State) : Host.Outcome State Fault Refusal :=
  event "PIPELINE_LAUNCH_RECORD" s (launchRecord s ctx true 0x02)

/-- HEARTBEAT (R123): the context hold takes a new life; one that has lapsed is reported with code 8. Reserved words or
header bits that are not 0, and an NREC other than 1, are not looked at: the record is a heartbeat, and one record
(DESIGN CHOICE, log entry 85). -/
def heartbeat (s : State) (ctx : Nat) : Option State :=
  match headRecord s ctx with
  | none => none
  | some (_, ws) =>
    let h := ws.getD 0 0
    if hType h ≠ 0x03 then none
    else
      let s := takeRecords s ctx 1
      match s.hold ctx 0 with
      | some x =>
        if x.live then
          some (s.setHold ctx 0 { x with expiry := ctxNow s ctx + keptLife (wordAt ws 1) (maxLife .context) })
        else if ws.getD 2 0 = 0 then some s
        else some (report s ctx (List.replicate 8 0 ++ [ws.getD 2 0]) (hTag h) (rejectWord 8) false)
      | none => some s

def execHeartbeat (ctx : Nat) (s : State) : Host.Outcome State Fault Refusal :=
  event "HEARTBEAT" s (heartbeat s ctx)

/-- The records that a group's NREC skips: 0 skips one, and a number above 4 as many as it says (DESIGN CHOICE, log
entry 84). -/
def groupSize (h : Word) : Nat := max 1 (hNrec h)

/-- NO_OP_RECORD (Table 6-3): consumed with no effect. -/
def execNoOpRecord (ctx : Nat) (s : State) : Host.Outcome State Fault Refusal :=
  event "NO_OP_RECORD" s
    (match headRecord s ctx with
    | some (_, ws) => if hType (ws.getD 0 0) = 0x04 then some (takeRecords s ctx (groupSize (ws.getD 0 0))) else none
    | none => none)

/-- CONTINUATION_RECORD (R122): alone at the read index it is skipped and counted. -/
def execContinuationRecord (ctx : Nat) (s : State) : Host.Outcome State Fault Refusal :=
  event "CONTINUATION_RECORD" s
    (match headRecord s ctx with
    | some (_, ws) => if hType (ws.getD 0 0) = 0xFF then some (countAbandon (takeRecords s ctx 1) ctx) else none
    | none => none)

/-- Record types of Table 6-3. -/
def typeAssigned (t : Nat) : Bool := t ≤ 4 || t == 0xFF

/-- UNASSIGNED_RECORD: rejected with code 1; NREC records are skipped. It names no DONE, so its rejection is counted in
ABANDON (R125). -/
def execUnassignedRecord (ctx : Nat) (s : State) : Host.Outcome State Fault Refusal :=
  event "UNASSIGNED_RECORD" s
    (match headRecord s ctx with
    | some (_, ws) =>
      if typeAssigned (hType (ws.getD 0 0)) then none
      else some (countAbandon (takeRecords s ctx (groupSize (ws.getD 0 0))) ctx)
    | none => none)

/-- COMMIT_TIMEOUT (R122): a record, or the continuation of a launch record, is not committed within CTO of the time from which the Brim waits for it; it is skipped
and counted. The Brim waits for a record that is at the read index and reserved (`waitSince`, log entry 87). -/
def execCommitTimeout (ctx : Nat) (s : State) : Host.Outcome State Fault Refusal :=
  event "COMMIT_TIMEOUT" s
    (match (s.ctx ctx).ring with
    | none => none
    | some r =>
      if fwUp s ∧ !groupCommitted s r ∧ r.rd < (readWord s.hostMem r.resAddr).toNat ∧ r.waitSince + r.cto ≤ s.ptb then
        some (countAbandon (takeRecords s ctx 1) ctx)
      else none)

/-! ## Dispatch (R126 to R131, R145) -/

/-- A core that no launch holds, that forwards nothing (R207), and whose bank owes no grant for a state that was saved or a page
that was zeroed there (R154, R205). -/
def coreFree (s : State) (t : Nat) : Bool :=
  (s.core t).launch.isNone && (s.bank t).owed == 0 && !s.forwards.any fun f => f.1 == t && decide (s.ptb < f.2.2)

/-- Cores that a context's launches hold. -/
def coresUsed (s : State) (ctx : Nat) : Nat := (s.cores.filter fun c => c.2.launch.isSome && ctxOf s c.1 == ctx).length

/-- The time from which a Brim waits at its read index goes on while no record there is reserved (R122). -/
def idleRing (s : State) (c : Ctx) : Ctx :=
  { c with ring := c.ring.map fun r =>
      if r.rd < (readWord s.hostMem r.resAddr).toNat then r else { r with waitSince := s.ptb } }

/-- Whether cores obey PLACE (Table 6-5). -/
def placeOk (place : Nat) (cores : List Nat) : Bool :=
  match place with
  | 1 => cores.all fun t => dieOf t == dieOf (cores.headD 0)
  | 2 => cores.all fun t => (cores.filter fun u => quadOf u == quadOf t).length == 4
  | _ => true

/-- The launch's cores. -/
def Launch.ncores (l : Launch) : Nat := l.stages.foldl (fun n e => n + e.2) 0

/-- Whether some free cores could take the head of a context's FIFO, which its end keeps from being dispatched (R215). -/
def canDispatch (s : State) (ctx : Nat) : Bool :=
  match (s.ctx ctx).fifo with
  | [] => false
  | id :: _ =>
    let l := s.launch id
    let n := l.ncores
    (s.ctx ctx).live && !(s.ctx ctx).ending && coresUsed s ctx + n ≤ (s.ctx ctx).cores &&
      match shPlace l.payload with
      | 1 => (List.range 4).any fun d => n ≤ ((List.range 1024).filter fun t => coreFree s (d * 1024 + t)).length
      | 2 => n ≤ 4 * ((List.range 1024).filter fun q =>
          ((List.range 4096).filter fun t => quadOf t == q).all (coreFree s)).length
      | _ => n ≤ ((List.range 4096).filter (coreFree s)).length

/-- R126: heads are served in rotation by context number after the last one served. -/
def turnOf (s : State) (ctx : Nat) : Bool :=
  ((List.range 17).map fun i => (s.served + 1 + i) % 17).takeWhile (· != ctx) |>.all fun c => !canDispatch s c

/-- R145: what is cleared before a core works for another context. Where it works for the same one again, messages that a
launch left in the inbox stay there, and so does the spill count (DESIGN CHOICE, log entry 83). -/
def clearCore (s : State) (tile : Nat) : State :=
  let s := (List.range 16).foldl (fun s i => s.setThr (keyOf tile i) .reset) s
  s.updCore tile fun c =>
    { c with
      acc := []
      accBad := []
      mulPlane := .reset
      sgnPlane := .reset
      inbox := []
      inboxDue := 0
      ring := []
      spill := 0
      trace := none }

/-- The control context of a launch at its entry (Table 1-6), in a slot whose counters start at 0 (R220). -/
def entryThread (l : Launch) (entry : Word) (index : Nat) : Thread :=
  let r : Regs := ((Regs.reset.ws 1 (pParam l.payload)).ws 2 (BitVec.ofNat 64 index)).ws 3 (BitVec.ofNat 64 l.ncores)
  { Thread.reset with
    live := true
    pc := codeAddr entry
    npc := codeAddr entry
    regs := r
    fpctl := BitVec.ofNat 4 (pCtl l.payload)
    qprime := BitVec.ofNat 4 (pCtl l.payload / 16)
    dlEn := (pDeadline l.payload).getLsbD 63
    dlLeft := (pDeadline l.payload).truncate 48 }

/-- The stage of a launch index, by the stage table. -/
def stageOf : List (Word × Nat) → Nat → Word
  | [], _ => 0
  | (e, n) :: r, i => if i < n then e else stageOf r (i - n)

/-- A core bound to a launch at dispatch (R127, R194, R220, R335, R341). -/
def bindCore (id : Nat) (l : Launch) (rot : List Word) (s : State) (x : Nat × Nat) : State :=
  let tile := x.2
  let s := if (s.core tile).lastCtx == some l.ctx then s else clearCore s tile
  let s := s.updCore tile fun c =>
    { c with
      inboxDue := 0
      launch := some id
      index := x.1
      lastCtx := some l.ctx
      stagger := if l.ncores ≤ 64 then 0 else 1
      dbgctl := 0
      step := none
      bps := .replicate 4 0
      watchAddr := .replicate 2 0
      watchCtl := .replicate 2 0
      hist := .replicate 17 0
      ce := .replicate 4 0
      trace := none
      sent := 0
      recv := 0
      black := false
      eseq := 0
      ring := []
      mx := .reset
      cp := .reset
      rl := .reset
      parked := none
      mxprog := .reset
      mulPlane := .reset
      sgnPlane := .reset
      doneOp := none
      faulted := false
      worst := 0
      engFail := false
      stopping := false }
  let s := (List.range 4).foldl (fun s i => writeShadow s tile i (rot.getD i 0)) s
  let s := (List.range 16).foldl (fun s i => s.setThr (keyOf tile i) .reset) s
  let s := s.setThr (keyOf tile 0) (entryThread l (stageOf l.stages x.1) x.1)
  { s with forwards := s.forwards.filter fun f => f.1 != tile }

/-- The first launch index of a stage. -/
def stageFirst (st : List (Word × Nat)) (i : Nat) : Nat := (st.take i).foldl (fun n e => n + e.2) 0

/-- R131: every channel bound with its allowance before any stage is released. -/
def bindChan (l : Launch) (cores : List Nat) (e : Word) : Chan :=
  let a := bitsOf e.toNat 3 0 + 1
  let tile (x : Nat × Nat × Nat) : Nat := cores.getD (stageFirst l.stages x.1 + x.2.1) 0
  { wTile := tile (wEnd e)
    wCh := (wEnd e).2.2
    rTile := tile (rEnd e)
    rCh := (rEnd e).2.2
    allow := a
    buf := []
    credits := a
    flight := []
    returns := 0 }

/-- LAUNCH_DISPATCH (R127): the head of a context's FIFO bound to free cores with a rotation table that R12 admits and whose
entries for slots 13 to 15 are those of every launch (R170);
its pool entry is freed, a replayable launch's parameter block copied (R211), and every control context started, from
the sink stage to the source (R131). -/
def dispatch (s : State) (ctx : Nat) (cores : List Nat) (rot : List Word) : Option State :=
  match (s.ctx ctx).fifo with
  | [] => none
  | id :: rest =>
    let l := s.launch id
    let shadow : Vector Word 4 := Vector.ofFn fun i => rot.getD i.val 0
    if !fwUp s || !s.tbSet || !(s.ctx ctx).live || (s.ctx ctx).ending || l.state != .queued || cores.length != l.ncores ||
        cores.eraseDups.length != cores.length || cores.any (fun t => 4096 ≤ t || !coreFree s t) ||
        !placeOk (shPlace l.payload) cores || (s.ctx ctx).cores < coresUsed s ctx + l.ncores || !rottabOk shadow ||
        !fwEntriesOk s shadow || !turnOf s ctx then none
    else
      let l' := { l with
        state := .running
        tiles := cores
        pool := none
        chans := l.chanTab.map (bindChan l cores)
        words := []
        joined := []
        inFlight := []
        probeAt := 0
        probeSum := 0
        probeBlack := false
        params := if l.rpl then bytesVia s ctx (ptrVa (pParam l.payload)) (pPblen l.payload) else []
        ranges := [] }
      let s := (s.setLaunch id l').updCtx ctx fun c =>
        { c with
          fifo := rest
          quota := match l.pool with | some d => tset c.quota d (tget c.quota d 0 - 1) | none => c.quota }
      some { ((cores.mapIdx fun i t => (i, t)).reverse.foldl (bindCore id l' rot) s) with
        served := ctx, fwRot := some (s.fwRot.getD (fwEntries shadow)) }

def execLaunchDispatch (ctx : Nat) (cores : List Nat) (rottab : List Word) (s : State) :
    Host.Outcome State Fault Refusal :=
  event "LAUNCH_DISPATCH" s (dispatch s ctx cores rottab)

/-! ## Completion (R132, R133) -/

/-- `Combine` of R133. -/
def combine (a b : Word) : Word :=
  let err := (a ||| b).toNat / 2 ^ 56
  let worst := max (bitsOf a.toNat 55 48) (bitsOf b.toNat 55 48)
  let lost := min (bitsOf a.toNat 47 32 + bitsOf b.toNat 47 32) 65535
  let count := min (a.toNat % 2 ^ 32 + b.toNat % 2 ^ 32) (2 ^ 32 - 1)
  BitVec.ofNat 64 (err * 2 ^ 56 + worst * 2 ^ 48 + lost * 2 ^ 32 + count)

/-- Messages left unread in a launch's channels at its end (R99). -/
def unreadIn (l : Launch) : Nat := l.chans.foldl (fun n c => n + c.buf.length + c.flight.length) 0

/-- One bit of a status word. -/
def stBit (b : Bool) (n : Nat) : Nat := if b then 2 ^ n else 0

/-- A core's own status word (Table 6-9), but for what is known of the launch as a whole at its end. -/
def coreWord (c : Core) : Word :=
  let op := (c.doneOp.getD 0).toNat
  BitVec.ofNat 64 (stBit c.faulted 63 + stBit (c.spill != 0) 62 + stBit c.engFail 59 + stBit (bitOf op 56) 56 +
    c.worst % 256 * 2 ^ 48 + min c.spill 65535 * 2 ^ 32 + op % 2 ^ 32)

/-- UNREAD with the messages left in the channels, and NRPL (R99, R211). -/
def launchWord (l : Launch) : Word :=
  BitVec.ofNat 64 (stBit (unreadIn l != 0) 61 + stBit l.nrpl 60 + min (unreadIn l) 65535 * 2 ^ 32)

/-- The launch indices below an index in the completion tree. -/
def childrenOf (n i : Nat) : List Nat := ((List.range 4).map fun k => 4 * i + 1 + k).filter (· < n)

/-- Every engine command of a core is complete. -/
def enginesDone (c : Core) : Bool := c.mx.count == 0 && c.cp.count == 0 && c.rl.count == 0

/-- R132: `done`'s waits have ended: the helpers stopped, the handlers asleep, the engines done, and every access of the
core's threads ended. -/
def coreEnded (s : State) (tile : Nat) : Bool :=
  (s.core tile).doneOp.isSome && (List.range 12).all (fun i => !(s.thr (keyOf tile (i + 1))).live) &&
    enginesDone (s.core tile) &&
    (List.range 16).all fun i => !s.busy (keyOf tile i) && !sfuPending s (keyOf tile i)

/-- The firmware slots of a core end (R10). -/
def stopFirmware (s : State) (tile : Nat) : State :=
  [13, 14, 15].foldl (fun s i => s.updThr (keyOf tile i) fun t => { t with live := false, wait := none }) s

/-- A core freed (R132). -/
def freeCore (s : State) (tile : Nat) : State :=
  (endThread (stopFirmware s tile) (keyOf tile 0)).updCore tile fun c => { c with launch := none, doneOp := none }

/-- The place that stands for a core of a launch while it has no tile: saved, or ended. -/
def savedTile (lid index : Nat) : Nat := 2 ^ 36 + lid * 2 ^ 16 + index

/-- The ends of a launch's channels at a core that has ended stay its own: another core of the launch that comes to stand on
the tile has none of them (R98). -/
def retireChans (s : State) (lid tile index : Nat) : State :=
  let f (t : Nat) : Nat := if t = tile then savedTile lid index else t
  s.updLaunch lid fun l => { l with chans := l.chans.map fun c => { c with wTile := f c.wTile, rTile := f c.rTile } }

/-- R213: a launch to be replayed: FAULT with WORST STALL, REDUND or UNCORR, still replayable, at most twice. -/
def replayable (l : Launch) (word : Word) : Bool :=
  let w := bitsOf word.toNat 55 48
  l.rpl && !l.nrpl && l.replays < 2 && word.getLsbD 63 && (w == 0x10 || w == 0x13 || w == 0x14)

/-- R213: shadows discarded, the launch's ranges lapsed, the parameter block restored, and the launch queued again. -/
def replay (s : State) (lid : Nat) : State :=
  let l := s.launch lid
  let s := l.ranges.foldl (fun s i =>
    match s.hold l.ctx i.1 with
    | some h => if h.live && h.reuse.toNat == i.2 then markLapse s l.ctx i.1 h else s
    | none => s) s
  let s := writeVia s l.ctx (ptrVa (pParam l.payload)) l.params
  (s.setLaunch lid { l with
    state := .queued, tiles := [], shadows := [], shadowLost := [], ranges := [], replays := l.replays + 1, chans := [] }).updCtx l.ctx
    fun c => { c with fifo := lid :: c.fifo }

/-- LAUNCH_STATUS_WRITE (R133): the root's word is formed: a replay where one is due, else the commit and the report. -/
def endLaunch (s : State) (lid : Nat) (word : Word) : State :=
  let l := s.launch lid
  let word := combine word (launchWord l)
  if replayable l word then replay s lid
  else
    let s := commitShadows s lid
    report (s.updLaunch lid fun x => { x with state := .ended, finalWord := some word, tiles := [] })
      l.ctx l.payload l.tag word false

/-- CORE_COMPLETION (R132, R133): the core's word, combined with its children's, goes to its parent, and the core is
freed; at the root the launch ends. -/
def coreCompletion (s : State) (tile : Nat) : Option State :=
  match (s.core tile).launch with
  | none => none
  | some lid =>
    let l := s.launch lid
    let i := (s.core tile).index
    if !coreEnded s tile || slotHalted s (keyOf tile 0) || (childrenOf l.ncores i).any (fun c => !l.joined.contains c) then none
    else
      let w := coreWord (s.core tile)
      let w := match tfind l.words i with | some x => combine x w | none => w
      let s := retireChans (freeCore (endStep s (keyOf tile 0)) tile) lid tile i
      some (if i = 0 then endLaunch s lid w
        else s.updLaunch lid fun l => { l with inFlight := l.inFlight ++ [(i, w)] })

def execCoreCompletion (tile : Nat) (s : State) : Host.Outcome State Fault Refusal :=
  event "CORE_COMPLETION" s (coreCompletion s tile)

/-- STATUS_WORD_FROM_CHILD (R133): a child's word arrives at its parent and is combined. -/
def execStatusWordFromChild (launch child : Nat) (s : State) : Host.Outcome State Fault Refusal :=
  let l := s.launch launch
  event "STATUS_WORD_FROM_CHILD" s
    (match l.inFlight.find? fun x => x.1 == child with
    | none => none
    | some x =>
      let parent := (child - 1) / 4
      let w := match tfind l.words parent with | some y => combine y x.2 | none => x.2
      some (s.setLaunch launch { l with
        inFlight := l.inFlight.filter fun y => y.1 != child
        words := tset l.words parent w
        joined := l.joined ++ [child] }))

end Sys2Proof.Machine
end

