-- ==== Sys2Proof/Machine/Messages.lean ====
section
/-! DEFINITION. The machine's steps for channels, messages and the handlers they wake (spec/05_progress_threads.md R98 to
R103, spec/07_isolation_space.md R157 to R159, spec/09 R207). -/

namespace Sys2Proof.Machine

/-! ## Channels (R98) -/

/-- One channel of a launch replaced. -/
def updChan (s : State) (lid i : Nat) (f : Chan → Chan) : State :=
  s.updLaunch lid fun l => { l with chans := l.chans.mapIdx fun j c => if j = i then f c else c }

/-- CHANNEL_MESSAGE_ARRIVAL: the oldest message under way enters the reader's buffer. -/
def execChannelMessageArrival (launch chan : Nat) (s : State) : Host.Outcome State Fault Refusal :=
  event "CHANNEL_MESSAGE_ARRIVAL" s
    (match (s.launch launch).chans[chan]? with
    | some c =>
      match c.flight with
      | m :: r => some (updChan s launch chan fun c => { c with buf := c.buf ++ [m], flight := r })
      | [] => none
    | none => none)

/-- CHANNEL_CREDIT_RETURN: a credit under way reaches the writer. -/
def execChannelCreditReturn (launch chan : Nat) (s : State) : Host.Outcome State Fault Refusal :=
  event "CHANNEL_CREDIT_RETURN" s
    (match (s.launch launch).chans[chan]? with
    | some c =>
      if c.returns = 0 then none
      else some (updChan s launch chan fun c => { c with returns := c.returns - 1, credits := c.credits + 1 })
    | none => none)

/-! ## The supervisor queue (R159) -/

/-- The 128 bytes of an entry (Table 7-6). -/
def SupEntry.bytes (e : SupEntry) : List Byte :=
  (e.body ++ List.replicate 64 0).take 64 ++ leBytes 8 e.time ++
    leBytes 8 (e.reason * 2 ^ 56 + e.cap * 2 ^ 40 + e.rkey * 2 ^ 24) ++
    leBytes 8 (e.sslot * 2 ^ 44 + e.src * 2 ^ 24 + e.dst) ++ leBytes 8 (e.sctx * 2 ^ 5 + e.rctx) ++ List.replicate 32 0

/-- The place of entry `n` of the queue's ring in firmware SRAM. -/
def supAddr (s : State) (n : Nat) : Nat := s.pkg * 2 ^ 44 + Config.fwBase + Config.supOff + 128 * (n % 4096)

/-- An entry joins the queue of 4,096, or counts as lost. -/
def supWrite (s : State) (e : SupEntry) : State :=
  if s.sup.length < 4096 then
    { s with sup := s.sup ++ [e], mem := writeBytes s.mem (supAddr s (s.supHead + s.sup.length)) e.bytes }
  else { s with supLost := s.supLost + 1 }

/-- The Crown reads the queue's oldest entry and frees its place, at times of its own (R159; free value, log entry 89). -/
def crownReads (s : State) : State :=
  match s.sup with
  | [] => s
  | _ :: r =>
    if (Config.freeWord s.free).getLsbD 0 then { s with sup := r, supHead := s.supHead + 1, free := s.free + 1 }
    else { s with free := s.free + 1 }

/-- The key of no owner (Table 7-5). -/
def noKey : Nat := 0xFFFF

/-- A packet that answers another package, in its pool (R182). -/
def answerPeer (s : State) (tile type pkg txid addr : Nat) (payload : List Byte) : State :=
  match portFor s pkg with
  | some port => sendPacket s port (.pool (dieOf tile)) (mkPacket s type 0 pkg txid tile addr payload)
  | none => s

/-- R158, R159: a message diverted: its entry written, and its sender told. The slot of a sender on another package is
not in the packet (free value, log entry 14). -/
def divert (s : State) (m : Msg) (reason cap key rctx : Nat) : State :=
  let free := (Config.freeWord s.free).toNat % 16
  let e : SupEntry := {
    body := vecBytes m.body
    time := s.ptb
    reason := reason
    cap := cap
    rkey := key
    sslot := if m.peer.isSome then free else slotOf m.key
    src := match m.peer with | some (p, t, _) => p * 4096 + t | none => coreId s (tileOf m.key)
    dst := m.pkg * 4096 + m.dst
    sctx := if m.peer.isSome then 31 else m.ctx
    rctx := rctx }
  let s := supWrite { s with free := if m.peer.isSome then s.free + 1 else s.free } e
  match m.peer with
  | some (p, _, x) => answerPeer s m.dst 0x02 p x 0 []
  | none =>
    { s.updCtx m.ctx (fun c => { c with contained := c.contained + 1 }) with
      reports := s.reports ++ [(m.key, m.lid, m.born, bodyHeader m.body)] }

/-! ## Placement (R100, R88, R157, R207) -/

/-- The tile that an old tile's forward hold sends arrivals to, and whether the hold lives. -/
def forwardOf (s : State) (tile : Nat) : Option (Nat × Bool) :=
  (s.forwards.find? fun f => f.1 == tile).map fun f => (f.2.1, decide (s.ptb < f.2.2))

/-- A message enters the inbox of a core (R100, R140). -/
def inboxPlace (s : State) (m : Msg) : State :=
  s.updCore m.dst fun c =>
    let inside : Bool := m.peer.isNone && m.lid != 0 && c.launch == some m.lid
    { c with
      inbox := c.inbox ++ [m.body]
      recv := if inside then c.recv + 1 else c.recv
      black := c.black || inside }

/-- A message of a thread to a core is placed after its earlier ones to that core (R88). -/
def nextToPlace (net : List Msg) (idx : Nat) (m : Msg) : Bool :=
  !(net.take idx).any fun x => x.key == m.key && x.dst == m.dst && x.pkg == m.pkg && x.peer == m.peer

/-- A message is placed, diverted or forwarded; none where the inbox is full. -/
def placeMsg (s : State) (idx : Nat) (m : Msg) : Option State :=
  let rest : State := { s with net := s.net.eraseIdx idx }
  let cap := hdrCap (bodyHeader m.body)
  let c := s.core m.dst
  if m.pkg ≠ s.pkg then some (divert rest m 3 cap noKey 31)
  else
    match c.launch, forwardOf s m.dst with
    | none, some (t, true) => some { s with net := s.net.set idx { m with dst := t, fwd := true } }
    | none, some (_, false) => some (divert rest m 4 cap noKey 31)
    | none, none => some (divert rest m 3 cap noKey 31)
    | some _, _ =>
      let ctx := ctxOf s m.dst
      let key := (s.ctx ctx).pkey.toNat
      if cap ≠ 0 ∧ cap ≠ key then some (divert rest m 1 cap key ctx)
      else if 64 ≤ c.inbox.length + c.inboxDue then none
      else
        let t := inboxPlace rest m
        match m.peer with
        | some (p, _, x) => some (answerPeer t m.dst 0x04 p x 0 [])
        | none => some t

/-- MESSAGE_PLACEMENT: the message at a place in the list of those under way reaches the core it is for. One that went
out as a packet is placed by its own package. -/
def messagePlacement (s : State) (dst idx : Nat) : Option State :=
  match s.net[idx]? with
  | none => none
  | some m =>
    if m.dst ≠ dst ∨ m.txid.isSome ∨ !nextToPlace s.net idx m then none else placeMsg s idx m

def execMessagePlacement (dst idx : Nat) (s : State) : Host.Outcome State Fault Refusal :=
  event "MESSAGE_PLACEMENT" s (messagePlacement s dst idx)

/-- CONTAIN_REPORT (R158): a report reaches the sending core: the thread's CONTAIN is pending, or slot 0's where the
sending thread is no longer live; where the core has been freed the report stays in the queue and the context's count. A
report for a launch that is saved waits for its resume. -/
def containReport (s : State) (idx : Nat) : Option State :=
  match s.reports[idx]? with
  | none => none
  | some (key, lid, born, h) =>
    let tile := tileOf key
    let rest : State := { s with reports := s.reports.eraseIdx idx }
    let add (k : Nat) : State := rest.updThr k fun t => { t with contain := t.contain ++ [h] }
    if lidOf s tile = lid then
      if (s.thr key).live ∧ (s.thr key).born = born then some (add key)
      else if (s.thr (keyOf tile 0)).live then some (add (keyOf tile 0)) else some rest
    else if (s.launch lid).state = .saved then none else some rest

def execContainReport (idx : Nat) (s : State) : Host.Outcome State Fault Refusal :=
  event "CONTAIN_REPORT" s (containReport s idx)

/-! ## The handlers of slots 11 and 12 (R101 to R103, Tables 5-2 to 5-4) -/

/-- A core that may wake its handlers: it holds a launch whose slot 0 has not ended by a fault (R199), and it is neither
halted nor being stopped (R222, R205). -/
def mayWake (s : State) (tile : Nat) : Bool :=
  let c := s.core tile
  c.launch.isSome && !c.halt && !c.stopping && !(c.doneOp.isSome && !(s.thr (keyOf tile 0)).live)

def asleep (s : State) (tile slot : Nat) : Bool := !(s.thr (keyOf tile slot)).live && !(s.thr (keyOf tile slot)).parked

/-- A handler slot at its wake (Table 5-3). -/
def wakeThread (l : Launch) (old : Thread) (pc : VAddr) (v0 : Vec) (s4 : Nat) : Thread :=
  let r : Regs := ((Regs.reset.wv 0 v0).ws 1 (pParam l.payload)).ws 4 (BitVec.ofNat 64 s4)
  { Thread.reset with
    live := true
    pc := pc
    npc := pc
    regs := r
    fpctl := BitVec.ofNat 4 (pCtl l.payload)
    qprime := BitVec.ofNat 4 (pCtl l.payload / 16)
    dlEn := (pDeadline l.payload).getLsbD 63
    dlLeft := (pDeadline l.payload).truncate 48
    counters := old.counters
    seq := old.seq + 1
    born := old.seq + 1 }

/-- SPILL as its 16 bits of the status word hold it: a count above 65,535 does not fit, and what the bits then read is a
free value (log entry 76). -/
def spillField (n : Nat) : Nat := if n < 2 ^ 16 then n else (Config.spillField n).toNat

/-- The inbox status word (Table 5-4). -/
def inboxStatus (c : Core) (replay : Bool) : Nat := spillField c.spill * 256 + replay.toNat * 128 + c.inbox.length

/-- Slot 11 wakes with a cause; a launch with OVFL 0 never wakes it (Table 6-4). -/
def wake11 (s : State) (tile : Nat) (replay : Bool) : Option State :=
  let c := s.core tile
  let l := s.launch (lidOf s tile)
  let due : Bool := if replay then decide (c.inbox.length ≤ 16) && decide (0 < c.spill) else decide (48 ≤ c.inbox.length)
  if mayWake s tile && asleep s tile 11 && due && pOvfl l.payload != 0 then
    some (s.updThr (keyOf tile 11) fun t => wakeThread l t (codeAddr (pOvfl l.payload)) 0 (inboxStatus c replay))
  else none

def execSlot11WakeSpill (tile : Nat) (s : State) : Host.Outcome State Fault Refusal :=
  event "SLOT11_WAKE_SPILL" s (wake11 s tile false)

def execSlot11WakeReplay (tile : Nat) (s : State) : Host.Outcome State Fault Refusal :=
  event "SLOT11_WAKE_REPLAY" s (wake11 s tile true)

/-- Some cause wakes slot 11 now, which has priority (R101). -/
def wakes11 (s : State) (tile : Nat) : Bool := (wake11 s tile false).isSome || (wake11 s tile true).isSome

/-- The length of a launch's handler table; 0 where it has none. -/
def handlerCount (p : List Word) : Nat := if pHtab p = 0 then 0 else pHcount p % 256 + 1

/-- A handler's entry point, the entry read through its context's translation. -/
def handlerEntry (s : State) (lid ctx : Nat) (p : List Word) (h : Nat) : Except FaultRec VAddr :=
  let va := ptrVa (pHtab p) + 8 * h
  match walkCheck s ctx (pHtab p) va needR with
  | .ok pa => .ok (codeAddr (BitVec.ofNat 64 (leNat ((List.range 8).map fun i => readAt s lid (pa + i)))))
  | .error f => .error f

/-- SLOT12_WAKE: slot 12 takes the head message and starts its handler; ILLEGAL, DETAIL 3, for an index beyond the
table. No trap handler is set at a wake (Table 5-3), so a fault there ends the slot, its trap registers telling of it
(R101, R198). -/
def wake12 (s : State) (tile : Nat) : Option State :=
  let c := s.core tile
  let l := s.launch (lidOf s tile)
  let key := keyOf tile 12
  match c.inbox with
  | [] => none
  | m :: rest =>
    if !mayWake s tile || !asleep s tile 11 || !asleep s tile 12 || wakes11 s tile then none
    else
      let h := hdrHandler (bodyHeader m)
      let go (pc : VAddr) : State :=
        (s.setCore tile { c with inbox := rest }).updThr key fun t => wakeThread l t pc m h
      let fails (f : FaultRec) : State := takeFault ((go 0).updThr key (trapNote f)) key f
      if handlerCount l.payload ≤ h then some (fails ⟨.illegal, 3, h, none, false⟩)
      else match handlerEntry s (lidOf s tile) l.ctx l.payload h with
        | .ok pc => some (traceRecord (go pc) key 3 pc.toNat (bodyHeader m))
        | .error f => some (fails f)

def execSlot12Wake (tile : Nat) (s : State) : Host.Outcome State Fault Refusal :=
  event "SLOT12_WAKE" s (wake12 s tile)

end Sys2Proof.Machine
end

