-- ==== Sys2Proof/Machine/Engines.lean ====
section
/-! DEFINITION. The engines of a core (spec/16_isa_engines_system.md R338 to R349, spec/02 R44 to R49, spec/09 R201 to
R204): a command taken and checked, its items started and moved on, and its completion. The relay engine's rounds stand
in Relay.lean. -/

namespace Sys2Proof.Machine

/-! ## Ring entries and completion (R33, R202, R204, R339) -/

/-- The ring entry of a command changed. -/
def updEntry (c : Core) (seq : BitVec 16) (f : RingEntry → RingEntry) : Core :=
  { c with ring := tset c.ring (seq.toNat % 64) (f (ringAt c seq.toNat)) }

/-- How a command ended: failed where it has a fault. -/
def endEntry (f : Option FaultRec) (parked : Bool) (doneN nitems : Nat) (e : RingEntry) : RingEntry :=
  { e with
    state := if f.isSome then 3 else 2
    code := match f with | some x => x.code.num | none => 0
    detail := match f with | some x => x.detail | none => 0
    addr := BitVec.ofNat 64 (match f with | some x => x.val | none => 0)
    parked := parked
    doneN := doneN
    nitems := nitems }

/-- The cancellation of a matrix command queued behind one that failed or was refused (R204, R339). -/
def cancelled : FaultRec := ⟨.engine, 1, 0, none, false⟩

/-- Matrix commands queued behind a failed or refused one are reported failed. -/
def cancelQueue (c : Core) : Core :=
  let d := c.mx.queue.foldl (fun c q => updEntry c q.seq (endEntry (some cancelled) false 0 0)) c
  { d with mx := { d.mx with queue := [] } }

/-- A command leaves its engine: its entry, ENGFAIL, and what a failed matrix command brings on the queue. -/
def leaveEngine (c : Core) (e : Eng) (cmd : Cmd) (f : Option FaultRec) (parked : Bool) (doneN nitems : Nat) : Core :=
  let c := updEntry c cmd.seq (endEntry f parked doneN nitems)
  let c := c.setEng e { c.eng e with run := none }
  let c := { c with engFail := c.engFail || f.isSome }
  if f.isSome && e == .mx then cancelQueue c else c

/-- Engine flags reach the thread that pushed the command, or slot 0 where it has ended (R33). -/
def engineFlags (s : State) (tile : Nat) (cmd : Cmd) (f : BitVec 8) : State :=
  let k := keyOf tile cmd.slot
  let dest := if (s.thr k).live && (s.thr k).born == cmd.own then k else keyOf tile 0
  raiseTo s dest f

/-! ## The start checks (R339, R343, R344, R204) -/

/-- RESUME of command word 0. -/
def resumeBit : Vec := BitVec.ofNat 512 (2 ^ 16)

/-- The plane a matrix command names. -/
def Core.plane (c : Core) (w : Vec) : Plane := if cPlane w then c.sgnPlane else c.mulPlane
def Core.setPlane (c : Core) (w : Vec) (p : Plane) : Core :=
  if cPlane w then { c with sgnPlane := p } else { c with mulPlane := p }

/-- The group of an MX.MMA with the plane as it stands (Table 16-5). -/
def groupOf (c : Core) (w : Vec) : Option Nat :=
  let p := c.plane w
  mmaGroup (cPlane w) (ptrFmt (cSrc w)) (ptrBlen (cSrc w)) (cAsgn w) p.fmt p.blen (cWsgn w)

/-- R344: a valid plane of the same K (word 0), formats of Table 16-5 (SRC), SAT 0 for FP32 accumulation (word 0). -/
def mmaCheck (c : Core) (w : Vec) : Option Refused :=
  let p := c.plane w
  if !p.valid || p.k != cK w then some (.engine, 3, cw w 0)
  else match groupOf c w with
    | none => some (.engine, 3, cw w 1)
    | some _ =>
      if cSat w && !intOperand (ptrFmt (cSrc w)) (cAsgn w) then some (.engine, 3, cw w 0)
      else if cResume w then
        match c.parked with
        | some (q, _) => if q.word ||| resumeBit = w then none else some (.engine, 4, cw w 0)
        | none => some (.engine, 4, cw w 0)
      else none

/-- The route hold that a handle names in a context, live or not. -/
def routeOf (s : State) (ctx handle : Nat) : Option (Bool × List Word) :=
  match s.hold ctx (handle % 4096) with
  | some h =>
    match h.kind with
    | .route _ _ _ d => if h.reuse.toNat = handle / 4096 then some (h.live, d) else none
    | _ => none
  | none => none

/-- R349: DST translates to the route's destination package, or into the drawer window of its port. A handle that names
no route leaves DST without a destination. -/
def routeCheck (s : State) (tile : Nat) (w : Vec) : Option Refused :=
  let bad : Option Refused := some (.engine, 3, cw w 2)
  match routeOf s (ctxOf s tile) (cHandle w), walk s (ctxOf s tile) (ptrVa (cDst w)) with
  | some (_, d), .ok e =>
    let pa := e.addr (ptrVa (cDst w))
    if rtHops d = 0 then
      if pkgOf pa = s.pkg ∧ isDrawer pa ∧ windowPort s pa = some (rtPort d) then none else bad
    else if pkgOf pa = rtDst d then none else bad
  | none, .ok _ => none
  | _, .error _ => bad

/-- R351: a ROOT at or above NMEM is refused, where the group is known. -/
def bcastCheck (s : State) (tile : Nat) (w : Vec) : Option Refused :=
  match liveGroup s (ctxOf s tile) (cHandle w) with
  | some d => if grpMems d ≤ cRoot w then some (.engine, 3, cw w 0) else none
  | none => none

/-- R339 whole: the command, or why it is refused. -/
def startCheck (s : State) (tile : Nat) (e : Eng) (w : Vec) : Except Refused CmdKind :=
  match cmdCheck e w with
  | .error r => .error r
  | .ok k =>
    let more : Option Refused := match k with
      | .mma => mmaCheck (s.core tile) w
      | .route => routeCheck s tile w
      | .bcast => bcastCheck s tile w
      | _ => none
    match more with
    | some r => .error r
    | none => .ok k

/-- R204: a matrix command that does not resume the parked one ends it. -/
def endParked (c : Core) : Core :=
  match c.parked with
  | none => c
  | some (q, _) =>
    { updEntry c q.seq (fun e => { e with parked := false }) with
      parked := none
      mxprog := { c.mxprog with valid := false } }

/-- A refused command (R339): no access, STATE 3, DONE 0. -/
def refuseCmd (s : State) (tile : Nat) (e : Eng) (cmd : Cmd) (r : Refused) : State :=
  let c := s.core tile
  let c := if e == .mx && !(r.1 == .engine && r.2.1 == 4) then endParked c else c
  s.setCore tile (leaveEngine c e cmd (some ⟨r.1, r.2.1, r.2.2, none, false⟩) false 0 0)

/-- An accumulator word's index. -/
def accIdx (acc row col : Nat) : Nat := acc * 1024 + row * 64 + col
def Core.accAt (c : Core) (i : Nat) : Nat := tget c.acc i 0
/-- An accumulator word written; zero words are not listed. -/
def accSet (acc : List (Nat × Nat)) (i x : Nat) : List (Nat × Nat) := if x = 0 then tdel acc i else tset acc i x

/-- R208: poisoned words of a tile are written as zero at its MX.ZERO or MX.LDACC. -/
def accHeal (c : Core) (acc : Nat) : Core :=
  let hit (i : Nat) : Bool := i / 1024 == acc
  { c with
    acc := (c.accBad.filter hit).foldl (fun a i => accSet a i 0) c.acc
    accBad := c.accBad.filter fun i => !hit i }

/-- What a command's start changes beside its entry (R341 to R344, R204, R211). -/
def startEffect (s : State) (tile : Nat) (k : CmdKind) (cmd : Cmd) : State :=
  let w := cmd.word
  match k with
  | .mma =>
    if cResume w then s.updCore tile fun c =>
      match c.parked with
      | some (q, _) => { updEntry c q.seq (fun e => { e with parked := false }) with parked := none }
      | none => c
    else s.updCore tile fun c => { endParked c with mxprog := { valid := true, seq := cmd.seq, groups := 0 } }
  | .loadw => s.updCore tile fun c => (endParked c).setPlane w
      { valid := false, fmt := ptrFmt (cSrc w), blen := ptrBlen (cSrc w), k := cK w, cells := [], scales := [] }
  | .zero | .ldacc => s.updCore tile fun c => accHeal (endParked c) (cAcc w)
  | .drain | .save | .restore => s.updCore tile endParked
  | .copy | .fill => s
  | .route | .reduce | .bcast => endReplay s (lidOf s tile)

/-- The groups a resumed command has behind it. -/
def baseOf (c : Core) (k : CmdKind) (w : Vec) : Nat :=
  if k = .mma ∧ cResume w then (match c.parked with | some (_, n) => n | none => 0) else 0

/-- The head of an engine's queue, where the engine can start one now (R79, R205). -/
def headCmd (s : State) (tile : Nat) (e : Eng) : Option Cmd :=
  let c := s.core tile
  match (c.eng e).run, (c.eng e).queue with
  | none, q :: _ => if c.launch.isSome && !c.stopping then some q else none
  | _, _ => none

/-- The queue without its head. -/
def popCmd (s : State) (tile : Nat) (e : Eng) : State :=
  s.updCore tile fun c => c.setEng e { c.eng e with queue := (c.eng e).queue.drop 1 }

/-- R339: the head command is checked and refused, or runs. -/
def startCmd (s : State) (tile : Nat) (e : Eng) (cmd : Cmd) : State :=
  let t := popCmd s tile e
  match startCheck s tile e cmd.word with
  | .error r => refuseCmd t tile e cmd r
  | .ok k =>
    let c := s.core tile
    let g := if k = .mma then (groupOf c cmd.word).getD 1 else 1
    let n := cmdSteps k cmd.word g
    let b := baseOf c k cmd.word
    let t := startEffect t tile k cmd
    t.updCore tile fun c =>
      let c := updEntry c cmd.seq fun r => { r with state := 1, nitems := if kindEng k = .rl then 1 else n, doneN := b }
      c.setEng e { c.eng e with run := some {
        cmd := cmd, nitems := n, next := b, items := [], flags := 0, fault := none, group := g, base := b
        frame := s.frame, absent := 0, status := 0, walkFault := none } }

/-- The event of a command's start: the head of its engine's queue is of its kind. -/
def startEvent (s : State) (tile : Nat) (k : CmdKind) : Option State :=
  match headCmd s tile (kindEng k) with
  | some cmd => if kindOf cmd.word = some k then some (startCmd s tile (kindEng k) cmd) else none
  | none => none

/-! ## An engine's accesses (R340, R153) -/

/-- Why an engine's access is not made now: it fails, or misses on a page. -/
inductive EngStop where
  | fault (f : FaultRec)
  | miss (vpn : Nat)
  deriving DecidableEq, Repr

/-- A run of bytes an engine moves: the pointer, the start of its row and the alignment that is checked, and the bytes. -/
structure Span where
  ptr : Word
  row : Int
  al  : Nat
  va  : Int
  n   : Nat
  deriving DecidableEq, Repr

/-- One page of an access checked (R153). -/
def engTranslate (s : State) (tile : Nat) (wf : Option (Nat × Nat)) (ptr : Word) (va : Nat) (n : Need) :
    Except EngStop Nat :=
  let hit : Except EngStop Nat :=
    match tlbLookup s tile (ctxOf s tile) va with
    | none => .error (.miss (va / 4096))
    | some e =>
      match leafFault s e ptr va n with
      | some f => .error (.fault f)
      | none => .ok (e.addr va)
  match wf with
  | some (p, c) => if p = va / 4096 then .error (.fault ⟨.xlate, c, va, none, false⟩) else hit
  | none => hit

/-- The bytes of `n` from an address, page by page: virtual address, physical address, place in the buffer. -/
def engPages (s : State) (tile : Nat) (wf : Option (Nat × Nat)) (ptr : Word) (need : Need) :
    Nat → Nat → Nat → Nat → Except EngStop (List (Nat × Nat × Nat))
  | 0, _, _, _ => .ok []
  | fuel + 1, va, off, n =>
    if n = 0 then .ok []
    else do
      let pa ← engTranslate s tile wf ptr va need
      let m := min n (4096 - va % 4096)
      let rest ← engPages s tile wf ptr need fuel (va + m) (off + m) (n - m)
      .ok (runFrom va pa off m ++ rest)

/-- The bytes of a span: TAG from forming, ALIGN of the row's start, then the checks of each page. -/
def spanMoves (s : State) (tile : Nat) (wf : Option (Nat × Nat)) (need : Need) (off : Nat) (x : Span) :
    Except EngStop (List (Nat × Nat × Nat)) :=
  if x.row < 0 ∨ x.va < 0 ∨ x.va + x.n > (2 ^ 48 : Nat) then .error (.fault ⟨.tag, 0, x.ptr.toNat, none, false⟩)
  else if x.row.toNat % x.al ≠ 0 then .error (.fault ⟨.align, 0, x.row.toNat, none, false⟩)
  else engPages s tile wf x.ptr need (x.n / 4096 + 2) x.va.toNat off x.n

/-- The bytes of several spans, one after another in the buffer. -/
def spansMoves (s : State) (tile : Nat) (wf : Option (Nat × Nat)) (need : Need) :
    Nat → List Span → Except EngStop (List (Nat × Nat × Nat))
  | _, [] => .ok []
  | off, x :: r => do
    let m ← spanMoves s tile wf need off x
    let ms ← spansMoves s tile wf need (off + x.n) r
    .ok (m ++ ms)

/-- Bytes of a list of spans. -/
def spansLen (l : List Span) : Nat := l.foldl (fun n x => n + x.n) 0

/-- The request of an engine for one item. -/
def engReq (s : State) (tile : Nat) (e : Eng) (idx : Nat) (kind : ReqKind) (parts : List Part) (buf : List Byte)
    (va : Nat) (stamp : Option Nat) : Req where
  id := s.nextId
  owner := .engine tile e idx
  ctx := ctxOf s tile
  lid := lidOf s tile
  va := va
  rlx := true
  kind := kind
  size := buf.length
  parts := parts
  buf := buf
  fin := .engineBytes
  undo := none
  fault := none
  stamp := stamp
  seq := idx
  last := false

/-- R150: an engine's miss joins its page's walk, or the die's queue where its context has room. None where it waits
there already, or finds no room. -/
def joinWalkEng (s : State) (tile : Nat) (e : Eng) (vpn : Nat) : Option State :=
  let ctx := ctxOf s tile
  let d := s.die (dieOf tile)
  let n := engNum tile e
  match d.walks.find? fun w => w.ctx == ctx && w.vpn == vpn with
  | some w =>
    if w.engs.contains n then none
    else some (s.setDie (dieOf tile) { d with
      walks := lupd (fun x => x.id == w.id) (fun x => { x with engs := x.engs ++ [n] }) d.walks })
  | none =>
    if (d.walks.filter fun w => w.ctx == ctx).length < 32 then
      some { (s.setDie (dieOf tile) { d with walks := d.walks ++ [⟨s.nextId, ctx, vpn, [], [n], false, false⟩] }) with
        nextId := s.nextId + 1 }
    else none

/-! ## The running command -/

def runOf (s : State) (tile : Nat) (e : Eng) : Option Run := ((s.core tile).eng e).run
def updRun (s : State) (tile : Nat) (e : Eng) (f : Run → Run) : State :=
  s.updCore tile fun c => c.setEng e { c.eng e with run := (c.eng e).run.map f }
def Run.item (r : Run) (i : Nat) : Option Item := r.items.find? fun x => x.idx == i
def Run.setItem (r : Run) (x : Item) : Run := { r with items := lupd (fun y => y.idx == x.idx) (fun _ => x) r.items }

/-- Items performed without a gap from the first, those before the command's resume counted. -/
def Run.prefixDone (r : Run) : Nat :=
  r.base + ((List.range (r.nitems - r.base)).takeWhile fun j =>
    match r.item (r.base + j) with | some x => x.stage == .performed | none => false).length

/-- Some item before `i` has failed. -/
def Run.failedBefore (r : Run) (i : Nat) : Bool := r.items.any fun x => x.idx < i && (x.stage == .failed || x.bad)

/-- An item at a stage, with its data. -/
def putItem (s : State) (tile : Nat) (e : Eng) (i : Nat) (g : ItemStage) (data : List Byte) : State :=
  updRun s tile e fun r =>
    if (r.item i).isSome then r.setItem ⟨i, g, data, false⟩
    else { r with items := r.items ++ [⟨i, g, data, false⟩], next := max r.next (i + 1) }

/-- R202: an item fails; the fault kept is that of the failed item of lowest index. -/
def failItem (s : State) (tile : Nat) (e : Eng) (i : Nat) (f : FaultRec) : State :=
  updRun (putItem s tile e i .failed []) tile e fun r => { r with fault := if r.failedBefore i then r.fault else some f }

/-- An item that needs memory: its request in flight, or its failure, or its walk. -/
def issueItem (s : State) (tile : Nat) (e : Eng) (i : Nat) (kind : ReqKind) (spans : List Span) (buf : List Byte)
    (stage : Nat → ItemStage) (stamp : Option Nat) : Option State :=
  let wf := match runOf s tile e with | some r => r.walkFault | none => none
  let need := if kind == .load then needR else needW
  match spansMoves s tile wf need 0 spans with
  | .error (.miss v) => joinWalkEng s tile e v
  | .error (.fault f) => some (failItem s tile e i f)
  | .ok ms =>
    let parts := blockParts ms
    let va := match spans with | [] => 0 | x :: _ => x.va.toNat
    let r := engReq s tile e i kind parts buf va stamp
    let t := putItem { s with reqs := s.reqs ++ [r], nextId := s.nextId + 1 } tile e i (stage r.id) []
    some (if kind == .load then t
      else parts.foldl (fun t p => noteWrite t (lidOf t tile) (ctxOf t tile) p.va p.pa) t)

/-! ## What each item reads (R342 to R349, Table 9-4) -/

/-- The alignment R340 asks of a row of a format. -/
def rowAlign (f : Nat) : Nat :=
  if isBlk f then 32 else if f = 12 ∨ f = 13 then 1 else codeBits f / 8

/-- The start of row `i` of a source, and of a destination. -/
def srcRow (w : Vec) (i : Nat) : Int := ptrVa (cSrc w) + i * cSstr w

/-- What item `i` reads. `g` is the group of an MX.MMA. -/
def readSpans (k : CmdKind) (w : Vec) (g i : Nat) : List Span :=
  let p := cSrc w
  let f := ptrFmt p
  let b := codeBits f
  let l := blenOf p
  let one (row : Int) (al n : Nat) : Span := ⟨p, row, al, row, n⟩
  match k with
  | .ldacc => [one (srcRow w i) (if f = 0 then 1 else 4) 256]
  | .loadw =>
    if isBlk f then
      [⟨p, srcRow w i, 32, srcRow w i, 2 * (cK w / l)⟩, ⟨p, srcRow w i, 32, srcRow w i + 32, cK w * b / 8⟩]
    else [one (srcRow w i) (rowAlign f) (64 * b / 8)]
  | .mma =>
    ((List.range (cM w)).map fun m =>
      let row := srcRow w m
      if isBlk f then [⟨p, row, 32, row + (2 * i : Nat), 2⟩, ⟨p, row, 32, row + (32 + i * l * b / 8 : Nat), l * b / 8⟩]
      else [(⟨p, row, rowAlign f, row + (i * g * b / 8 : Nat), (min g (cK w - i * g) * b + 7) / 8⟩ : Span)]).flatten
  | .drain =>
    (if cAux6 w = 0 then [] else [⟨cAux6 w, ptrVa (cAux6 w), 4, ptrVa (cAux6 w) + 4 * i, 4⟩]) ++
      (if cAux7 w = 0 then [] else [⟨cAux7 w, ptrVa (cAux7 w), 16, ptrVa (cAux7 w), 1024⟩])
  | .restore => [one (ptrVa p + 256 * i) 32 256]
  | .copy => [one (srcRow w i) (rowAlign f) (rowBytes f l (cCount w))]
  | .route => [one (ptrVa p + 4096 * i) 32 (min 4096 (cCount w - 4096 * i))]
  | .zero | .save | .fill | .reduce | .bcast => []

/-! ## Arithmetic of the matrix unit (R44 to R49) -/

/-- An operand element's exact integer by Table 16-5. -/
def mmaInt (f : Nat) (signed : Bool) (x : Nat) : Int :=
  if f = 0 then (if signed then sgnN 8 x else (x % 256 : Nat)) else intVal f x

/-- An operand element's datum. -/
def mmaX (f x : Nat) : X :=
  if isBlk f then blockElem f x else match fmtOfCode f with | some F => unpackRaw F x | none => .nan false

/-- The exact sum of products of a group: a NaN with whether NV is raised, or the sum (R46, R47). An infinity times zero, and
infinities of opposite sign, raise NV beside a quiet NaN of the group too. -/
def groupSum (xs ys : List X) : Except Bool X :=
  let ps := ((xs.zip ys).filter fun p => !p.1.isNan && !p.2.isNan).map fun p => mulX p.1 p.2
  let qs := ps.filterMap id
  let infs := qs.filter X.isInf
  let clash := match infs with | [] => false | i :: r => r.any fun j => X.isNeg j != X.isNeg i
  let nv := (xs ++ ys).any X.isSnan || ps.any (·.isNone) || clash
  if nv || (xs ++ ys).any X.isNan then .error nv
  else match infs with
    | [] => .ok (sumX .rne qs)
    | i :: _ => .ok i

/-- A group added to an FP32 accumulator word (R46, R47). -/
def fpAdd (xs ys : List X) (acc : Nat) : Nat × BitVec 8 :=
  match groupSum xs ys with
  | .error nv => nanRes fp32 (nv || (unpackRaw fp32 acc).isSnan)
  | .ok g => addRound fp32 (envRne false) [unpackRaw fp32 acc, g]

/-- A block's dot product added with its scales, one rounding (R44, R45). -/
def blockAdd (sa sb : Nat) (xs ys : List X) (acc : Nat) : Nat × BitVec 8 :=
  if !scaleOk sa || !scaleOk sb then nanRes fp32 true
  else match groupSum xs ys, mulX (unpackRaw bf16 sa) (unpackRaw bf16 sb) with
    | .ok s, some c => fmaRound fp32 (envRne false) s c (unpackRaw fp32 acc)
    | .error nv, _ => nanRes fp32 (nv || (unpackRaw fp32 acc).isSnan)
    | _, none => nanRes fp32 true

/-- An integer group added by wrap or SatAdd32 (R48). -/
def intAdd (sat : Bool) (xs ys : List Int) (acc : Nat) : Nat × BitVec 8 :=
  let g := (xs.zip ys).foldl (fun a p => a + p.1 * p.2) 0
  if sat then
    let r := satAdd32 (sgnN 32 acc) g
    (wrapN 32 r.1, r.2)
  else (wrapN 32 (sgnN 32 acc + g), 0)

/-- Element `i` of `b` bits from byte `off` of a buffer. -/
def elemAt (bs : List Byte) (off b i : Nat) : Nat :=
  leNat ((bs.drop (off + i * b / 8)).take ((b + 7) / 8)) / 2 ^ (i * b % 8) % 2 ^ b

/-- The new value of accumulator word (m, n) by group `q`, from the bytes that item read. -/
def mmaCell (w : Vec) (p : Plane) (g q : Nat) (bs : List Byte) (m n acc : Nat) : Nat × BitVec 8 :=
  let f := ptrFmt (cSrc w)
  let b := codeBits f
  let len := min g (cK w - q * g)
  let cell (j : Nat) : Nat := tget p.cells ((q * g + j) * 64 + n) 0
  if isBlk f then
    let per := 2 + g * b / 8
    let off := m * per
    blockAdd (leNat ((bs.drop off).take 2)) (tget p.scales (n * 4 + q) 0)
      ((List.range len).map fun j => mmaX f (elemAt bs (off + 2) b j)) ((List.range len).map fun j => mmaX p.fmt (cell j)) acc
  else
    let off := m * ((len * b + 7) / 8)
    if intOperand f (cAsgn w) then
      intAdd (cSat w) ((List.range len).map fun j => mmaInt f (cAsgn w) (elemAt bs off b j))
        ((List.range len).map fun j => mmaInt p.fmt (cWsgn w) (cell j)) acc
    else
      fpAdd ((List.range len).map fun j => mmaX f (elemAt bs off b j)) ((List.range len).map fun j => mmaX p.fmt (cell j)) acc

/-- R344: one group added to every word of rows 0 to M − 1. -/
def mmaGroupStep (c : Core) (w : Vec) (g q : Nat) (bs : List Byte) : Core × BitVec 8 :=
  let p := c.plane w
  (List.range (cM w * 64)).foldl (fun x i =>
    let a := accIdx (cAcc w) (i / 64) (i % 64)
    let r := mmaCell w p g q bs (i / 64) (i % 64) (x.1.accAt a)
    ({ x.1 with acc := accSet x.1.acc a r.1 }, x.2 ||| r.2)) (c, 0)

/-- A poisoned word of rows 0 to M − 1 of a tile is consumed (R208, Table 9-6). -/
def accPoison (c : Core) (acc rows : Nat) : Bool := c.accBad.any fun i => i / 1024 == acc && i % 1024 / 64 < rows

/-- UNCORR of an accumulator word. -/
def accUncorr : FaultRec := ⟨.uncorr, 4, 0, none, false⟩

/-- A row of 256 bytes written to an accumulator tile. -/
def accRow (c : Core) (acc row : Nat) (bs : List Byte) : Core :=
  { c with
    acc := (List.range 64).foldl (fun a n => accSet a (accIdx acc row n) (elemAt bs 0 32 n)) c.acc
    accBad := c.accBad.filter fun i => !(i / 64 == accIdx acc row 0 / 64) }

/-- The bits of `n` elements of `b` bits as bytes. -/
def packBytes (b n : Nat) (f : Nat → Nat) : List Byte := leBytes ((n * b + 7) / 8) (packN b f n)

/-- One element of a requantising drain (R345). -/
def requant (fd : Nat) (x rowc colc mul : Int) (sh : Nat) (ozp : Int) : Nat × BitVec 8 :=
  let z := (x + rowc + colc) * mul
  let v := (roundInt .rne (z < 0) z.natAbs (2 ^ sh) 0).1 + ozp
  let k := clampI (codeRange fd).1 (codeRange fd).2 v
  (intCode fd k.1, flagIf k.2 fACCSAT)

/-- The row that item `m` of a drain writes, and its flags; `bs` is what it read of ROWP and COLP. -/
def drainRow (c : Core) (w : Vec) (m : Nat) (bs : List Byte) : List Byte × BitVec 8 :=
  let fd := ptrFmt (cDst w)
  let x (n : Nat) : Nat := c.accAt (accIdx (cAcc w) m n)
  let rowc : Int := if cAux6 w = 0 then 0 else sgnN 32 (elemAt bs 0 32 0)
  let at' : Nat := if cAux6 w = 0 then 0 else 4
  let col (n : Nat) : Nat × BitVec 8 :=
    if cReq w then
      if cAux7 w = 0 then requant fd (sgnN 32 (x n)) rowc 0 1 0 (cOzp w)
      else
        let o := at' + 16 * n
        requant fd (sgnN 32 (x n)) rowc (sgnN 32 (elemAt bs o 32 0)) (sgnN 32 (elemAt bs o 32 1)) (elemAt bs (o + 8) 8 0 % 64)
          (cOzp w)
    else if fd = 0 ∨ fd = 4 ∨ fd = 10 then (x n, 0)
    else convert (envRne (cSat8 w)) 10 fd (x n)
  (packBytes (codeBits (drainCode fd)) 64 fun n => (col n).1, orFlags 64 fun n => (col n).2)

/-! ## Rows of a copy (R43, R44, R305, R347, R348) -/

/-- A block of a tensor: its scale and its elements (R43). -/
def tensorBlock (f l : Nat) (bs : List Byte) (k : Nat) : Nat × List Nat :=
  let b := codeBits f
  let base := k / 16 * (32 + 2 * l * b)
  (leNat ((bs.drop (base + 2 * (k % 16))).take 2),
    (List.range l).map fun j => elemAt bs (base + 32 + k % 16 * l * b / 8) b j)

/-- The bytes of one block group from its 16 blocks. -/
def groupBytes (f : Nat) (blocks : List (Nat × List Nat)) : List Byte :=
  (blocks.map fun x => leBytes 2 x.1).flatten ++
    (blocks.map fun x => packBytes (codeBits f) x.2.length fun j => x.2.getD j 0).flatten

/-- A tensor element dequantised to a floating-point format. -/
def deqTo (sat8 : Bool) (f fd scale x : Nat) : Nat × BitVec 8 :=
  let F := (fmtOfCode fd).getD fp32
  let tern := flagIf (f == 20 && x == 2) fTERNBAD
  if !scaleOk scale then ((nanRes F true).1, (nanRes F true).2 ||| tern)
  else
    let v : X := match blockElem f x, unpackRaw bf16 scale with
      | .num n m e, .num _ k g => .num n (m * k) (e + g)
      | y, _ => y
    let r := packX F (envRne sat8) v
    (r.1, r.2 ||| tern)

/-- A source element as a datum. -/
def srcX (f x : Nat) : X :=
  match fmtOfCode f with
  | some F => unpackRaw F x
  | none => .num (intVal f x < 0) (intVal f x).natAbs 0

/-- A copied row: the bytes written and the flags, from the bytes read (Table 16-6). Block groups of one code move byte for byte, the
code 0b10 of TERN elements too (log entry 92). -/
def copyRow (w : Vec) (bs : List Byte) : List Byte × BitVec 8 :=
  let fs := ptrFmt (cSrc w)
  let fd := ptrFmt (cDst w)
  let n := cCount w
  let ls := blenOf (cSrc w)
  let ld := blenOf (cDst w)
  if isBlk fs then
    if isBlk fd then (bs, 0)
    else
      let rs := ((List.range (n / ls)).map fun k =>
        let x := tensorBlock fs ls bs k
        x.2.map fun e => deqTo (cSat8 w) fs fd x.1 e).flatten
      (packBytes (codeBits fd) n fun i => (rs.getD i (0, 0)).1, rs.foldl (fun a r => a ||| r.2) 0)
  else if isBlk fd then
    let q := (List.range (n / ld)).map fun k => quantRule fd ((List.range ld).map fun j => srcX fs (elemAt bs 0 (codeBits fs) (k * ld + j)))
    let tern := orFlags n fun i => ternFlag fs (elemAt bs 0 (codeBits fs) i)
    (((List.range (n / (16 * ld))).map fun g => groupBytes fd (((q.drop (16 * g)).take 16).map fun x => (x.1, x.2.1))).flatten,
      q.foldl (fun a r => a ||| r.2.2) tern)
  else if fs = 0 ∨ fs = 14 then (bs, 0)
  else
    let r (i : Nat) := convert (envRne (cSat8 w)) fs fd (elemAt bs 0 (codeBits fs) i)
    (packBytes (codeBits fd) n fun i => (r i).1, orFlags n fun i => (r i).2)

/-- A filled row: every element takes the low bits of PATTERN (R348; log entry 92). -/
def fillRow (w : Vec) : List Byte :=
  let b := codeBits (ptrFmt (cDst w))
  packBytes b (cCount w) fun _ => (cAux6 w).toNat % 2 ^ b

/-! ## Items -/

/-- The span item `i` writes; the alignment of a relay command's rounds is that of DST. -/
def writeSpan (k : CmdKind) (w : Vec) (i : Nat) : List Span :=
  let f := rowAlign (ptrFmt (cDst w))
  match dstSpan k w i with
  | some (a, n) =>
    match k with
    | .save | .route => [⟨cDst w, a, 32, a, n⟩]
    | .reduce | .bcast => if i < relayRounds k w then [⟨cDst w, ptrVa (cDst w), f, a, n⟩] else [⟨cAux6 w, a, 8, a, n⟩]
    | _ => [⟨cDst w, a, f, a, n⟩]
  | none => []

/-- Two byte runs share a byte. -/
def runsMeet (a b : Int × Nat) : Bool := decide (a.1 < b.1 + b.2) && decide (b.1 < a.1 + a.2)

/-- R347: the bytes that row `r` of a copy reads and writes. -/
def copySrc (w : Vec) (r : Nat) : Int × Nat := (srcRow w r, rowBytes (ptrFmt (cSrc w)) (blenOf (cSrc w)) (cCount w))
def copyDst (w : Vec) (r : Nat) : Int × Nat := (dstSpan .copy w r).getD (0, 0)

/-- Rows of a copy that have begun and are not performed, before row `i`. -/
def openRows (run : Run) (i : Nat) : List Item :=
  run.items.filter fun x => x.idx < i && x.stage != .performed && x.stage != .failed

/-- R347: row `i` may be read: no earlier row still to be written covers a byte of it. -/
def copyMayRead (run : Run) (i : Nat) : Bool :=
  (openRows run i).all fun x => !runsMeet (copyDst run.cmd.word x.idx) (copySrc run.cmd.word i)

/-- R347: row `i` may be written: no earlier row still to be read or written meets it. -/
def copyMayWrite (run : Run) (i : Nat) : Bool :=
  (openRows run i).all fun x => !runsMeet (copyDst run.cmd.word x.idx) (copyDst run.cmd.word i) &&
    !((match x.stage with | .reading _ => true | _ => false) && runsMeet (copySrc run.cmd.word x.idx) (copyDst run.cmd.word i))

/-- The stamp of a command's writes. -/
def stampOf (w : Vec) : Option Nat := if cSten w then some (cStseq w) else none

/-- Rows that an engine's item carries without reading: an accumulator row, or a filled row. -/
def readyData (c : Core) (k : CmdKind) (w : Vec) (i : Nat) : Option (Except FaultRec (List Byte × BitVec 8)) :=
  match k with
  | .fill => some (.ok (fillRow w, 0))
  | .save =>
    let acc := (maskTiles w).getD (i / 16) 0
    some (if c.accBad.any fun j => j / 64 == accIdx acc (i % 16) 0 / 64 then .error accUncorr
      else .ok (packBytes 32 64 fun n => c.accAt (accIdx acc (i % 16) n), 0))
  | .drain =>
    if cReq w ∧ (cAux6 w ≠ 0 ∨ cAux7 w ≠ 0) then none
    else some (if c.accBad.any fun j => j / 64 == accIdx (cAcc w) i 0 / 64 then .error accUncorr else .ok (drainRow c w i []))
  | _ => none

/-- R202: the next item starts. -/
def startItem (s : State) (tile : Nat) (k : CmdKind) (run : Run) : Option State :=
  let e := kindEng k
  let w := run.cmd.word
  let i := run.next
  let c := s.core tile
  if run.nitems ≤ i ∨ run.fault.isSome ∨ c.stopping ∨ (k = .copy ∧ !copyMayRead run i) then none
  else match k with
    | .zero =>
      some ((putItem s tile e i .performed []).updCore tile fun c =>
        { c with acc := c.acc.filter fun x => x.1 / 1024 != cAcc w })
    | _ =>
      match readyData c k w i with
      | some (.ok (d, f)) => some (updRun (putItem s tile e i .ready d) tile e fun r => { r with flags := r.flags ||| f })
      | some (.error f) => some (failItem s tile e i f)
      | none =>
        let sp := readSpans k w run.group i
        issueItem s tile e i .load sp (List.replicate (spansLen sp) 0) .reading none

/-- The cells and scales of a row loaded by MX.LOADW (R343). -/
def loadwRow (p : Plane) (w : Vec) (i : Nat) (bs : List Byte) : Plane × BitVec 8 :=
  let f := ptrFmt (cSrc w)
  let b := codeBits f
  if isBlk f then
    let nb := cK w / blenOf (cSrc w)
    ({ p with
      cells := (List.range (cK w)).foldl (fun t k => tset t (k * 64 + i) (elemAt bs (2 * nb) b k)) p.cells
      scales := (List.range nb).foldl (fun t j => tset t (i * 4 + j) (elemAt bs 0 16 j)) p.scales }, 0)
  else
    ({ p with cells := (List.range 64).foldl (fun t n => tset t (i * 64 + n) (elemAt bs 0 b n)) p.cells },
      orFlags 64 fun n => ternFlag f (elemAt bs 0 b n))

/-- An item's bytes have come: they are taken in, or made ready to be written. -/
def consume (s : State) (tile : Nat) (k : CmdKind) (run : Run) (i : Nat) (bs : List Byte) : State :=
  let e := kindEng k
  let w := run.cmd.word
  let c := s.core tile
  let done (c : Core) (f : BitVec 8) : State :=
    updRun (putItem (s.setCore tile c) tile e i .performed []) tile e fun r => { r with flags := r.flags ||| f }
  let hold (x : List Byte × BitVec 8) : State :=
    updRun (putItem s tile e i .ready x.1) tile e fun r => { r with flags := r.flags ||| x.2 }
  match k with
  | .ldacc => done (accRow c (cAcc w) i bs) 0
  | .restore => done (accRow c ((maskTiles w).getD (i / 16) 0) (i % 16) bs) 0
  | .loadw =>
    let r := loadwRow (c.plane w) w i bs
    done (c.setPlane w r.1) r.2
  | .mma =>
    if accPoison c (cAcc w) (cM w) then failItem s tile e i accUncorr
    else
      let r := mmaGroupStep c w run.group i bs
      done { r.1 with mxprog := { r.1.mxprog with groups := BitVec.ofNat 32 (i + 1) } } r.2
  | .drain =>
    if c.accBad.any fun j => j / 64 == accIdx (cAcc w) i 0 / 64 then failItem s tile e i accUncorr else hold (drainRow c w i bs)
  | .copy => hold (copyRow w bs)
  | _ => hold (bs, 0)

/-- The request of an item leaves the list of those in flight. -/
def dropReq (s : State) (id : Nat) : State := { s with reqs := s.reqs.filter fun q => q.id != id }

/-- The bytes of a row that its read has brought without a gap from the first. -/
def readPrefix (r : Req) : Nat :=
  ((List.range r.buf.length).takeWhile fun k => r.parts.any fun p => p.stage == .done && p.moves.any fun m => m.2 == k).length

/-- What a copy of elements may have written of row `i` where its read has brought `n` bytes: none, or the row up to the end of a
granule of its destination (DESIGN CHOICE, log entry 103). -/
def rowCuts (w : Vec) (i n : Nat) : List Nat :=
  let fs := ptrFmt (cSrc w)
  let fd := ptrFmt (cDst w)
  let m := if isBlk fs ∨ isBlk fd then 0 else 8 * n / codeBits fs * codeBits fd / 8
  0 :: (List.range (m + 1)).filter fun c => 0 < c && ((copyDst w i).1 + (c : Int)) % 64 == 0

/-- R202: row `i` of a copy has failed, its read having failed with `f`. Beats that it performed before stand: which granules it
had finished is a free value (log entry 103). -/
def failRow (s : State) (tile : Nat) (run : Run) (i : Nat) (r : Req) (f : FaultRec) : State :=
  let w := run.cmd.word
  let t := failItem s tile .cp i f
  let cuts := rowCuts w i (readPrefix r)
  let n := cuts.getD ((Config.freeWord s.free).toNat % cuts.length) 0
  if n = 0 ∨ !copyMayWrite run i then t
  else
    let t := { t with free := t.free + 1 }
    let row := copyRow w (r.buf.take (8 * n / codeBits (ptrFmt (cDst w)) * codeBits (ptrFmt (cSrc w)) / 8))
    let span (x : Span) : Span := { x with n := n }
    let spans := (writeSpan .copy w i).map span
    match spansMoves t tile run.walkFault needW 0 spans, issueItem t tile .cp i .store spans (row.1.take n) .writing (stampOf w) with
    | .ok _, some u =>
      updRun u tile .cp fun x => { x.setItem ⟨i, .writing t.nextId, [], true⟩ with flags := x.flags ||| row.2 }
    | _, _ => t

/-- A CP.ROUTE packet joins its route's FIFO (R349, R186): packet 0 not before DEPART. -/
def sendRoute (s : State) (tile : Nat) (run : Run) (i : Nat) (data : List Byte) : Option State :=
  let w := run.cmd.word
  let ctx := ctxOf s tile
  let h := cHandle w
  let fail (f : FaultRec) : Option State := some (failItem s tile .cp i f)
  match routeOf s ctx h with
  | some (true, d) =>
    if run.items.any fun x => x.idx < i && (match x.stage with | .reading _ | .ready => true | _ => false) then none
    else
      match spansMoves s tile run.walkFault needW 0 (writeSpan .route w i) with
      | .error (.miss v) => joinWalkEng s tile .cp v
      | .error (.fault f) => fail f
      | .ok ms =>
        let pa := match ms with | [] => 0 | m :: _ => m.2.1
        let x := s.txid
        let depart := if i = 0 then (cAux6 w).toNat else 0
        let pkt := { mkPacket s 0x09 (s.ctx ctx).pkey.toNat (rtDst d) x tile pa data with
          dstPkg := if rtHops d = 0 then s.pkg else rtDst d
          route := some (ctx, h)
          stamp := if cSten w then some (cStseq w, i + 1 == run.nitems) else none }
        let s := sendAfter s (rtPort d) (.route ctx h 15) pkt depart
        some (putItem s tile .cp i (.sent x (rtPort d)) [])
  | _ => fail ⟨.lapsed, 0, h, none, false⟩

/-- One item moved on by a stage. -/
def moveItem (s : State) (tile : Nat) (k : CmdKind) (run : Run) (i : Nat) : Option State :=
  let e := kindEng k
  match run.item i with
  | none => none
  | some x =>
    match x.stage with
    | .reading id =>
      match s.req id with
      | none => none
      | some r =>
        if !r.settled then none
        else
          let t := dropReq s id
          match r.fault with
          | some f => some (if k = .copy then failRow t tile run i r f else failItem t tile e i f)
          | none =>
            if k = .mma then
              -- groups are added in increasing index only
              if run.failedBefore i then some (putItem t tile e i .failed [])
              else if run.prefixDone ≠ i then none
              else some (consume t tile k run i r.buf)
            else some (consume t tile k run i r.buf)
    | .ready =>
      if k = .route then sendRoute s tile run i x.data
      else if k = .copy ∧ !copyMayWrite run i then none
      else issueItem s tile e i .store (writeSpan k run.cmd.word i) x.data .writing (stampOf run.cmd.word)
    | .writing id =>
      match s.req id with
      | none => none
      | some r =>
        if !r.settled then none
        else if x.bad then some (putItem (dropReq s id) tile e i .failed [])
        else match r.fault with
          | some f => some (failItem (dropReq s id) tile e i f)
          | none => some (putItem (dropReq s id) tile e i .performed [])
    | .sent _ _ | .waitingRound _ | .performed | .failed => none

/-- One step of the event of a matrix or copy command. -/
def engineStep (s : State) (tile : Nat) (k : CmdKind) (x : EStep) : Option State :=
  match x with
  | .start => startEvent s tile k
  | .startItem =>
    match runOf s tile (kindEng k) with
    | some r => if kindOf r.cmd.word = some k then startItem s tile k r else none
    | none => none
  | .item i =>
    match runOf s tile (kindEng k) with
    | some r => if kindOf r.cmd.word = some k then moveItem s tile k r i else none
    | none => none

def execMxZero (tile : Nat) (e : EStep) (s : State) : Host.Outcome State Fault Refusal :=
  event "MX_ZERO" s (engineStep s tile .zero e)
def execMxLdacc (tile : Nat) (e : EStep) (s : State) : Host.Outcome State Fault Refusal :=
  event "MX_LDACC" s (engineStep s tile .ldacc e)
def execMxLoadw (tile : Nat) (e : EStep) (s : State) : Host.Outcome State Fault Refusal :=
  event "MX_LOADW" s (engineStep s tile .loadw e)
def execMxMma (tile : Nat) (e : EStep) (s : State) : Host.Outcome State Fault Refusal :=
  event "MX_MMA" s (engineStep s tile .mma e)
def execMxDrain (tile : Nat) (e : EStep) (s : State) : Host.Outcome State Fault Refusal :=
  event "MX_DRAIN" s (engineStep s tile .drain e)
def execMxSave (tile : Nat) (e : EStep) (s : State) : Host.Outcome State Fault Refusal :=
  event "MX_SAVE" s (engineStep s tile .save e)
def execMxRestore (tile : Nat) (e : EStep) (s : State) : Host.Outcome State Fault Refusal :=
  event "MX_RESTORE" s (engineStep s tile .restore e)
def execCpCopy (tile : Nat) (e : EStep) (s : State) : Host.Outcome State Fault Refusal :=
  event "CP_COPY" s (engineStep s tile .copy e)
def execCpFill (tile : Nat) (e : EStep) (s : State) : Host.Outcome State Fault Refusal :=
  event "CP_FILL" s (engineStep s tile .fill e)
def execCpRoute (tile : Nat) (e : EStep) (s : State) : Host.Outcome State Fault Refusal :=
  event "CP_ROUTE" s (engineStep s tile .route e)

/-! ## Completion (R80, R202, R204) -/

/-- Every started item has ended, and no later one starts. -/
def runEnded (r : Run) : Bool :=
  r.items.all (fun x => x.stage == .performed || x.stage == .failed) && (r.next == r.nitems || r.fault.isSome)

/-- A running command completes: its flags, its entry, and what a matrix command leaves. -/
def completeRun (s : State) (tile : Nat) (e : Eng) (r : Run) : State :=
  let k := kindOf r.cmd.word
  let mma : Bool := k == some .mma
  let d := r.prefixDone
  let parked : Bool := mma && r.fault.isSome
  let s := engineFlags s tile r.cmd r.flags
  let s := s.updCore tile fun c =>
    let c := if parked then { c with parked := some (r.cmd, d), mxprog := { c.mxprog with groups := BitVec.ofNat 32 d } }
      else if mma then { c with mxprog := { c.mxprog with valid := false } } else c
    if k == some .loadw && r.fault.isNone then c.setPlane r.cmd.word { c.plane r.cmd.word with valid := true } else c
  let n := if e = .rl then 1 else r.nitems
  let d := if e = .rl then (if r.fault.isSome then 0 else 1) else d
  s.updCore tile fun c => leaveEngine c e r.cmd r.fault parked d n

/-- ENGINE_COMMAND_COMPLETE: the running command ends; or the head of the queue, whose OP is not assigned or belongs to
another engine, is refused (R339). -/
def engineComplete (s : State) (tile : Nat) (e : Eng) : Option State :=
  match runOf s tile e with
  | some r => if runEnded r then some (completeRun s tile e r) else none
  | none =>
    match headCmd s tile e with
    | some q =>
      match kindOf q.word with
      | some k => if kindEng k = e then none else some (startCmd s tile e q)
      | none => some (startCmd s tile e q)
    | none => none

def execEngineCommandComplete (tile : Nat) (e : Eng) (s : State) : Host.Outcome State Fault Refusal :=
  event "ENGINE_COMMAND_COMPLETE" s (engineComplete s tile e)

end Sys2Proof.Machine
end

