-- ==== Sys2Proof/Machine/Relay.lean ====
section
/-! DEFINITION. The relay (spec/02 R52, R53, spec/08 R192, R193, spec/15 R316, R325, spec/16 R350 to R352): contributions
of a member, the sum at the home crossbar, its broadcast, relay commands, and the gateway cores. -/

namespace Sys2Proof.Machine

/-! ## Sums (R52, R316) -/

/-- A contributed element as an FP32 code, exactly. -/
def toFp32 (fmt x : Nat) : Nat × BitVec 8 :=
  match fmtOfCode fmt with
  | some F => packX fp32 (envRne false) (unpackRaw F x)
  | none => (x % 2 ^ 32, 0)

/-- Two rows of FP32 codes added element by element; a row that is shorter counts as +0 beyond its end. -/
def addRows (a b : List Nat) : List Nat × BitVec 8 :=
  let r (i : Nat) := addRound fp32 (envRne false) [unpackRaw fp32 (a.getD i 0), unpackRaw fp32 (b.getD i 0)]
  let n := max a.length b.length
  ((List.range n).map fun i => (r i).1, orFlags n fun i => (r i).2)

/-- Floating-point rows, each with its format, summed in the order given. -/
def sumFp : List (Nat × List Nat) → List Nat × BitVec 8
  | [] => ([], 0)
  | (f, x) :: rest =>
    rest.foldl (fun a y =>
      let c := y.2.map (toFp32 y.1)
      let r := addRows a.1 (c.map (·.1))
      (r.1, a.2 ||| r.2 ||| c.foldl (fun p q => p ||| q.2) 0))
      (x.map fun e => (toFp32 f e).1, x.foldl (fun p e => p ||| (toFp32 f e).2) 0)

/-- Rows of INT32 added by wrapping. -/
def sumInt32 (rows : List (List Nat)) : List Nat :=
  rows.foldl (fun a b => (List.range (max a.length b.length)).map fun i => (a.getD i 0 + b.getD i 0) % 2 ^ 32) []

/-- The format number of a contribution in which INT32 and floating-point data met. -/
def mixedFmt : Nat := 31

/-! ## Contributions of this member (R316) -/

/-- What has been presented here to a round, in increasing tile number. -/
def presentsOf (s : State) (key frame : Nat) : List Present :=
  (List.range 4096).filterMap fun t => s.presents.find? fun p => p.key == key && p.frame == frame && p.tile == t

/-- Every presentation to a round. -/
def presentCount (s : State) (key frame : Nat) : Nat := (s.presents.filter fun p => p.key == key && p.frame == frame).length

/-- This member's contribution; none where it is absent: fewer or more cores than its NCORE counts, or `vldr` and relay
commands mixed (R352), or the source of a broadcast not read. Two threads of one core that present to one round make the
member absent (DESIGN CHOICE, log entry 112). -/
def memberPart (s : State) (key frame : Nat) (d : List Word) : Option Contribution :=
  let ps := presentsOf s key frame
  let n := presentCount s key frame
  let me := (grpIndex d s.pkg).getD 0
  match ps with
  | [] => none
  | p :: rest =>
    if n ≠ myCores s d ∨ ps.length ≠ n ∨ rest.any (fun q => q.kind != p.kind) then none
    else
      let base : Contribution := ⟨12, me, p.kind, p.fmt, [], 0, false⟩
      if p.kind = 2 then
        if p.root = me then (if p.bytes.isEmpty then none else some { base with elems := p.bytes.map (·.toNat) })
        else some base
      else if ps.all fun q => q.fmt == 4 then some { base with elems := sumInt32 (ps.map (·.elems)) }
      else if ps.any fun q => q.fmt == 4 then some { base with fmt := mixedFmt }
      else match rest with
        | [] => some { base with elems := p.elems }
        | _ =>
          let r := sumFp (ps.map fun q => (q.fmt, q.elems))
          some { base with fmt := 10, elems := r.1, flags := r.2 }

/-- Bytes as a payload in steps of 32, zeros behind them; at least one step, since a relay packet has a payload (R178,
Table 8-3). -/
def beatsOf (b : List Byte) : List Byte := b ++ List.replicate (max 32 ((b.length + 31) / 32 * 32) - b.length) 0

/-- The bytes of a contribution's elements. A zero beyond an element list's end is the +0 or 0 that it counts as. -/
def partPayload (c : Contribution) : List Byte :=
  let b := if c.kind = 2 then 8 else codeBits c.fmt
  beatsOf (packBytes b c.elems.length fun i => c.elems.getD i 0)

/-- ADDR of a contribution: flags, format, kind, whether it is a broadcast's source, and frame (DESIGN CHOICE, log
entry 16). -/
def partAddr (c : Contribution) (frame : Nat) : Nat :=
  c.flags.toNat + c.fmt * 2 ^ 8 + c.kind * 2 ^ 13 + (if c.kind == 2 && !c.elems.isEmpty then 2 ^ 15 else 0) +
    frame % 2 ^ 36 * 2 ^ 16

/-! ## Groups on this package -/

/-- The live group hold of a group's name: context, handle, descriptor, formed. -/
def groupHold (s : State) (key : Nat) : Option (Nat × Nat × List Word × Bool) :=
  s.ctxs.findSome? fun c => c.2.holds.findSome? fun h =>
    match h.2.kind with
    | .group d f => if h.2.live && groupName s c.1 d == key then some (c.1, handleOf h.2 h.1, d, f) else none
    | _ => none

/-- A slot is a group's, by its name. -/
def slotOfGroup (s : State) (key : Nat) (o : SlotOwner) : Bool :=
  match o with
  | .route c h _ =>
    match (holdAt s c (h % 4096)).kind with
    | .group d _ => groupName s c d == key
    | _ => false
  | _ => false

/-- The last in-slot in which a contribution to a group is scheduled, over the ports. -/
def lastInSlot (s : State) (key : Nat) : Nat :=
  s.ports.foldl (fun n p => p.2.inTab.foldl (fun n e => if slotOfGroup s key e.2 then max n e.1 else n) n) 0

/-- A packet of a relay round, in the group's slots toward a member, which are the group's until their frame ends, whether its
hold has lapsed meanwhile or not (R181). It is at the crossbar, so it may leave in the slot now under way. -/
def sendRelay (s : State) (key type member addr : Nat) (payload : List Byte) (after : Nat) : State :=
  match portFor s member with
  | some port =>
    match (s.port port).outTab.find? fun e => slotOfGroup s key e.2 with
    | some e => sendAfter s port e.2 (mkPacket s type (key / 2 ^ 16) member (key % 2 ^ 16) 0 addr payload) after
    | none => s
  | none => s

/-- A contribution goes to the home crossbar; the home's own stays (R192). -/
def sendPart' (s : State) (key frame : Nat) (d : List Word) (after : Nat) : State :=
  if grpHome d = s.pkg then s
  else match memberPart s key frame d with
    | some c => sendRelay s key 0x0A (grpHome d) (partAddr c frame) (partPayload c) after
    | none => s

/-- The rounds that a frame boundary opens: one for every live group hold of this package, and one for every name that
something was presented to (R316): where the hold has lapsed since, by the descriptor it had then. -/
def openRounds (s : State) : State :=
  let live : List Round := (s.ctxs.map fun c => c.2.holds.filterMap fun h =>
    match h.2.kind with
    | .group d f => if h.2.live then some ⟨groupName s c.1 d, s.frame, d, f, []⟩ else none
    | _ => none).flatten
  let lost : List Round := (s.presents.filter fun p => p.frame == s.frame && !live.any fun r => r.key == p.key).map fun p =>
    ⟨p.key, s.frame, p.desc, false, []⟩
  let waiting (r : Round) : Bool := !r.remote.isEmpty || s.presents.any fun p => p.key == r.key && p.frame == r.frame
  let all := (live ++ lost).foldl (fun l r => if l.any fun x => x.key == r.key then l else l ++ [r]) []
  let s := { s with rounds := s.rounds.filter waiting ++ all }
  all.foldl (fun s r => if r.live then sendPart' s r.key r.frame r.desc s.ptb else s) s

/-! ## The outcome of a round -/

/-- A round's end as each participant learns it: code, ABSENT, the sum's or the source's bytes, the sum's flags. -/
structure Outcome' where
  code   : Nat
  absent : Nat
  bytes  : List Byte
  flags  : BitVec 8
  deriving DecidableEq, Repr

/-- R352: the code a relay command's status word ends with, from the codes of its rounds as a set of bits. -/
def worstCode (seen : Nat) : Nat :=
  if bitOf seen 2 then 2 else if bitOf seen 3 then 3 else if bitOf seen 1 then 1 else 0

/-- The bytes a relay command writes of a round at its destination, and the flags of the final rounding. -/
def roundData (k : CmdKind) (w : Vec) (mine : Nat) (o : Outcome') : List Byte × BitVec 8 :=
  if k = .bcast then (if bitOf o.absent mine then ([], 0) else (o.bytes, 0))
  else if o.code ≠ 0 then ([], 0)
  else if ptrFmt (cDst w) = 9 then
    let n := o.bytes.length / 4
    let r (i : Nat) := convert (envRne false) 10 9 (elemAt o.bytes 0 32 i)
    (packBytes 16 n fun i => (r i).1, o.flags ||| orFlags n fun i => (r i).2)
  else (o.bytes, o.flags)

/-- A relay command's item whose round has ended: its data to be written, or nothing to write. -/
def endItem (s : State) (tile i : Nat) (mine : Nat) (o : Outcome') : State :=
  match runOf s tile .rl with
  | none => s
  | some r =>
    match kindOf r.cmd.word, r.item i with
    | some k, some x =>
      if x.stage == .performed || x.stage == .failed then s
      else
        let d := roundData k r.cmd.word mine o
        let d := (d.1.take (roundBytes k r.cmd.word i), d.2)
        updRun (putItem s tile .rl i (if d.1.isEmpty then .performed else .ready) d.1) tile .rl fun r =>
          { r with
            flags := r.flags ||| d.2
            absent := r.absent ||| o.absent
            status := r.status ||| (if o.code = 0 then 0 else 2 ^ o.code) }
    | _, _ => s

/-- A `vldr` completes with its round's outcome (R316). -/
def endLdr (s : State) (key id : Nat) (o : Outcome') : State :=
  match s.req id with
  | none => s
  | some r =>
    let t := dropReq s id
    match r.undo with
    | none => t
    | some u =>
      if !(s.thr key).live || r.lid != lidOf s (tileOf key) || r.seq < (s.thr key).born then t
      else
        let sum := (o.bytes ++ List.replicate 64 0).take 64
        let word := o.absent * 2 ^ 8 + o.code
        let bs := leBytes 8 word ++ sum ++ [BitVec.ofNat 8 o.flags.toNat]
        endAccess (lvqFill (finishLoad t key r.fin bs) key id bs) key r u

/-- Every participant here of a round is written as its outcome says. -/
def deliverRound (s : State) (key frame mine : Nat) (o : Outcome') : State :=
  let ps := s.presents.filter fun p => p.key == key && p.frame == frame
  let s := { s with
    presents := s.presents.filter fun p => !(p.key == key && p.frame == frame)
    rounds := s.rounds.filter fun r => !(r.key == key && r.frame == frame) }
  ps.foldl (fun s p =>
    match p.thread, p.req with
    | some t, some id => endLdr s t id o
    | _, _ =>
      match runOf s p.tile .rl with
      | some r => endItem s p.tile (frame - r.frame - 1) mine o
      | none => s) s

/-- The contributions to a round in the order they are added: by port, the home's own last (R52); and its outcome at the
home crossbar. `parts` holds one entry for each member that is not absent. Members whose contributions come over one
port are added in descriptor order (DESIGN CHOICE, log entry 77). -/
def roundOutcome (d : List Word) (parts : List Contribution) : Outcome' :=
  let kind := match parts.find? fun c => c.port == 12 with
    | some c => c.kind
    | none => match parts with | [] => 0 | c :: _ => c.kind
  let same := parts.filter fun c => c.lost || c.kind == kind
  let absent := (List.range (grpMems d)).foldl (fun a i => if same.any fun c => c.member == i then a else a + 2 ^ i) 0
  let ordered := ((List.range 13).map fun p => same.filter fun c => c.port == p).flatten
  let lost := ordered.any (·.lost)
  let ints := ordered.any fun c => !c.lost && c.fmt == 4
  let fps := ordered.any fun c => !c.lost && c.fmt != 4
  let mixed := kind != 2 && ((ints && fps) || ordered.any fun c => c.fmt == mixedFmt)
  let code := if lost then 2 else if mixed then 3 else if absent ≠ 0 then 1 else 0
  if kind = 2 then
    let src := ordered.find? fun c => !c.lost && !c.elems.isEmpty
    ⟨code, absent, match src with | some c => c.elems.map fun x => BitVec.ofNat 8 x | none => [], 0⟩
  else if code ≠ 0 then ⟨code, absent, [], 0⟩
  else if ints then ⟨0, 0, packBytes 32 (ordered.headD ⟨0, 0, 0, 0, [], 0, false⟩).elems.length
    fun i => (sumInt32 (ordered.map (·.elems))).getD i 0, 0⟩
  else
    let r := sumFp (ordered.map fun c => (c.fmt, c.elems))
    ⟨0, 0, packBytes 32 r.1.length fun i => r.1.getD i 0, ordered.foldl (fun f c => f ||| c.flags) r.2⟩

/-- The broadcast's ADDR: flags, code, whether its payload is data, ABSENT and the frame's low bits (DESIGN CHOICE, log entry
16). -/
def outAddr (o : Outcome') (frame : Nat) : Nat :=
  o.flags.toNat + o.code * 2 ^ 8 + (if o.bytes.isEmpty then 0 else 2 ^ 15) + o.absent % 2 ^ 16 * 2 ^ 16 + frame % 2 ^ 20 * 2 ^ 32

/-- The last in-slot of a group on one port. -/
def portSlot (s : State) (key port : Nat) : Nat :=
  (s.port port).inTab.foldl (fun n e => if slotOfGroup s key e.2 then max n e.1 else n) 0

/-- When a port that carries nothing now came to a stop (R187). -/
def Port.since (p : Port) : Nat := p.stalled.getD (p.errAt + 1)

/-- What has come to the home for a round: what was received; and a lost contribution for a member whose port carries nothing
now, where its scheduled slot fell into the stall, or what came in it before can no more be answered (R214, Table 21-6). -/
def received (s : State) (r : Round) : List Contribution :=
  (grpList r.desc).mapIdx (fun i m => (i, m)) |>.filterMap fun x =>
    if x.2 = s.pkg then none
    else
      let come := r.remote.find? fun c => c.member == x.1
      match portFor s x.2 with
      | some p =>
        if (s.port p).closed s && (come.isSome || decide ((s.port p).since ≤ r.frame * 2048 + portSlot s r.key p)) then
          some ⟨p, x.1, 0, 0, [], 0, true⟩
        else come
      | none => come

/-- A broadcast that a stall of the port toward the home keeps from coming, or kept (R214). -/
def castLost (s : State) (r : Round) : Bool :=
  r.remote.any (·.lost) || (match portFor s (grpHome r.desc) with
    | some p => (s.port p).closed s && decide ((r.frame + 1) * 2048 ≤ s.ptb)
    | none => false)

/-- RELAY_ROUND_SUM (R52, R192, R316): at the home crossbar of a formed group, 4 slots after the last scheduled arrival,
the sum is formed or not, and broadcast. Where this package held no live hold of a formed group at the round's boundary,
or the broadcast is lost, no sum is formed, and `remote` says which other members were present. -/
def roundSum (s : State) (key frame : Nat) (remote : List Contribution) : Option State :=
  match s.rounds.find? fun r => r.key == key && r.frame == frame with
  | none => none
  | some r =>
    let mine := (grpIndex r.desc s.pkg).getD 0
    let own := memberPart s key frame r.desc
    if r.live && grpHome r.desc == s.pkg then
      let reading := s.cores.any fun c => match c.2.rl.run with
        | some x => x.frame < frame && groupKey s (ctxOf s c.1) (cHandle x.cmd.word) == key &&
            (match x.item (frame - x.frame - 1) with | some y => (match y.stage with | .reading _ => true | _ => false) | none => false)
        | none => false
      if s.ptb < frame * 2048 + lastInSlot s key + 4 ∨ remote ≠ received s r ∨ reading then none
      else
        let o := roundOutcome r.desc (remote ++ own.toList)
        let s := (grpList r.desc).foldl (fun s m =>
          if m = s.pkg then s else sendRelay s key 0x0B m (outAddr o frame) (beatsOf o.bytes) s.ptb) s
        some (deliverRound s key frame mine o)
    else if r.live && !castLost s r then none
    else
      let held := r.live || (groupHold s key).isSome
      let o := roundOutcome r.desc (remote ++ (if held then own.toList else []))
      if s.ptb < frame * 2048 ∨ (!r.live && o.absent = 0) then none
      else some (deliverRound s key frame mine ⟨if r.live then 2 else o.code, o.absent, [], 0⟩)

def execRelayRoundSum (key frame : Nat) (remote : List Contribution) (s : State) : Host.Outcome State Fault Refusal :=
  event "RELAY_ROUND_SUM" s (roundSum s key frame remote)

/-! ## Packets of a round -/

/-- The slot now under way. -/
def State.slotNow (s : State) : Nat := s.ptb % 2048

/-- A port's in-slot now is a group's. -/
def inGroupSlot (s : State) (port key : Nat) : Bool := slotOfGroup s key (inOwner s port s.ptb)

/-- A discarded packet counts at its port (R179); the sixteenth of a frame makes it retrain (R187). -/
def countError (s : State) (port : Nat) : State :=
  s.updPort port fun p => { p with
    crcErr := p.crcErr + 1
    frameErrs := p.frameErrs + 1
    errAt := if p.frameErrs < 16 then s.ptb else p.errAt }

/-- The types of Table 8-3. -/
def assignedType (t : Nat) : Bool := [0x01, 0x02, 0x03, 0x04, 0x05, 0x08, 0x09, 0x0A, 0x0B, 0x0C].contains t

/-- R179: a packet that the receiving port discards: its TYPE is not assigned, its LEN above 128, or its CRC fails. -/
def badPacket (p : Packet) : Bool := !assignedType p.type || decide (128 < p.len) || p.crc != packetCrc p

/-- R178: a packet's payload fills LEN beats. -/
def wholePacket (p : Packet) : Bool := p.payload.length == 32 * p.len

/-- R177, R180: a port of a package whose time base is set, in a role and trained, that carries beats now. -/
def carries (s : State) (port : Nat) : Bool :=
  s.tbSet && decide (port < 12) && (s.port port).role != .unused && (s.port port).trained && !(s.port port).closed s

/-- R185: route beats that the crossbar forwards to a port leave it `d` slots on in the route's slots there, beat by beat:
when a packet's last beat has come, its beats of the earlier slots have left, and those of its last slot are to leave. -/
def forwardBeats (s : State) (port ctx handle : Nat) (p : Packet) (d : Nat) : State :=
  s.updPort port fun q => { q with fifo := q.fifo ++ [⟨.route ctx handle 15, p, s.ptb + d, p.len % 32 + 1⟩] }

/-- A relay packet for another package goes on as the in-slot's FWD directs (R180, R192). -/
def relayOn (s : State) (port : Nat) (p : Packet) : Option State :=
  match inOwner s port s.ptb with
  | .route c h f => if f ≤ 11 then some (forwardBeats s f c h p 2) else some (countError s port)
  | _ => some (countError s port)

/-- A round's record changed where it is one of a name and `p` holds of its frame. -/
def addRemote (s : State) (hit : Round → Bool) (f : Round → Nat → Contribution) (pkg : Nat) : State :=
  let add (r : Round) : Round :=
    match grpIndex r.desc pkg with
    | some i => if hit r then { r with remote := r.remote ++ [f r i] } else r
    | none => r
  { s with rounds := s.rounds.map add }

/-- RELAY_CONTRIBUTION (R192, R157): a contribution arrives in its scheduled slot, or is forwarded there to its home. One whose
capability matches no group hold here is discarded; one that the port discards is counted, and lost (R179). -/
def contribution (s : State) (port : Nat) (p : Packet) : Option State :=
  let key := p.cap * 2 ^ 16 + p.txid
  let frame := p.addr / 2 ^ 16
  if (p.type ≠ 0x0A ∧ assignedType p.type) ∨ (!badPacket p ∧ (p.len < 1 ∨ !wholePacket p)) ∨ !carries s port then none
  else if !badPacket p && p.dstPkg != s.pkg then relayOn s port p
  else if badPacket p then
    some (addRemote (countError s port) (fun r => r.frame == s.frame && inGroupSlot s port r.key)
      (fun _ i => ⟨port, i, 0, 0, [], 0, true⟩) p.srcPkg)
  else if !inGroupSlot s port key then some s
  else
    let fmt := p.addr / 2 ^ 8 % 2 ^ 5
    let kind := p.addr / 2 ^ 13 % 4
    let b := if kind = 2 then 8 else codeBits fmt
    let els := (List.range (8 * p.payload.length / b)).map fun i => elemAt p.payload 0 b i
    some (addRemote s (fun r => r.key == key && r.frame % 2 ^ 36 == frame)
      (fun _ i => ⟨port, i, kind, fmt, if kind == 2 && !bitOf p.addr 15 then [] else els, BitVec.ofNat 8 p.addr, false⟩)
      p.srcPkg)

def execRelayContribution (port : Nat) (p : Packet) (s : State) : Host.Outcome State Fault Refusal :=
  event "RELAY_CONTRIBUTION" s (contribution s port p)

/-- RELAY_BROADCAST (R52, R316): the outcome of a round reaches a member, or is forwarded to it; one that the port discards is
counted, and a link failure. -/
def broadcast (s : State) (port : Nat) (p : Packet) : Option State :=
  let key := p.cap * 2 ^ 16 + p.txid
  let t := if badPacket p then countError s port else s
  if (p.type ≠ 0x0B ∧ assignedType p.type) ∨ (!badPacket p ∧ (p.len < 1 ∨ !wholePacket p)) ∨ !carries s port then none
  else if !badPacket p && p.dstPkg != s.pkg then relayOn s port p
  else match s.rounds.find? fun r => r.key == key && r.frame % 2 ^ 20 == p.addr / 2 ^ 32 with
    | none => some t
    | some r =>
      if grpHome r.desc ≠ p.srcPkg ∨ !inGroupSlot s port key then some t
      else
        let mine := (grpIndex r.desc s.pkg).getD 0
        let code := p.addr / 2 ^ 8 % 2 ^ 7
        let bytes := if bitOf p.addr 15 then p.payload else []
        let o : Outcome' := ⟨if badPacket p then 2 else code, p.addr / 2 ^ 16 % 2 ^ 16, if badPacket p then [] else bytes,
          BitVec.ofNat 8 p.addr⟩
        some (deliverRound t key r.frame mine o)

def execRelayBroadcast (p : PortPacket) (s : State) : Host.Outcome State Fault Refusal :=
  event "RELAY_BROADCAST" s (broadcast s p.port p.pkt)

/-! ## Relay commands (R350 to R352) -/

/-- A presentation of a relay command. -/
def presentItem (s : State) (tile i : Nat) (k : CmdKind) (run : Run) (elems : List Nat) : State :=
  let w := run.cmd.word
  { s with presents := s.presents ++ [{
      key := groupKey s (ctxOf s tile) (cHandle w)
      frame := run.frame + 1 + i
      tile := tile
      kind := if k = .reduce then 1 else 2
      root := cRoot w
      thread := none
      fmt := ptrFmt (cSrc w)
      elems := elems
      bytes := []
      req := none
      desc := (liveGroup s (ctxOf s tile) (cHandle w)).getD [] }] }

/-- A relay item that is ready joins its round, or has come after its frame has begun and finds its member absent. -/
def joinRound (s : State) (tile i : Nat) (k : CmdKind) (run : Run) (d : List Word) (elems : List Nat) : State :=
  let f := run.frame + 1 + i
  let mine := (grpIndex d s.pkg).getD 0
  if s.frame < f then putItem (presentItem s tile i k run elems) tile .rl i (.waitingRound f) []
  else endItem (putItem s tile .rl i (.waitingRound f) []) tile i mine ⟨1, 2 ^ mine, [], 0⟩

/-- The source of round `i`, where its elements or bytes are read. -/
def relaySpan (k : CmdKind) (w : Vec) (i : Nat) : Span :=
  let p := cSrc w
  let f := ptrFmt p
  if k = .reduce then
    let a : Int := ptrVa p + 240 * i * codeBits f / 8
    ⟨p, ptrVa p, rowAlign f, a, min 240 (cCount w - 240 * i) * codeBits f / 8⟩
  else ⟨p, ptrVa p, rowAlign f, ptrVa p + 960 * i, min 960 (cCount w - 960 * i)⟩

/-- The status word that a relay command ends with (R352). -/
def relayStatus (run : Run) : List Byte := leBytes 8 (run.absent % 2 ^ 16 * 2 ^ 8 + worstCode run.status)

/-- The next step of a relay command: a round of a live group begins, or after the last round the status is written. -/
def relayStart (s : State) (tile : Nat) (k : CmdKind) (run : Run) : Option State :=
  let w := run.cmd.word
  let i := run.next
  if run.nitems ≤ i ∨ run.fault.isSome then none
  else if relayRounds k w ≤ i then
    if run.items.all fun x => x.stage == .performed then some (putItem s tile .rl i .ready (relayStatus run)) else none
  else match liveGroup s (ctxOf s tile) (cHandle w) with
    | none => some (failItem s tile .rl i ⟨.lapsed, 0, cHandle w, none, false⟩)
    | some d =>
      if k = .bcast then some (joinRound s tile i k run d [])
      else
        let sp := relaySpan k w i
        issueItem s tile .rl i .load [sp] (List.replicate sp.n 0) .reading none

/-- The core whose SRC a broadcast takes: at ROOT, the participating core of lowest tile number, once all have presented. -/
def isSource (s : State) (tile : Nat) (run : Run) (frame : Nat) (d : List Word) : Bool :=
  let key := groupKey s (ctxOf s tile) (cHandle run.cmd.word)
  let ps := s.presents.filter fun p => p.key == key && p.frame == frame
  grpIndex d s.pkg == some (cRoot run.cmd.word) && ps.length == myCores s d && ps.all (fun p => tile ≤ p.tile) &&
    ps.any fun p => p.tile == tile && p.bytes.isEmpty

/-- The bytes of a broadcast's source held by its presentation, and sent on where its frame has begun. -/
def sourceRead (s : State) (tile i : Nat) (run : Run) (d : List Word) (bs : List Byte) : State :=
  let f := run.frame + 1 + i
  let key := groupKey s (ctxOf s tile) (cHandle run.cmd.word)
  let mine (p : Present) : Bool := p.key == key && p.frame == f && p.tile == tile
  let s := { s with presents := lupd mine (fun p => { p with bytes := bs }) s.presents }
  let s := putItem s tile .rl i (.waitingRound f) []
  if f ≤ s.frame then sendPart' s key f d (s.ptb + homePath) else s

/-- A relay command's item moved on. -/
def relayMove (s : State) (tile : Nat) (k : CmdKind) (run : Run) (i : Nat) : Option State :=
  let w := run.cmd.word
  match run.item i with
  | none => none
  | some x =>
    match x.stage with
    | .reading id =>
      match s.req id, liveGroup s (ctxOf s tile) (cHandle w) with
      | some r, some d =>
        if !r.settled then none
        else match r.fault with
          | some f =>
            let t := failItem (dropReq s id) tile .rl i f
            some { t with presents := t.presents.filter fun p => !(p.tile == tile && p.frame == run.frame + 1 + i && p.thread.isNone) }
          | none =>
            let t := dropReq s id
            if k = .reduce then
              let b := codeBits (ptrFmt (cSrc w))
              some (joinRound t tile i k run d ((List.range (8 * r.buf.length / b)).map fun j => elemAt r.buf 0 b j))
            else some (sourceRead t tile i run d r.buf)
      | some r, none =>
        if r.settled then some (failItem (dropReq s id) tile .rl i ⟨.lapsed, 0, cHandle w, none, false⟩) else none
      | none, _ => none
    | .waitingRound f =>
      match liveGroup s (ctxOf s tile) (cHandle w) with
      | some d =>
        if k = .bcast ∧ isSource s tile run f d then
          let sp := relaySpan k w i
          issueItem s tile .rl i .load [sp] (List.replicate sp.n 0) .reading none
        else none
      | none => none
    | .ready | .writing _ => moveItem s tile k run i
    | .sent _ _ | .performed | .failed => none

/-- One step of the event of a relay command. -/
def relayStep (s : State) (tile : Nat) (k : CmdKind) (x : EStep) : Option State :=
  match x with
  | .start => startEvent s tile k
  | .startItem =>
    match runOf s tile .rl with
    | some r => if kindOf r.cmd.word = some k ∧ !(s.ctx (ctxOf s tile)).ending then relayStart s tile k r else none
    | none => none
  | .item i =>
    match runOf s tile .rl with
    | some r => if kindOf r.cmd.word = some k then relayMove s tile k r i else none
    | none => none

def execRlReduce (tile : Nat) (e : EStep) (s : State) : Host.Outcome State Fault Refusal :=
  event "RL_REDUCE" s (relayStep s tile .reduce e)
def execRlBcast (tile : Nat) (e : EStep) (s : State) : Host.Outcome State Fault Refusal :=
  event "RL_BCAST" s (relayStep s tile .bcast e)

/-! ## Gateway cores (R53, R193) -/

/-- The block a gateway core forms of its contributing blocks: the exact sum, requantised (R53); poisoned blocks poison
it. -/
def gatewayBlock (c : BFmt) (blocks : List Vec) : Vec × BitVec 8 :=
  match blocks with
  | [] => (0, 0)
  | _ =>
    let el (i : Nat) : X := (blocks.drop 1).foldl (fun a b => addX a (blockVal c b i)) (blockVal c (blocks.headD 0) i)
    let r := quantRule c.fmtCode ((List.range 16).map el)
    (mkBlock c r.1 r.2.1, blocks.foldl (fun f b => f ||| ternBad c b) r.2.2)

/-- A packet's payload as blocks of 64 bytes. -/
def payloadBlocks (b : List Byte) : List Vec :=
  (List.range ((b.length + 63) / 64)).map fun i => vecOf ((b.drop (64 * i)).take 64)

/-- What a gateway core has received in one in-slot of one route, in order. The blocks that contribute to one of R53 are those of
all the packets of one in-slot of one route, each payload cut into register blocks of 64 bytes (DESIGN CHOICE, log entry
46). -/
def gateMates (s : State) (g : GateIn) : List GateIn :=
  s.gate.filter fun x => x.core == g.core && x.slot == g.slot && x.ctx == g.ctx && x.handle == g.handle

/-- The block format of the program that the Crown has loaded into a gateway core (R193; free value, log entry 46). -/
def gatewayFormat (core : Nat) : BFmt := [.i8, .fp8a, .fp8b, .i4, .tern].getD (Config.gatewayProgram core % 5) .i8

/-- The blocks that a gateway core sums with what it holds of one in-slot. -/
def gateBlocks (s : State) (g : GateIn) : List Vec := ((gateMates s g).map fun x => payloadBlocks x.pkt.payload).flatten

/-- What a gateway core has received may go on: its in-slot is over; and where it is delivered here, 4 slots and the path to its
home have passed since (R185, R193, R377). -/
def gateDue (s : State) (g : GateIn) : Bool :=
  if g.fwd ≤ 11 then decide (g.slot < s.ptb) else decide (g.slot + gatewayShift + homePath ≤ s.ptb)

/-- A gateway core's step: the blocks of the beats it received in an in-slot are summed and requantised in the format of its
program, and its flags raised. -/
def gatewaySum (s : State) (port : Nat) (code : BFmt) (blocks : List Vec) : Option (GateIn × Packet × State) :=
  match s.gate.find? fun g =>
    g.core / 4 == port && gateDue s g && code == gatewayFormat g.core && blocks == gateBlocks s g && !blocks.isEmpty with
  | none => none
  | some g =>
    let r := gatewayBlock code blocks
    some (g, sealed { g.pkt with payload := vecBytes r.1, len := 2 }, { s with
      gate := s.gate.filter fun x => !(gateMates s g).contains x
      gateFlags := tset s.gateFlags g.core (tget s.gateFlags g.core 0 ||| r.2) })

end Sys2Proof.Machine
end

