-- ==== Sys2Proof/Machine/Fatal.lean ====
section
/-! DEFINITION. Fatal errors and the dump (spec/09_recovery.md R219, Table 9-9). -/

namespace Sys2Proof.Machine

/-- Bytes written to host memory. -/
def hostWrite (s : State) (a : Nat) (bs : List Byte) : State := { s with hostMem := writeBytes s.hostMem a bs }

/-- Launches not yet reported, in the order of their numbers. -/
def unreported (s : State) : List Launch := (s.launches.filter fun l => l.2.state != .ended).map (·.2)

/-- One entry of the list after the dump header: context and TAG, then the DONE address (R219 gives the three and their
16 bytes; their places are a DESIGN CHOICE, log entry 17). -/
def dumpEntry (l : Launch) : List Byte := leBytes 4 l.ctx ++ leBytes 4 l.tag ++ leBytes 8 (pDone l.payload).toNat

/-- The dump header (Table 9-9). -/
def dumpHeader (cause time len trunc n : Nat) : List Byte :=
  leBytes 4 0x504D5544 ++ leBytes 4 cause ++ leBytes 8 time ++ leBytes 8 len ++ leBytes 8 trunc ++ leBytes 8 n

/-- Free bytes, drawn one after another. -/
def freeBytes (from' n : Nat) : List Byte := (List.range n).map fun i => (Config.freeWord (from' + i)).truncate 8

/-- R219: the package stops. For causes 3 to 5 the cores' state is streamed to the registered range, whose form the spec
does not give (free values, log entry 17), and the header is written last with the unreported launches after it, cut
to the range; for causes 1 and 2 the header alone. The physical function's interrupt is raised. -/
def fatalError (s : State) (cause : Nat) : State :=
  let s' : State := { s with fatal := some cause, agenda := [], pfIrqs := s.pfIrqs + 1 }
  match s.dump with
  | none => s'
  | some d =>
    if cause ≤ 2 then hostWrite s' d.addr ((dumpHeader cause s.ptb 0x28 0 0).take d.size)
    else
      let ls := unreported s
      let list := (ls.map dumpEntry).flatten
      let used := 0x28 + list.length
      let room := d.size - used
      let n := min room (Config.freeWord s.free).toNat
      let trunc := (Config.freeWord (s.free + 1)).toNat
      let bytes := dumpHeader cause s.ptb (min d.size (used + n)) trunc ls.length ++ list ++ freeBytes (s.free + 2) n
      hostWrite { s' with free := s.free + 2 + n } d.addr (bytes.take d.size)

/-! ## Firmware SRAM and the lock (R161, R162) -/

/-- The physical address of an offset of firmware SRAM. -/
def fwAddr (s : State) (off : Nat) : Nat := s.pkg * 2 ^ 44 + Config.fwBase + off

/-- Fields of a BOOTDB or FWLOCK word (Table 7-8). -/
def dbSize (w : Word) : Nat := bitsOf w.toNat 42 32
def dbBase (w : Word) : Nat := w.toNat % 2 ^ 11

/-- FWLOCK.LOCK. -/
def fwLocked (s : State) : Bool := s.boot.fwlock.getLsbD 63
/-- The carve-out: offset and bytes. -/
def carveOff (s : State) : Nat := dbBase s.boot.fwlock * 65536
def carveLen (s : State) : Nat := dbSize s.boot.fwlock * 65536

/-- `n` bytes of firmware SRAM from an offset. -/
def fwBytesAt (s : State) (off n : Nat) : List Byte := readBytes s.mem (fwAddr s off) n

/-- Bytes of firmware SRAM set to zero. -/
def fwZero (s : State) (off n : Nat) : State :=
  { s with mem := s.mem.filter fun c => !(fwAddr s off ≤ c.1 && c.1 < fwAddr s off + n) }

/-- An offset of the page tables, which only the Crown changes, wherever the carve-out lies (R146; log entry 3). -/
def inTables (s : State) (off : Nat) : Bool := decide (Config.supOff - s.tableNext * 4096 ≤ off) && decide (off < Config.supOff)

/-- An offset that is kept from every agent but the Crown and the Brims: those under the lock (R162), and the page tables. -/
def fwBlocked (s : State) (off : Nat) : Bool :=
  (fwLocked s && carveOff s ≤ off && off < carveOff s + carveLen s) || inTables s off

/-- One blocked access more, saturating. -/
def countViol (s : State) : State :=
  { s with boot := { s.boot with viol := if s.boot.viol = BitVec.allOnes 32 then s.boot.viol else s.boot.viol + 1 } }

end Sys2Proof.Machine
end

