-- ==== Sys2Proof/Machine/Hatband.lean ====
section
/-! DEFINITION. The Hatband (spec/08_isolation_time.md R175 to R187, spec/09 R214, spec/07 R157, R159): frames, slot
tables, departures, the answers of drawers and peers, packets of other packages, and retraining. -/

namespace Sys2Proof.Machine

/-! ## Frames (R177, R181, R187, R325) -/

/-- Shadow tables armed for a frame that has come become active (R181). -/
def activate (frame : Nat) (p : Port) : Port :=
  let due := p.shadow.filter fun x => x.2.1 ≤ frame
  due.foldl (fun p x => if x.1 = 0 then { p with outTab := x.2.2 } else { p with inTab := x.2.2 })
    { p with shadow := p.shadow.filter fun x => !decide (x.2.1 ≤ frame) }

/-- A slot's owner is a route or group hold of this package that has lapsed, or a group that is not formed (R181,
R185, R325). -/
def ownerGone (s : State) (o : SlotOwner) : Bool :=
  match o with
  | .route c h _ =>
    match s.hold c (h % 4096) with
    | some x =>
      match x.kind with
      | .route _ _ _ _ => x.reuse.toNat == h / 4096 && !x.live
      | .group _ f => x.reuse.toNat == h / 4096 && (!x.live || !f)
      | _ => false
    | none => false
  | _ => false

/-- Lapsed routes and groups whose slots have returned to idle are free (R28). -/
def freeLapsed (s : State) : State :=
  let f (h : Nat × Hold) : Nat × Hold :=
    match h.2.kind with
    | .route _ _ _ _ | .group _ _ => if h.2.live || !h.2.issued then h else (h.1, { h.2 with free := true })
    | _ => h
  { s with ctxs := s.ctxs.map fun c => (c.1, { c.2 with holds := c.2.holds.map f }) }

/-- R325: whether each live group is formed at this boundary, which the other members' holds decide: a free value for
each (log entry 18). A group that has just been formed takes its slots. -/
def formGroups (s : State) : State :=
  let live : List (Nat × Nat × List Word × Bool) := (s.ctxs.map fun c => c.2.holds.filterMap fun h =>
    match h.2.kind with
    | .group d f => if h.2.live then some (c.1, h.1, d, f) else none
    | _ => none).flatten
  live.foldl (fun s x =>
    let now := (Config.freeWord s.free).getLsbD 0
    let h := holdAt s x.1 x.2.1
    let t := { (s.setHold x.1 x.2.1 { h with kind := .group x.2.2.1 now }) with free := s.free + 1 }
    if now && !x.2.2.2 then placeGroup t x.1 (handleOf h x.2.1) x.2.2.1 else t) s

/-- The rings of a fibre's 32 wavelengths that are measured beyond their band at a boundary, by a bit for each. -/
def ringsOut (w : Nat) : Nat := ((List.range 32).filter fun i => bitOf w i).length

/-- R187: a ring's wavelength moves to a spare of its fibre. -/
def moveRing (q : Port) (fibre : Nat) : Port :=
  { q with spares := q.spares.setIfInBounds fibre (q.spares.toArray.getD fibre 0 - 1), spare := q.spare + 1 }

/-- R187: `n` rings of a fibre are beyond their band: each that finds a spare moves to it at the next boundary; where none is left
for one, the port is to retrain. -/
def ringsDrift (s : State) (q : Port) (fibre n : Nat) : Port :=
  let left := q.spares.toArray.getD fibre 0
  let q := { q with drift := q.drift ++ List.replicate (min n left) fibre }
  if left < n && q.frameErrs < 16 then { q with frameErrs := 16, errAt := s.ptb } else q

/-- R187: at a boundary the rings measured at the last one have their wavelengths moved, and every ring of every fibre of a port in
use is measured; which are beyond their band is a free value (log entry 18). -/
def spareRings (s : State) : State :=
  s.ports.foldl (fun s p =>
    let q := s.port p.1
    if q.role == .unused || !q.trained then s
    else
      let q := q.drift.foldl moveRing { q with drift := [] }
      { s.setPort p.1 ((List.range 8).foldl (fun q f => ringsDrift s q f (ringsOut (Config.freeWord (s.free + f)).toNat)) q) with
        free := s.free + 8 }) s

/-- A message, a packet or an access of a packet on this package carries a key (R160). -/
def keyInFlight (s : State) (key : Nat) : Bool :=
  s.net.any (fun m => hdrCap (bodyHeader m.body) == key) ||
    s.cores.any (fun c => c.2.inbox.any fun b => hdrCap (bodyHeader b) == key) ||
    s.ports.any (fun p => p.2.fifo.any fun o => o.pkt.cap == key) || s.flights.any (fun f => f.pkt.cap == key) ||
    s.gate.any (fun g => g.pkt.cap == key) ||
    s.reqs.any fun r => match r.owner with | .peer _ _ _ _ cap => cap == key | _ => false

/-- R160: at a frame boundary each freed key that nothing carries is clean from this frame on; one full frame later it
may be given again. Whether another package still carries it is a free value, for each key (log entry 54). -/
def watchKeys (s : State) : State :=
  { s with
    free := s.free + s.freedKeys.length
    freedKeys := s.freedKeys.mapIdx fun i k =>
      (k.1, if keyInFlight s k.1 || (Config.freeWord (s.free + i)).getLsbD 0 then 0 else if k.2 = 0 then s.frame + 1 else k.2) }

/-- FRAME_BOUNDARY (R177): a new frame begins: groups formed, armed tables active, slots of lapsed owners idle, rings
moved to spares, and the frame's rounds opened. -/
def frameStart (s : State) : Option State :=
  if !s.tbSet ∨ s.ptb / 2048 ≤ s.frame then none
  else
    let n := s.ptb / 2048
    let s := formGroups { s with frame := n - 1 }
    let s := { s with
      frame := n
      ports := s.ports.map fun p =>
        (p.1, { dropOwner (ownerGone s) (activate n p.2) with frameErrs := if p.2.frameErrs < 16 then 0 else p.2.frameErrs }) }
    some (watchKeys (openRounds (spareRings (freeLapsed s))))

def execFrameBoundary (s : State) : Host.Outcome State Fault Refusal := event "FRAME_BOUNDARY" s (frameStart s)

/-- A slot table that the Crown may arm (R180, R182): each index once and below 2,048, reserved values unused, and at
least 64 slots for each die's pool, and on a peer port 64 for transit. 16 added to FWD says that the slot's route names
gateway processing, for which Table 8-4 has no bit (log entry 46). -/
def tableOk (role : Role) (t : List (Nat × SlotOwner)) : Bool :=
  let count (f : SlotOwner → Bool) : Nat := (t.filter fun e => f e.2).length
  (t.all fun e => e.1 < 2048 && (match e.2 with
    | .pool d => d < 4
    | .route c h f => c ≤ 16 && h < 65536 && f < 32 && (f % 16 ≤ 11 || f % 16 == 15)
    | _ => true)) &&
    (t.map (·.1)).eraseDups.length == t.length && (List.range 4).all (fun d => 64 ≤ count (· == .pool d)) &&
    (role != .peer || decide (64 ≤ count (· == .transit)))

/-- R184: on a drawer port the Crown gives every paired in-slot the owner of its out-slot: the table of the other direction
that goes with one of them. -/
def pairTable (p : Port) (dir : Dir) (entries : List (Nat × SlotOwner)) : List (Nat × SlotOwner) :=
  let shift := match dir with | .outward => p.delay | .inward => 2048 - p.delay % 2048
  entries.map fun e => ((e.1 + shift) % 2048, e.2)

/-- SLOT_TABLE_ARM (R181): the Crown arms a port's shadow table for a later frame; on a drawer port both tables, paired by
its D. -/
def execSlotTableArm (port : Nat) (dir : Dir) (entries : List (Nat × SlotOwner)) (frame : Nat) (s : State) :
    Host.Outcome State Fault Refusal :=
  let p := s.port port
  let other : Dir := match dir with | .outward => .inward | .inward => .outward
  event "SLOT_TABLE_ARM" s
    (if port < 12 ∧ p.role ≠ .unused ∧ s.frame < frame ∧ tableOk p.role entries then
      some (s.setPort port (if p.role = .drawer then (p.arm dir frame entries).arm other frame (pairTable p dir entries)
        else p.arm dir frame entries))
    else none)

/-! ## Departures (R178, R180, R184) -/

/-- Beats of a read's answer: a drawer line has four, an access one. -/
def replyBeats (s : State) (p : Packet) : Nat :=
  if s.dies.any fun d => d.2.fills.any fun f => f.txid == p.txid && !f.back && f.addr * 128 == p.addr then 4 else 1

/-- Beats that a packet's answer takes in the in-slot paired with this out-slot, if the packet ends in it (R184). -/
def answerBeats (s : State) (o : OutPacket) (room : Nat) : Nat :=
  if o.pkt.type = 0x01 then 1 + replyBeats s o.pkt
  else if o.left ≤ room ∧ (o.pkt.type = 0x03 ∨ o.pkt.type = 0x09) then 1 else 0

/-- The part of an access that was sent with a tag on a port. -/
def sentPart (s : State) (port txid : Nat) : Option (Req × Nat × Part) :=
  s.reqs.findSome? fun r =>
    match idxOf (fun p => p.stage == .sent txid port || p.stage == .asked txid port) r.parts 0 with
    | some i => (r.parts[i]?).map fun p => (r, i, p)
    | none => none

/-- The engine item of a route packet: tile, item. -/
def sentItem (s : State) (port txid : Nat) : Option (Nat × Nat) :=
  s.cores.findSome? fun c => match c.2.cp.run with
    | some r => (r.items.find? fun i => i.stage == .sent txid port).map fun i => (c.1, i.idx)
    | none => none

/-- A packet whose answer is awaited (R214): a request, a write, a message, route data, a reservation's packet to its home; an
arrival at a pod barrier is kept until it has reached the far port. -/
def awaitsAnswer (s : State) (p : Packet) : Bool :=
  p.srcPkg == s.pkg && (p.type == 0x01 || p.type == 0x03 || p.type == 0x0C ||
    (p.type == 0x08 && s.net.any fun m => m.txid == some p.txid) ||
    (p.type == 0x09 && (List.range 12).any fun port => (sentItem s port p.txid).isSome) ||
    (p.type == 0x05 && pkgOf p.addr == p.dstPkg))

/-- Packets of one owner take the beats of an out-slot in FIFO order (R178, R180): the FIFO that is left, and the packets
that have departed whole. `room` counts free beats, `ans` free beats of the paired in-slot of a drawer port. -/
def fillSlot (s : State) (owner : SlotOwner) : List OutPacket → Nat → Nat → List OutPacket × List Packet
  | [], _, _ => ([], [])
  | o :: r, room, ans =>
    if o.owner ≠ owner then
      let x := fillSlot s owner r room ans
      (o :: x.1, x.2)
    else if room = 0 ∨ s.ptb < o.after ∨ ans < answerBeats s o room then (o :: r, [])
    else if o.left ≤ room then
      let x := fillSlot s owner r (room - o.left) (ans - answerBeats s o room)
      (x.1, o.pkt :: x.2)
    else ({ o with left := o.left - room } :: r, [])

/-- OUT_SLOT_DEPARTURE (R176 to R180, R184): the out-slot now under way carries up to 32 beats of its owner's packets,
once; where it empties a pool FIFO, a prefetch that waits enters (R191). -/
def depart (s : State) (port : Nat) : Option State :=
  let p := s.port port
  if !carries s port || decide (s.ptb < p.slotDone) then none
  else match p.outTab.find? fun e => e.1 == s.slotNow with
    | none => none
    | some (_, owner) =>
      let x := fillSlot s owner p.fifo 32 (if p.role == .drawer then 32 else 4096)
      if x.1 = p.fifo then none
      else
        let s := s.setPort port { p with fifo := x.1, slotDone := s.ptb + 1 }
        let old (f : Flight) : Bool := f.pkt.type == 0x0C && decide (f.slot + (s.port f.port).flight < s.ptb)
        let s := { s with flights := s.flights.filter (fun f => !old f) ++
          (x.2.filter (awaitsAnswer s)).map fun k => ⟨port, s.ptb, k⟩ }
        some (match owner with | .pool die => pumpPrefetch s die | _ => s)

def execOutSlotDeparture (port : Nat) (s : State) : Host.Outcome State Fault Refusal :=
  event "OUT_SLOT_DEPARTURE" s (depart s port)

/-! ## Answers (R184, R188 to R190, R377) -/

/-- The bytes of a part from an aligned block of a reply. -/
def partFrom (r : Req) (p : Part) (payload : List Byte) : List Byte :=
  p.moves.foldl (fun b m => b.set m.2 (payload.getD (m.1 % 32) 0)) r.buf

/-- The flight a packet answers: the oldest with its tag whose destination is the packet's source. -/
def flightOf (s : State) (p : Packet) : Option Flight :=
  s.flights.find? fun f => f.pkt.txid == p.txid && f.pkt.dstPkg == p.srcPkg

/-- An answer reaches its tile now, over the path from the port (R377): from a drawer in the order of the out-slots, the
paired in-slot D slots on being its owner's (R180, R184); from another package in a pool's in-slot, after the flights
there and back. A port that has stopped carries nothing. -/
def answerDue (s : State) (f : Flight) : Bool :=
  let q := s.port f.port
  carries s f.port &&
    (if q.role == .drawer then
      ((s.flights.find? fun g => g.port == f.port && g.pkt.type != 0x0C) == some f) &&
        sameOwner (inOwner s f.port (f.slot + q.delay)) (tget q.outTab (f.slot % 2048) .idle) &&
        decide (f.slot + q.delay + homePath ≤ s.ptb)
    else pooled (inOwner s f.port (s.ptb - homePath)) && decide (f.slot + 2 * q.flight + homePath ≤ s.ptb))

def dropFlight (s : State) (f : Flight) : State := { s with flights := s.flights.erase f }

/-- The line that leaves a full set of eight: the least recently used, which stands last (R189). -/
def victim (carve line : Nat) (cache : List Line) : Option Line :=
  let set := cache.filter fun l => cacheSet carve l.addr == cacheSet carve line
  if set.length < 8 then none else set.getLast?

/-- A filled line enters its set (R189), and a dirty one that leaves waits for its write-back; a prefetched line that leaves
without a demand hit counts (R225). -/
def installLine (s : State) (die line : Nat) (prefetch : Bool) : State :=
  let d := s.die die
  let l : Line := ⟨line, false, prefetch, false⟩
  match victim d.carve line d.cache with
  | none => s.setDie die { d with cache := l :: d.cache }
  | some v =>
    let unused := v.prefetch && !v.used
    s.setDie die { d with
      cache := l :: d.cache.filter fun x => x.addr != v.addr
      backs := if v.dirty then d.backs ++ [v.addr] else d.backs
      pfCounts := if unused then d.pfCounts.set 3 (d.pfCounts[3] + 1) else d.pfCounts }

/-- The accesses that wait behind a fill of a line. -/
def fillWaiters (s : State) (line : Nat) : List (Nat × Nat) :=
  (s.reqs.map fun r => (r.parts.mapIdx fun i p => (i, p)).filterMap fun x =>
    if x.2.stage = .filling line then some (r.id, x.1) else none).flatten

/-- The queued words of a line. -/
def lineWords (s : State) (line : Nat) : List Nat :=
  ((s.reqs.map fun r => (r.parts.filter fun p => p.ticket.isSome).map Part.words).flatten.flatten.filter fun w =>
    w / 16 == line).eraseDups

/-- A write-back of a dirty line joins its pool, a grant of the fill class having read it (R171, R189); what has waited for the line
meanwhile has it fetched behind. -/
def payBack (s : State) (die line : Nat) : State :=
  let home := drawerHome (line * 128)
  let s := takeGrant (s.updDie die fun d => { d with backs := d.backs.erase line }) home 4
  match windowPort s (line * 128) with
  | none => s
  | some port =>
    let x := s.txid
    let s := s.updDie die fun d => { d with fills := d.fills ++ [⟨line, x, port, false, false, true⟩] }
    let s := sendPacket s port (.pool die) (mkPacket s 0x03 0 s.pkg x home (line * 128) (readBytes s.mem (line * 128) 128))
    if (fillWaiters s line).isEmpty && (lineWords s line).isEmpty then s else requestLine s die line port false

/-- A fill has come: with a carve the line is installed and the accesses behind it performed; without one its words are at the home
for what is queued on them, which is served (R190). -/
def fillCome (s : State) (die : Nat) (f : Fill) : State :=
  let s := s.updDie die fun d => { d with fills := d.fills.filter fun g => g.txid != f.txid }
  let home := drawerHome (f.addr * 128)
  let s := if (s.die die).carve = 0 then s.updDie die fun d => { d with arrived := d.arrived ++ [f.addr] }
    else installLine s die f.addr (f.prefetch && !f.demanded)
  let s := (fillWaiters s f.addr).foldl (fun s x =>
    match s.req x.1 with
    | none => s
    | some r =>
      match r.parts[x.2]? with
      | none => s
      | some p =>
        -- a thread that has taken the word meanwhile holds the others back (R89)
        if mustQueue s home r p then enqueue s home r x.2
        else serveAfter (perform (touchPart s r p) home r x.2 p) home p) s
  (lineWords s f.addr).foldl (fun s w => serve s home w) s

/-- An access's answer with data arrives at its requester; a replayable launch reads its shadow of the page (R212). -/
def partRead (s : State) (r : Req) (i : Nat) (p : Part) (payload : List Byte) : State :=
  if pkgOf p.pa ≠ s.pkg then setStage (setBuf s r.id (partFrom r p payload)) r.id i .done
  else if loadPoison s r.lid p then failPart s r i (uncorrAt p)
  else setStage (setBuf s r.id (readPart s r p)) r.id i .done

/-- A message that was diverted at its destination package (R158). -/
def messageDiverted (s : State) (m : Msg) : State :=
  { s.updCtx m.ctx (fun c => { c with contained := c.contained + 1 }) with
    net := s.net.erase m
    reports := s.reports ++ [(m.key, m.lid, m.born, bodyHeader m.body)] }

/-- CONTAIN as the fault of an access or an item. -/
def contained (va : Nat) : FaultRec := ⟨.contain, 0, va, none, false⟩

/-- The destination address of a route packet's item. -/
def routeVa (s : State) (tile i : Nat) : Nat :=
  match runOf s tile .cp with | some r => ptrVa (cDst r.cmd.word) + 4096 * i | none => 0

/-- The STALL of a port (R214). -/
def stallOf (port va : Nat) : FaultRec := ⟨.stall, port, va, none, false⟩

/-- A message that a link failure keeps from being placed (R214). -/
def messageStalled (s : State) (port : Nat) (m : Msg) : State :=
  let t : State := { s with net := s.net.erase m }
  let tile := tileOf m.key
  let add (k : Nat) : State := t.updThr k fun x => { x with stalls := x.stalls ++ [(port, bodyHeader m.body)] }
  let l := t.launch m.lid
  if l.state = .saved then
    -- into the image of the core that sent it
    t.setLaunch m.lid { l with saved := l.saved.map fun c =>
      if l.old[c.index]? = some tile then
        let sender := c.threads.any fun x => x.1 == slotOf m.key && x.2.live && x.2.born == m.born
        let slot := if sender then slotOf m.key else 0
        { c with threads := c.threads.map fun x =>
          (x.1, if x.1 = slot ∧ x.2.live then { x.2 with stalls := x.2.stalls ++ [(port, bodyHeader m.body)] } else x.2) }
      else c }
  else if lidOf t tile ≠ m.lid then t
  else if (t.thr m.key).live ∧ (t.thr m.key).born = m.born then add m.key
  else if (t.thr (keyOf tile 0)).live then add (keyOf tile 0) else t

/-- The number of a packet that tells a word's home of an end or a lapse there (log entry 75). -/
def toldNumber (p : Packet) : Option Nat :=
  match p.stamp with
  | some (n, false) => if p.type = 0x05 then some n else none
  | _ => none

/-- A packet of a die's pool that has failed joins its FIFO again. -/
def resend (s : State) (port die : Nat) (p : Packet) : State :=
  s.updPort port fun q => { q with fifo := q.fifo ++ [⟨.pool die, p, s.ptb, 1 + p.len⟩] }

/-- R214: the fate of what waits on a packet that failed on a port; a failed write-back is sent again, and a note to a word's home
(log entry 75). -/
def flightFails (s : State) (f : Flight) : State :=
  let s := dropFlight s f
  if (toldNumber f.pkt).isSome then resend s f.port (dieOf f.pkt.srcTile) f.pkt else
  match sentPart s f.port f.pkt.txid with
  | some (r, i, p) => failPart s r i (stallOf f.port p.va)
  | none =>
    match s.net.find? fun m => m.txid == some f.pkt.txid && f.pkt.type == 0x08 with
    | some m => messageStalled s f.port m
    | none =>
      match sentItem s f.port f.pkt.txid with
      | some (tile, i) => failItem s tile .cp i (stallOf f.port (routeVa s tile i))
      | none =>
        match s.dies.findSome? fun d => (d.2.fills.find? fun g => g.txid == f.pkt.txid).map fun g => (d.1, g) with
        | none => s
        | some (die, g) =>
          if g.back then resend s f.port die f.pkt
          else
            let s := s.updDie die fun d => { d with fills := d.fills.filter fun h => h.txid != g.txid }
            let s := (fillWaiters s g.addr).foldl (fun s x =>
              match s.req x.1 with
              | some r => (match r.parts[x.2]? with | some p => failPart s r x.2 (stallOf f.port p.va) | none => s)
              | none => s) s
            -- queued requests whose word was being fetched
            (s.reqs.foldl (fun s r => (r.parts.mapIdx fun i p => (i, p)).foldl (fun s x =>
              if x.2.ticket.isSome ∧ x.2.words.any (fun w => w / 16 == g.addr) then
                match s.req r.id with
                | some q => failPart s q x.1 (stallOf f.port x.2.va)
                | none => s
              else s) s) s)

/-- What comes in an answer's place (R179): a packet that the port discards and counts; or TYPE 0x00, which stands for no
answer at all, the request having been lost at the far port (log entry 78). Either is a link failure. -/
def answerLost (s : State) (p : Packet) (f : Flight) (go : Option State) : Option State :=
  if p.type = 0x00 then some (flightFails s f)
  else if badPacket p then some (flightFails (countError s f.port) f)
  else if !wholePacket p then none else go

/-- What a read must return from a drawer: the bytes as the drawer holds them (R184). -/
def drawerData (s : State) (f : Flight) : List Byte :=
  if replyBeats s f.pkt = 4 then readBytes s.mem f.pkt.addr 128 else readBytes s.mem (f.pkt.addr / 32 * 32) 32

/-- The in-slot time of a packet that makes its event now: one for a tile of this package has crossed the path from its
port (R377); one to be discarded or forwarded is met at the port. -/
def inSlotTime (s : State) (p : Packet) : Nat :=
  if !badPacket p && p.dstPkg == s.pkg && p.type != 0x0C then s.ptb - homePath else s.ptb

/-- A packet that comes in from another package's direction, in an in-slot of a pool of the peer port toward it (R180, R182):
the port. One of an unassigned TYPE makes any such event (R179). -/
def arrives (s : State) (p : Packet) (type : Nat) : Option Nat :=
  if (p.type ≠ type ∧ assignedType p.type) ∨ p.srcPkg = s.pkg ∨ (!badPacket p ∧ !wholePacket p) then none
  else match portFor s p.srcPkg with
    | some port =>
      if (s.port port).role == .peer && carries s port && pooled (inOwner s port (inSlotTime s p)) then some port else none
    | none => none

/-- What every arrival passes (R179, R182): a packet that the port discards is counted; one for another package is
forwarded in the transit slots of the port that the routing table names, touching no tile. The model discards and counts as well
one whose LEN is not what Table 8-3 gives its TYPE, and one for a package that the routing table does not name (DESIGN CHOICE, log
entry 111). -/
def received' (s : State) (p : Packet) (port : Nat) (lenOk : Bool) (here : State) : Option State :=
  if badPacket p || !lenOk then some (countError s port)
  else if p.dstPkg = s.pkg then some here
  else match portFor s p.dstPkg with
    | some out => some (sendAfter s out .transit p s.ptb)
    | none => some (countError s port)

/-- An answer for another package on its way through this one (R182). -/
def answerTransit (s : State) (p : Packet) (type : Nat) : Option State :=
  match arrives s p type with
  | some port => received' s p port true s
  | none => none

/-- READ_REPLY (R184, R189, R190): a reply, or a CONTAIN reply with LEN 0, reaches what waits for it, or goes on to its
package. -/
def readAnswer (s : State) (p : Packet) : Option State :=
  if p.type ≠ 0x02 ∧ assignedType p.type then none
  else if p.dstPkg ≠ s.pkg then answerTransit s p 0x02
  else match flightOf s p with
    | none => none
    | some f =>
      let drawer := (s.port f.port).role == .drawer
      if !answerDue s f then none
      else answerLost s p f <|
        if drawer && (f.pkt.type != 0x01 || p.payload != drawerData s f) then none
        else
        let t := dropFlight s f
        match s.dies.findSome? fun d => (d.2.fills.find? fun g => g.txid == p.txid && !g.back && f.pkt.type == 0x01
            && g.addr * 128 == f.pkt.addr).map fun g => (d.1, g) with
        | some (die, g) =>
          let home := drawerHome (g.addr * 128)
          if (s.die die).carve = 0 then some (fillCome t die g)
          else if classTurn s home 4 then some (fillCome (takeGrant t home 4) die g)
          else none
        | none =>
          match sentPart s f.port p.txid with
          | some (r, i, q) =>
            if p.len = 0 then some (failPart t r i (contained q.va))
            else if f.pkt.type = 0x01 ∧ p.payload.length = 32 then some (partRead t r i q p.payload)
            else none
          | none =>
            if p.len ≠ 0 then none
            else match s.net.find? fun m => m.txid == some p.txid && f.pkt.type == 0x08 with
              | some m => some (messageDiverted t m)
              | none =>
                match sentItem s f.port p.txid with
                | some (tile, i) => some (failItem t tile .cp i (contained (routeVa s tile i)))
                | none => some t

def execReadReply (p : Packet) (s : State) : Host.Outcome State Fault Refusal := event "READ_REPLY" s (readAnswer s p)

/-- A part's bytes as a write packet leaves them at a drawer: the packet's bits that it writes, the others as they were. -/
def landed (s : State) (lid : Nat) (k : Packet) (p : Part) : List Byte :=
  p.moves.map fun m =>
    let i := m.1 - k.addr
    let keep : Byte := if k.keep.isEmpty then 0xFF else k.keep.getD i 0
    (readAt s lid m.1 &&& ~~~keep) ||| (k.payload.getD i 0 &&& keep)

/-- What a word's home has done with a note to it: the index of a lock that has lapsed is free (R111), and a request that it was to
withdraw has no answer any more (log entry 75). -/
def toldDone (s : State) (p : Packet) (n : Nat) : State :=
  let mine (f : Flight) : Bool := f.pkt.type == 0x05 && f.pkt.dstPkg == p.dstPkg &&
    (if n < endNumber then f.pkt.stamp == some (n, true) else f.pkt.stamp.isNone && withdrawNumber f.pkt.txid == n)
  let s : State := { s with flights := s.flights.filter fun f => !mine f }
  if n < endNumber then
    match s.hold (n / 4096) (n % 4096) with
    | some h => if h.live || h.lapsing.isEmpty then s else s.setHold (n / 4096) (n % 4096) { h with free := true, lapsing := [] }
    | none => s
  else s

/-- A write that a drawer or a peer has performed: the drawer's bytes are those of this package's memory. -/
def writeDoneAt (s : State) (f : Flight) : State :=
  match toldNumber f.pkt with
  | some n => toldDone s f.pkt n
  | none =>
  match sentPart s f.port f.pkt.txid with
  | some (r, i, p) =>
    if pkgOf p.pa ≠ s.pkg then setStage s r.id i .done
    else if storePoison s r.lid p then failPart s r i (uncorrAt p)
    else setStage (writePart s r.lid p (landed s r.lid f.pkt p)) r.id i .done
  | none =>
    match s.net.find? fun m => m.txid == some f.pkt.txid && f.pkt.type == 0x08 with
    | some m => { s with net := s.net.erase m }
    | none =>
      match sentItem s f.port f.pkt.txid with
      | some (tile, i) =>
        let t := if f.pkt.dstPkg = s.pkg then
            let words := (List.range (f.pkt.payload.length / 8)).map fun k => f.pkt.addr / 8 + k
            { s with mem := writeBytes s.mem f.pkt.addr f.pkt.payload
                     poison := s.poison.filter fun w => !words.contains w }
          else s
        putItem t tile .cp i .performed []
      | none => { s with dies := s.dies.map fun d =>
          (d.1, { d.2 with fills := d.2.fills.filter fun g => !(g.txid == f.pkt.txid && g.back) }) }

/-- WRITE_STATUS (R78, R184): a write's status, a message's placement or a route packet's status arrives, or goes on to its
package. -/
def statusCome (s : State) (p : Packet) : Option State :=
  if (p.type ≠ 0x04 ∧ assignedType p.type) ∨ (!badPacket p ∧ p.len ≠ 0) then none
  else if p.dstPkg ≠ s.pkg then answerTransit s p 0x04
  else match flightOf s p with
    | none => none
    | some f =>
      if !answerDue s f ∨ f.pkt.type = 0x01 then none
      else answerLost s p f (some (writeDoneAt (dropFlight s f) f))

def execWriteStatus (p : Packet) (s : State) : Host.Outcome State Fault Refusal := event "WRITE_STATUS" s (statusCome s p)

/-! ## Packets of other packages (R157, R159, R182) -/

/-- The context whose live range, or whose pages placed at creation, hold a physical address. -/
def pageOwner (s : State) (pa : Nat) : Option Nat :=
  (s.ctxs.find? fun c => c.2.live && (c.2.image.any (fun i => i.1 ≤ pa && pa < i.1 + i.2) ||
    c.2.holds.any fun h => h.2.live && (match h.2.kind with
      | .range _ _ log _ fs => fs.any fun f => f ≤ pa && pa < f + 2 ^ log
      | _ => false))).map (·.1)

/-- R178: the header beat: the header, the CRC, and bytes 24 to 31 reserved. -/
def headerBeat (p : Packet) : List Byte := headerBytes p ++ leBytes 8 p.crc.toNat ++ List.replicate 8 0

/-- The supervisor queue entry of an access that fails R157 (Table 7-6). The thread slot is not in the packet (free value,
log entry 14). -/
def accessEntry (s : State) (p : Packet) (key : Nat) (owner : Option Nat) : SupEntry where
  body := ((headerBeat p).take 16 ++ p.payload.take 48 ++ List.replicate 48 0).take 64
  time := s.ptb
  reason := if owner.isSome then 2 else 5
  cap := p.cap
  rkey := key
  sslot := (Config.freeWord s.free).toNat % 16
  src := p.srcPkg * 4096 + p.srcTile
  dst := s.pkg * 4096 + (homeTile s p.addr).getD 0
  sctx := 31
  rctx := owner.getD 31

/-- The first byte of each page that a packet's access touches: the aligned block of a read, a write's payload. -/
def pagesTouched (p : Packet) : List Nat :=
  let n := max 1 p.payload.length
  (List.range ((p.addr % 4096 + n - 1) / 4096 + 1)).map fun i => if i = 0 then p.addr else (p.addr / 4096 + i) * 4096

/-- The key a page is checked against (R157, R159). -/
def keyOfPage (s : State) (pa : Nat) : Nat := match pageOwner s pa with | some c => (s.ctx c).pkey.toNat | none => noKey

/-- A page of a context that a packet's capability opens (R157). -/
def opens (s : State) (p : Packet) (pa : Nat) : Bool :=
  (pageOwner s pa).isSome && (p.cap == 0 || p.cap == keyOfPage s pa)

/-- Some byte of an access lies in the locked carve-out of firmware SRAM (R162). -/
def inCarveOut (s : State) (p : Packet) : Bool :=
  (List.range (max 1 p.payload.length)).any fun i =>
    decide (fwAddr s 0 ≤ p.addr + i) && decide (p.addr + i < fwAddr s Config.fwBytes) && fwBlocked s (p.addr + i - fwAddr s 0)

/-- The check of a fabric access at its home: one to the carve-out is blocked, a read answered with all ones and a write
dropped (R162); else every page of it is checked (R157), and it goes on, or the CONTAIN reply is sent and the entry
written. -/
def checked (s : State) (p : Packet) (port : Nat) (go : State) : State :=
  let home := (homeTile s p.addr).getD 0
  let answer (s : State) (type : Nat) (b : List Byte) : State :=
    sendPacket s port (.pool (dieOf home)) (mkPacket s type 0 p.srcPkg p.txid home p.addr b)
  if inCarveOut s p then
    (if p.type = 0x01 then answer (countViol s) 0x02 (List.replicate 32 0xFF)
     else if p.type = 0x05 ∧ p.len = 0 then answer (countViol s) 0x05 (List.replicate 32 0xFF)
     else answer (countViol s) 0x04 [])
  else match (pagesTouched p).find? fun a => !opens s p a with
    | none => go
    | some a => answer (supWrite { s with free := s.free + 1 } (accessEntry s p (keyOfPage s a) (pageOwner s a))) 0x02 []

/-- An access of another package on its way to its home here, to bytes that the place in its buffer goes with. -/
def peerReq (s : State) (p : Packet) (port : Nat) (kind : ReqKind) (a : Nat) (parts : List Part) (buf : List Byte) : Req where
  id := s.nextId
  owner := .peer p.srcPkg p.srcTile p.txid port p.cap
  ctx := (pageOwner s p.addr).getD 0
  lid := 0
  va := a
  rlx := false
  kind := kind
  size := buf.length
  parts := parts
  buf := buf
  fin := .none
  undo := none
  fault := none
  stamp := none
  seq := s.nextId
  last := false

/-- Bytes from an address on, with their places in a buffer: all of them, or those that a packet writes. -/
def bytesFrom (a n : Nat) : List (Nat × Nat × Nat) := (List.range n).map fun i => (a + i, a + i, i)
def keptFrom (p : Packet) : List (Nat × Nat × Nat) :=
  (bytesFrom p.addr p.payload.length).filter fun m => p.keep.isEmpty || p.keep.getD m.2.2 0 != 0

/-- The parts of a write packet: one within a granule, which is a part or a merged entry of its sender and is performed at one
instant (R71, R74, R78); else one for each 32-byte block. -/
def packetParts (p : Packet) : List Part :=
  let ms := keptFrom p
  if ms.all fun m => m.1 / 64 == (ms.headD (0, 0, 0)).1 / 64 then [onePart ms] else blockParts ms

/-- A write packet as the access that it carries: a store of the bits that it keeps (R313). -/
def packetKind (p : Packet) : ReqKind := if p.keep.all fun b => b == 0 || b == 0xFF then .store else .storeMask p.keep

def peerIssue (s : State) (r : Req) : State := { s with reqs := s.reqs ++ [r], nextId := s.nextId + 1 }

/-- READ_REQUEST (R157, R182): another package reads the aligned 32-byte block of an address of this package. -/
def execReadRequest (p : Packet) (s : State) : Host.Outcome State Fault Refusal :=
  event "READ_REQUEST" s
    (match arrives s p 0x01 with
    | none => none
    | some port =>
      let a := p.addr / 32 * 32
      received' s p port (p.len == 0)
        (checked s p port (peerIssue s (peerReq s p port .load a (blockParts (bytesFrom a 32)) (List.replicate 32 0)))))

/-- WRITE_PACKET (R78, R157, R182): another package writes its payload from an address of this package on. -/
def execWritePacket (p : Packet) (s : State) : Host.Outcome State Fault Refusal :=
  event "WRITE_PACKET" s
    (match arrives s p 0x03 with
    | none => none
    | some port =>
      received' s p port (decide (1 ≤ p.len) && decide (p.len ≤ 128))
        (checked s p port (peerIssue s (peerReq s p port (packetKind p) p.addr (packetParts p) p.payload))))

/-- A grant of another package, or the end of a reservation there, reaches the access that waits for it (R89, R90). -/
def grantCome (s : State) (p : Packet) (f : Flight) : State :=
  let t := dropFlight s f
  match sentPart s f.port p.txid with
  | none => t
  | some (r, i, q) =>
    match r.kind with
    | .wrv => failPart t r i ⟨.lapsed, 0, q.va, none, false⟩
    | .lock ctx h =>
      let t := setStage t r.id i .done
      match t.hold ctx h with
      | some x => t.setHold ctx h { x with
          reuse := if x.issued then x.reuse + 1 else x.reuse
          issued := true
          live := true
          granted := ctxNow t ctx
          expiry := ctxNow t ctx + x.expiry }
      | none => t
    | .amo _ _ _ =>
      match q.stage with
      -- its write has found its term ended (R90)
      | .sent _ _ => failPart t r i ⟨.lapsed, 0, q.va, none, false⟩
      | _ => setStage (setBuf t r.id (partFrom r q p.payload)) r.id i .granted
    | _ =>
      let t := setStage (setBuf t r.id (partFrom r q p.payload)) r.id i .done
      match r.owner with
      | .thread k => t.updThr k fun x => { x with reserved := some (q.pa / 8) }
      | _ => t

/-- The context number under which another package's lock stands in a bank, apart from the contexts here. -/
def peerLock (pkg number : Nat) : Nat × Nat := (32 + pkg, number)

/-- The atomic reservation on a word ends where the tile that a packet comes from holds it. -/
def endPeer (s : State) (p : Packet) (home : Nat) : State :=
  match atomicOn s home (p.addr / 8) with
  | some v => if v.holder = 2 ^ 20 + p.srcPkg * 4096 + p.srcTile then dropResv s home (p.addr / 8) else s
  | none => s

/-- A request of another package for a reservation or a lock, still here. -/
def askedBy (p : Packet) (mine : Nat → ReqKind → Bool) (r : Req) : Bool :=
  match r.owner with
  | .peer pkg _ txid _ _ => pkg == p.srcPkg && r.kind.ticketed && mine txid r.kind
  | _ => false

/-- The lapse of a lock of another package, the end of a reservation of one of its tiles, or the withdrawal of its request for
either, reaches the word's home here (R105, R108, R319; log entry 75): the word goes on, and a write status answers. -/
def lapseCome (s : State) (p : Packet) (port n : Nat) : State :=
  let home := (homeTile s p.addr).getD 0
  let l := peerLock p.srcPkg n
  let gone := askedBy p fun txid k =>
    if n < endNumber then (match k with | .lock c h => c == l.1 && h == l.2 | _ => false) else withdrawNumber txid == n
  let waits := s.reqs.any fun r => gone r && r.parts.any fun q => q.stage != .done
  let t : State := { s with reqs := s.reqs.filter fun r => !gone r }
  let t := if n < endNumber then dropLock t home (p.addr / 8) l.1 l.2 else if waits then t else endPeer t p home
  let t := if (resvOn t home (p.addr / 8)).isNone then serve t home (p.addr / 8) else t
  sendPacket t port (.pool (dieOf home)) (mkPacket t 0x04 0 p.srcPkg p.txid home p.addr [])

/-- RESERVATION_PACKET (R89, R90, Table 8-3): a grant that answers a request of this package; or a request (LEN 0), a `wrv`
(LEN 1) or a lock's lapse (log entry 75) of another package; or one in transit (R182). -/
def reservation (s : State) (p : Packet) : Option State :=
  match s.flights.find? fun f => p.dstPkg == s.pkg && f.pkt.txid == p.txid && f.pkt.dstPkg == p.srcPkg && f.pkt.type == 0x05 &&
      f.pkt.addr / 32 == p.addr / 32 with
  | some f =>
    if (p.type ≠ 0x05 ∧ assignedType p.type) ∨ !answerDue s f then none
    else answerLost s p f (some (grantCome s p f))
  | none =>
    match arrives s p 0x05 with
    | none => none
    | some port =>
      let a := p.addr / 8 * 8
      let r := match p.stamp with
        | some (n, _) => peerReq s p port (.lock (peerLock p.srcPkg n).1 n) a (blockParts (bytesFrom a 8)) (List.replicate 8 0)
        | none =>
          if p.len = 0 then peerReq s p port .rsv a (blockParts (bytesFrom a 8)) (List.replicate 8 0)
          else peerReq s p port .wrv p.addr (packetParts p) p.payload
      received' s p port (decide (p.len ≤ 1)) (match p.stamp with
        | some (n, false) => lapseCome s p port n
        | _ => checked s p port (peerIssue s r))

def execReservationPacket (p : Packet) (s : State) : Host.Outcome State Fault Refusal :=
  event "RESERVATION_PACKET" s (reservation s p)

/-- ACTIVE_MESSAGE_PACKET (R157, R182): a message of another package on its way to its core, where it is placed or
diverted (MESSAGE_PLACEMENT). -/
def execActiveMessagePacket (p : Packet) (s : State) : Host.Outcome State Fault Refusal :=
  event "ACTIVE_MESSAGE_PACKET" s
    (match arrives s p 0x08 with
    | none => none
    | some port =>
      let m : Msg := {
        key := 0
        lid := 0
        ctx := 31
        body := vecOf p.payload
        dst := p.addr % 4096
        pkg := p.addr / 4096 % 256
        txid := none
        fwd := false
        peer := some (p.srcPkg, p.srcTile, p.txid)
        born := 0 }
      received' s p port (p.len == 2) { s with net := s.net ++ [m] })

/-- Route data delivered here: checked and performed, its write status to come (R157, R349). -/
def deliverRoute (s : State) (port : Nat) (p : Packet) : State :=
  checked s p port (peerIssue s { peerReq s p port .store p.addr (blockParts (bytesFrom p.addr p.payload.length)) p.payload with
    fin := .engineBytes
    stamp := p.stamp.map (·.1)
    last := match p.stamp with | some x => x.2 | none => false })

/-- ROUTE_DATA (R185, R186, R192, R193, R349): route data in an in-slot of KIND 2 of the port it comes in at: forwarded beat by
beat to the port of FWD two slots on, held by the gateway core of the slot, or delivered here over the path to its home
(R377). Data that reaches a slot whose route does not name it, or whose route it is not of (log entry 99), is discarded and counted;
its requester learns of it as a link failure, no status coming back. -/
def routeArrival (s : State) (port : Nat) (p : Packet) : Option State :=
  if (p.type ≠ 0x09 ∧ assignedType p.type) ∨ !carries s port ∨ (s.port port).role ≠ .peer ∨ (!badPacket p ∧ !wholePacket p) then none
  else if p.type ≠ 0x09 then some (countError s port)
  else match inOwner s port s.ptb, inOwner s port (s.ptb - homePath) with
    | .route c h f, _ =>
      if p.route != some (c, h) then
        match inOwner s port (s.ptb - homePath) with
        | .route c' h' 15 =>
          if p.route = some (c', h') ∧ !badPacket p ∧ 1 ≤ p.len ∧ p.dstPkg = s.pkg then some (deliverRoute s port p)
          else some (countError s port)
        | _ => some (countError s port)
      else if f ≤ 11 then some (if badPacket p || p.dstPkg == s.pkg then countError s port else forwardBeats s f c h p 2)
      else if badPacket p ∨ p.len < 1 then some (countError s port)
      else if 16 ≤ f then
        some { s with gate := s.gate ++ [⟨4 * port + s.slotNow % 4, s.ptb, c, h, f % 16, p⟩] }
      else if p.dstPkg ≠ s.pkg then some (countError s port)
      else match inOwner s port (s.ptb - homePath) with
        | .route c' h' 15 => if c' = c ∧ h' = h then some (deliverRoute s port p) else none
        | _ => none
    | _, .route c h 15 =>
      if badPacket p ∨ p.len < 1 ∨ p.dstPkg ≠ s.pkg ∨ p.route ≠ some (c, h) then some (countError s port)
      else some (deliverRoute s port p)
    | _, _ => some (countError s port)

def execRouteData (p : PortPacket) (s : State) : Host.Outcome State Fault Refusal :=
  event "ROUTE_DATA" s (routeArrival s p.port p.pkt)

/-- GATEWAY_BADDQ (R53, R193): a gateway core of the port forms its block, which leaves 4 slots after its in-slot, and 2 more through
the crossbar (R185), in the route's slots on the port that the in-slot forwards to, or is delivered here. -/
def gateway (s : State) (port : Nat) (code : BFmt) (blocks : List Vec) : Option State :=
  match gatewaySum s port code blocks with
  | none => none
  | some (g, p, t) =>
    if g.fwd ≤ 11 then
      some (t.updPort g.fwd fun q =>
        { q with fifo := q.fifo ++ [⟨.route g.ctx g.handle 15, p, g.slot + gatewayShift + 2, 1 + p.len⟩] })
    else some (deliverRoute t port p)

def execGatewayBaddq (port : Nat) (code : BFmt) (blocks : List Vec) (s : State) : Host.Outcome State Fault Refusal :=
  event "GATEWAY_BADDQ" s (gateway s port code blocks)

/-- POD_BARRIER_PACKET (R139): another member's arrival, with its flags, counts for the episode of its group and tick, whether
or not a core here has arrived in it; one that does not stand any more counts no longer, and its flags are not merged (log entries
11 and 98: what the packet carries). -/
def execPodBarrierPacket (p : Packet) (s : State) : Host.Outcome State Fault Refusal :=
  event "POD_BARRIER_PACKET" s
    (match arrives s p 0x0C with
    | none => none
    | some port =>
      let key := p.cap * 2 ^ 16 + p.txid
      let tick := match p.stamp with | some x => x.1 | none => 0
      let gone := match p.stamp with | some x => x.2 | none => false
      let e := (s.episode key tick).getD ⟨key, tick, [], false, false, []⟩
      let others := e.remote.filter fun x => x.1 != p.srcPkg
      received' s p port (p.len == 0)
        (setEpisode s { e with remote := if gone then others else others ++ [(p.srcPkg, BitVec.ofNat 8 p.srcTile)] }))

/-! ## Training and retraining (R184, R187, R214) -/

/-- The slot tables of a port that is trained: with the slots that the Crown keeps for the pools (R182), and on a drawer port every
in-slot paired by the D that it has now declared, in the tables to come as well (R184). -/
def trainedTables (p : Port) : Port :=
  let out := keepPools p.role p.outTab
  let shadow := p.shadow.map fun x => (x.1, x.2.1, keepPools p.role x.2.2)
  if p.role = .drawer then
    { p with
      outTab := out
      inTab := pairTable p .outward out
      shadow := ((shadow.filter fun x => x.1 == 0).map fun x => [x, (1, x.2.1, pairTable p .outward x.2.2)]).flatten }
  else { p with outTab := out, inTab := keepPools p.role p.inTab, shadow := shadow }

/-- PORT_TRAINING (R177, R184): a port is trained: its flight in whole slots, and for a drawer port its reply delay of 400
to 1,200, which hold until the next package reset. -/
def execPortTraining (port flight delay : Nat) (s : State) : Host.Outcome State Fault Refusal :=
  let p := s.port port
  event "PORT_TRAINING" s
    (if port < 12 ∧ p.role ≠ .unused ∧ !p.trained ∧ (if p.role = .drawer then 400 ≤ delay ∧ delay ≤ 1200 else delay = 0) then
      some (s.setPort port (trainedTables { p with trained := true, flight := flight, delay := delay }))
    else none)

/-- A write to a drawer, whose fate the drawer tells at resume. -/
def drawerWrite (s : State) (f : Flight) : Bool :=
  (s.port f.port).role == .drawer && (f.pkt.type == 0x03 || f.pkt.type == 0x09)

/-- RETRAIN_START (R187, R214): a port whose errors have reached 16 in a frame, or that has no spare ring left, carries
nothing from the start of the next slot on; the packets in flight fail, but for a drawer's writes, which wait for its
report. -/
def retrain (s : State) (port : Nat) : Option State :=
  let p := s.port port
  if p.role == .unused || !p.trained || p.stalled.isSome || decide (p.frameErrs < 16) || decide (s.ptb ≤ p.errAt) then none
  else
    let s := s.setPort port { p with
      stalled := some (p.errAt + 1)
      retrain := p.retrain + 1
      fifo := p.fifo.map fun o => { o with left := 1 + o.pkt.len } }
    let mine := s.flights.filter fun f => f.port == port && !drawerWrite s f && f.pkt.type != 0x0C
    some (mine.foldl flightFails s)

def execRetrainStart (port : Nat) (s : State) : Host.Outcome State Fault Refusal := event "RETRAIN_START" s (retrain s port)

/-- An arrival packet that was in flight is sent again, counting as arriving now: in time for its tick; or too late, and then the
member is late, and every other one is told so. What withdraws an arrival is sent again as it is (R139, R214; log entry 98). -/
def resendArrival (s : State) (port : Nat) (p : Packet) : State :=
  let again (s : State) : State := sendPacket s port (.pool (dieOf p.srcTile)) p
  match p.stamp with
  | some (tick, false) =>
    match s.episode (p.cap * 2 ^ 16 + p.txid) tick with
    | some e =>
      if e.late then s
      else if s.ptb + 2048 ≤ tick then again s
      else
        let x := { e with closed := true, late := true }
        tellMembers (setEpisode s x) p.srcTile ((groupByKey s e.key).getD []) x true
    | none => s
  | _ => again s

/-- The arrival packets that were in flight on a port as it stopped (R214). -/
def resendArrivals (s : State) (port since : Nat) : State :=
  let again := s.flights.filter fun f => f.port == port && f.pkt.type == 0x0C && decide (since ≤ f.slot + (s.port port).flight)
  again.foldl (fun s f => resendArrival s port f.pkt) { s with flights := s.flights.filter fun f => !again.contains f }

/-- A round whose scheduled slot on a port fell into a stall that has just ended has lost that contribution (R214). -/
def markLost (s : State) (port since : Nat) : State :=
  let add (r : Round) : Round :=
    if r.frame + 1 = s.frame ∧ since ≤ r.frame * 2048 + portSlot s r.key port then
      { r with remote := r.remote ++ ((grpList r.desc).mapIdx (fun i m => (i, m))).filterMap (fun x =>
          if portFor s x.2 = some port ∧ !r.remote.any (fun c => c.member == x.1) then some ⟨port, x.1, 0, 0, [], 0, true⟩ else none) }
    else r
  { s with rounds := s.rounds.map add }

/-- RETRAIN_RESUME (R187, R214): at a frame boundary within 20 µs the port goes on. The drawer names the writes it
applied: those are performed, in the order of their out-slots, the others failed. -/
def resumePort (s : State) (port : Nat) (applied : List Nat) : Option State :=
  let p := s.port port
  match p.stalled with
  | none => none
  | some t =>
    let ws := s.flights.filter fun f => f.port == port && drawerWrite s f
    let did (f : Flight) : Bool := applied.contains f.pkt.txid
    if s.ptb % 2048 ≠ 0 ∨ s.ptb / 2048 ≠ s.frame ∨ t + 20000 < s.ptb ∨ applied.any (fun x => !ws.any fun f => f.pkt.txid == x) then none
    else
      let s := markLost s port t
      let s := s.setPort port { p with stalled := none, frameErrs := 0 }
      let s := (ws.filter did).foldl (fun s f => writeDoneAt (dropFlight s f) f) s
      let s := (ws.filter fun f => !did f).foldl flightFails s
      some (resendArrivals s port t)

def execRetrainResume (port : Nat) (applied : List Nat) (s : State) : Host.Outcome State Fault Refusal :=
  event "RETRAIN_RESUME" s (resumePort s port applied)

/-- PORT_RESUME_TIMEOUT (R187, R219): a port that cannot resume within 20 µs stops the package, cause 3. -/
def execPortResumeTimeout (port : Nat) (s : State) : Host.Outcome State Fault Refusal :=
  event "PORT_RESUME_TIMEOUT" s
    (match (s.port port).stalled with
    | some t => if t + 20000 < s.ptb then some (fatalError s 3) else none
    | none => none)

end Sys2Proof.Machine
end

