-- ==== Sys2Proof/Machine/Banks.lean ====
section
/-! DEFINITION. Bank budgets, the prefetcher's control, the carve of the drawer cache, and soft errors (spec/08 R171 to
R173, R191, spec/01 R22, spec/09 R208). -/

namespace Sys2Proof.Machine

/-! ## Budgets (Table 8-1) -/

/-- The six budgets of a BANKBUD in the order THR, MXR, CPY, MSH, FIL, FWR. -/
def budgets (w : Word) : Vector Nat 6 := Vector.ofFn fun i => w.toNat / 2 ^ (8 * i.val) % 256

/-- BUDGET_PERIOD (R171 to R173): every 256 cycles a pending table takes effect and every class has its budget. -/
def execBudgetPeriod (s : State) : Host.Outcome State Fault Refusal :=
  event "BUDGET_PERIOD" s
    (if s.cycle / 256 ≤ s.period then none
    else
      let f (b : Bank) : Bank :=
        let w := b.pending.getD b.bud
        { b with bud := w, pending := none, counts := budgets w }
      some { s with period := s.cycle / 256, banks := s.banks.map fun b => (b.1, f b.2) })

/-- R172: every field in its range, FIL 0 only where the die has no carve, a sum of at most 256. -/
def budOk (carve : Nat) (w : Word) : Bool :=
  let b := budgets w
  8 ≤ b[0] && 8 ≤ b[1] && 8 ≤ b[2] && 16 ≤ b[3] && (8 ≤ b[4] || (b[4] == 0 && carve == 0)) && 8 ≤ b[5] &&
    decide (b[0] + b[1] + b[2] + b[3] + b[4] + b[5] ≤ 256)

/-- A table written to one bank: an accepted one waits for the next period, a refused one sets REJ. Bits 63:48 are ignored. -/
def bankWrite (carve : Nat) (value : Word) (b : Bank) : Bank :=
  if budOk carve value then { b with pending := some (value &&& 0xFFFFFFFFFFFF#64), rej := false } else { b with rej := true }

/-- BANKBUD_WRITE (R172): a Crown write to a tile's BANKBUD is checked; the Crown writes the same table to every tile of the
die, so that all of them take it in one step. -/
def execBankbudWrite (tile : Nat) (value : Word) (s : State) : Host.Outcome State Fault Refusal :=
  let die := dieOf tile
  event "BANKBUD_WRITE" s
    (if 4096 ≤ tile then none
    else some { s with banks := s.banks.filter (fun b => dieOf b.1 != die) ++
      (List.range 1024).map fun i => (die * 1024 + i, bankWrite (s.die die).carve value (s.bank (die * 1024 + i))) })

/-- PFCTL_WRITE (Table 8-6): a write with a bit of 63:8 set is ignored whole (DESIGN CHOICE, log entry 79: the table says that
nonzero writes of these bits are ignored, and not whether the write's other bits are taken). -/
def execPfctlWrite (die : Nat) (value : Word) (s : State) : Host.Outcome State Fault Refusal :=
  event "PFCTL_WRITE" s
    (if 4 ≤ die then none
    else if value.toNat / 256 ≠ 0 then some s
    else some (s.updDie die fun d => { d with pfctl := value &&& 0xF1#64 }))

/-! ## The carve (R22) -/

/-- A page of a die that a carve of `kib` meets: it lies in its bytes, or is a large page of SRAM. -/
def carveMeets (s : State) (die kib pa bytes : Nat) : Bool :=
  isSram pa && pkgOf pa == s.pkg && localOf pa / 2 ^ 30 == die &&
    (decide (2 ^ 16 < bytes) || decide (2 ^ 20 - kib * 1024 < localOf pa % 2 ^ 20 + bytes))

/-- A page of a live range, or one placed at a context's creation, keeps a carve from growing (R22, R148). -/
def carveBlocked (s : State) (die kib : Nat) : Bool :=
  s.ctxs.any fun c => c.2.image.any (fun i => carveMeets s die kib i.1 i.2) ||
    c.2.holds.any fun h => h.2.live && (match h.2.kind with
      | .range _ _ log _ fs => fs.any fun f => carveMeets s die kib f (2 ^ log)
      | _ => false)

/-- The bytes that a shrinking carve releases are zeroed, at every tile of the die, on grants of its bank's firmware class (R22, R154,
R171). -/
def zeroReleased (s : State) (die old new : Nat) : State :=
  let hit (a : Nat) : Bool :=
    isSram a && pkgOf a == s.pkg && localOf a / 2 ^ 30 == die && decide (2 ^ 20 - old * 1024 ≤ localOf a % 2 ^ 20) &&
      decide (localOf a % 2 ^ 20 < 2 ^ 20 - new * 1024)
  let s := (List.range 1024).foldl (fun s i => owe s (die * 1024 + i) ((old - new) * 4)) s
  { s with
    mem := s.mem.filter fun c => !hit c.1
    tags := s.tags.filter fun t => !hit (t.1 * 64)
    poison := s.poison.filter fun w => !hit (w * 8) }

/-- R172: a table of a bank of the die, in force or to come, gives the fill class nothing. -/
def filZero (s : State) (die : Nat) : Bool :=
  (List.range 1024).any fun t =>
    let b := s.bank (die * 1024 + t)
    decide ((budgets b.bud)[4] < 8) || (match b.pending with | some w => decide ((budgets w)[4] < 8) | none => false)

/-- CARVE_CHANGE (R22): a change of carve waits while a launch holds a core of the die, while a carve that grows meets live
pages, and while a fill is under way; then every cached line is discarded and the dirty ones are written back, on grants of the fill
class (R171), behind which the new carve takes effect, and the bytes that it releases are zeroed. The Crown asks for no growth from 0
before the fill budgets are written. A prefetched line without a hit that is discarded so, or by zeroing (R154), does not count in
PFUNUSED, which R225 gives for one that is evicted (DESIGN CHOICE, log entry 110). -/
def carveTo (s : State) (die kib : Nat) : Option State :=
  let d := s.die die
  let held := s.cores.any fun c => dieOf c.1 == die && c.2.launch.isSome
  if 4 ≤ die ∨ !([0, 128, 256, 512].contains kib) ∨ (d.carve = 0 ∧ kib ≠ 0 ∧ filZero s die) then none
  else if held ∨ (d.carve < kib ∧ carveBlocked s die kib) ∨ d.fills.any (fun f => !f.back) then
    (if d.carveWant = some kib then none else some (s.updDie die fun d => { d with carveWant := some kib }))
  else
    let dirty := (d.cache.filter (·.dirty)).map (·.addr)
    if !dirty.isEmpty then
      some (s.updDie die fun d => { d with cache := [], backs := d.backs ++ dirty, carveWant := some kib, pfWant := [] })
    else if !d.backs.isEmpty then
      (if d.carveWant = some kib then none else some (s.updDie die fun d => { d with carveWant := some kib }))
    else
      let s := s.updDie die fun d => { d with cache := [], arrived := [], carve := kib, carveWant := none, pfWant := [] }
      some (if kib < d.carve then zeroReleased s die d.carve kib else s)

def execCarveChange (die kib : Nat) (s : State) : Host.Outcome State Fault Refusal :=
  event "CARVE_CHANGE" s (carveTo s die kib)

/-! ## Soft errors (R208, Table 9-6) -/

/-- SCRUBBER_REWRITE: a corrected SRAM word is rewritten, on a grant of the firmware class. -/
def execScrubberRewrite (pa : Nat) (s : State) : Host.Outcome State Fault Refusal :=
  event "SCRUBBER_REWRITE" s
    (match homeTile s pa with
    | none => none
    | some home =>
      if isSram pa ∧ s.corrected.contains (pa / 8) ∧ classTurn s home 5 then
        some { takeGrant s home 5 with corrected := s.corrected.filter (· != pa / 8) }
      else none)

/-- A corrected error counts at its tile (R225). -/
def countCe (s : State) (tile i : Nat) : State :=
  s.updCore tile fun c => { c with ce := c.ce.setIfInBounds i (c.ce.toArray.getD i 0 + 1) }

/-- Words of a slot's scalar and vector registers. -/
def lostWords : Nat := 32 + 8 * 24

/-- A register word's error cannot be corrected: the word is marked until it is written, or scrubbed; what reads it ends the
thread (ISSUE). -/
def registerLost (s : State) (key word : Nat) : State :=
  s.updThr key fun t => { t with regs := { t.regs with
    lost := if t.regs.lost.contains word then t.regs.lost else t.regs.lost ++ [word] } }

/-- SOFT_ERROR: a corrected error counts; one that cannot be corrected poisons its word. A lost tag byte is a free value
(log entry 19); firmware state is fatal, cause 4. -/
def softErrorAt (s : State) (u : Upset) (bad : Bool) : Option State :=
  match u with
  | .memory pa =>
    match homeTile s pa with
    | none => none
    | some home =>
      if bad then some { s with poison := if s.poison.contains (pa / 8) then s.poison else s.poison ++ [pa / 8] }
      else if isSram pa then
        some { countCe s home 0 with corrected := if s.corrected.contains (pa / 8) then s.corrected else s.corrected ++ [pa / 8] }
      else some s
  | .tag g =>
    match homeTile s (g * 64) with
    | none => none
    | some home =>
      if !isSram (g * 64) then none
      else if bad then some { s.setTag g ((Config.freeWord s.free).truncate 8) with free := s.free + 1 }
      else some (countCe s home 3)
  | .register tile slot word =>
    if 4096 ≤ tile ∨ 16 ≤ slot ∨ lostWords ≤ word then none
    else if bad then some (registerLost s (keyOf tile slot) word) else some (countCe s tile 1)
  | .accumulator tile acc row col =>
    if 4096 ≤ tile ∨ 8 ≤ acc ∨ 16 ≤ row ∨ 64 ≤ col then none
    else if bad then some (s.updCore tile fun c =>
      { c with accBad := if c.accBad.contains (accIdx acc row col) then c.accBad else c.accBad ++ [accIdx acc row col] })
    else some (countCe s tile 2)
  | .firmware => some (if bad then fatalError s 4 else s)

def execSoftError (u : Upset) (uncorrectable : Bool) (s : State) : Host.Outcome State Fault Refusal :=
  event "SOFT_ERROR" s (softErrorAt s u uncorrectable)

end Sys2Proof.Machine
end

