-- ==== Sys2Proof/Machine/Crypto.lean ====
section
/-! DEFINITION. The cryptography that spec/07_isolation_space.md R163 and R166 name: SHA-384, HMAC and HKDF over it (RFC
5869), ECDSA on brainpoolP384r1 (RFC 5639) with the deterministic nonces of RFC 6979, and `KeyFromSeed`. The standards are
named by the spec and written out from their own texts. -/

namespace Sys2Proof.Machine

/-! ## Big-endian numbers -/

/-- Bytes as a big-endian number. -/
def beNat (b : List Byte) : Nat := b.foldl (fun n x => n * 256 + x.toNat) 0
/-- The low `n` bytes of a number, big-endian. -/
def beBytes (n x : Nat) : List Byte := (leBytes n x).reverse

/-! ## SHA-384 -/

/-- The greatest `r` below `2 ^ bits` beyond a first guess whose `k`-th power is at most `x`, bit by bit. -/
def rootFrom (k x : Nat) : Nat → Nat → Nat
  | 0, r => r
  | b + 1, r => rootFrom k x b (if (r + 2 ^ b) ^ k ≤ x then r + 2 ^ b else r)

/-- The first 64 bits of the fractional part of the `k`-th root of a prime. -/
def rootBits (k p : Nat) : Word := BitVec.ofNat 64 (rootFrom k (p * 2 ^ (64 * k)) 70 0)

/-- The primes up to the eightieth. -/
def shaPrimes : List Nat :=
  (List.range 410).filter fun n => decide (2 ≤ n) && (List.range n).all fun d => decide (d < 2) || n % d != 0

def shaK : List Word := shaPrimes.map (rootBits 3)

/-- The eight working words. -/
structure Sha where
  a : Word
  b : Word
  c : Word
  d : Word
  e : Word
  f : Word
  g : Word
  h : Word
  deriving DecidableEq, Repr

/-- The first words of SHA-384, of the ninth to the sixteenth prime. -/
def shaInit : Sha :=
  let w (i : Nat) : Word := rootBits 2 (shaPrimes.getD (8 + i) 0)
  ⟨w 0, w 1, w 2, w 3, w 4, w 5, w 6, w 7⟩

def Sha.add (x y : Sha) : Sha :=
  ⟨x.a + y.a, x.b + y.b, x.c + y.c, x.d + y.d, x.e + y.e, x.f + y.f, x.g + y.g, x.h + y.h⟩

/-- The exclusive or of three rotations. -/
def rot3 (x : Word) (i j k : Nat) : Word := x.rotateRight i ^^^ x.rotateRight j ^^^ x.rotateRight k

/-- One round, with the sum of its constant and its message word. -/
def shaRound (x : Sha) (kw : Word) : Sha :=
  let t1 := x.h + rot3 x.e 14 18 41 + ((x.e &&& x.f) ^^^ (~~~x.e &&& x.g)) + kw
  let t2 := rot3 x.a 28 34 39 + ((x.a &&& x.b) ^^^ (x.a &&& x.c) ^^^ (x.b &&& x.c))
  ⟨t1 + t2, x.a, x.b, x.c, x.d + t1, x.e, x.f, x.g⟩

/-- The next message word, before a list of the words so far, the last first. -/
def shaNext (w : List Word) : List Word :=
  let x (i : Nat) : Word := w.getD i 0
  let s0 := (x 14).rotateRight 1 ^^^ (x 14).rotateRight 8 ^^^ x 14 >>> 7
  let s1 := (x 1).rotateRight 19 ^^^ (x 1).rotateRight 61 ^^^ x 1 >>> 6
  (s1 + x 6 + s0 + x 15) :: w

/-- The 80 message words of a block of 128 bytes. -/
def shaWords (b : List Byte) : List Word :=
  let w := (List.range 16).map fun i => BitVec.ofNat 64 (beNat ((b.drop (8 * i)).take 8))
  ((List.range 64).foldl (fun l _ => shaNext l) w.reverse).reverse

def shaBlock (x : Sha) (b : List Byte) : Sha :=
  x.add ((List.zipWith (fun k w => k + w) shaK (shaWords b)).foldl shaRound x)

/-- A message padded to whole blocks, its length in bits at the end. -/
def shaPad (m : List Byte) : List Byte :=
  m ++ 0x80 :: List.replicate ((239 - m.length % 128) % 128) 0 ++ beBytes 16 (8 * m.length)

def sha384 (m : List Byte) : List Byte :=
  let p := shaPad m
  let x := (List.range (p.length / 128)).foldl (fun x i => shaBlock x ((p.drop (128 * i)).take 128)) shaInit
  ([x.a, x.b, x.c, x.d, x.e, x.f].map fun w => beBytes 8 w.toNat).flatten

/-! ## HMAC and HKDF -/

def hmac (key m : List Byte) : List Byte :=
  let k := if 128 < key.length then sha384 key else key
  let k := k ++ List.replicate (128 - k.length) 0
  sha384 (k.map (· ^^^ 0x5C) ++ sha384 (k.map (· ^^^ 0x36) ++ m))

/-- HKDF-SHA-384, extract and expand: input key, salt, info, length. -/
def hkdf (ikm salt info : List Byte) (len : Nat) : List Byte :=
  let prk := hmac salt ikm
  let next (x : List Byte × List Byte) (i : Nat) : List Byte × List Byte :=
    let t := hmac prk (x.1 ++ info ++ [BitVec.ofNat 8 (i + 1)])
    (t, x.2 ++ t)
  ((List.range ((len + 47) / 48)).foldl next ([], [])).2.take len

/-! ## brainpoolP384r1 -/

/-- The prime of its field. -/
def bpP : Nat :=
  0x8CB91E82A3386D280F5D6F7E50E641DF152F7109ED5456B412B1DA197FB71123ACD3A729901D1A71874700133107EC53
/-- The curve's order. -/
def bpN : Nat :=
  0x8CB91E82A3386D280F5D6F7E50E641DF152F7109ED5456B31F166E6CAC0425A7CF3AB6AF6B7FC3103B883202E9046565
def bpA : Nat :=
  0x7BC382C63D8C150C3C72080ACE05AFA0C2BEA28E4FB22787139165EFBA91F90F8AA5814A503AD4EB04A8C7DD22CE2826
def bpB : Nat :=
  0x04A8C7DD22CE28268B39B55416F0447C2FB77DE107DCD2A62E880EA53EEB62D57CB4390295DBC9943AB78696FA504C11

/-- A point: none is the point at infinity. -/
abbrev Point := Option (Nat × Nat)

/-- The base point. -/
def bpG : Point := some
  (0x1D1C64F068CF45FFA2A63A81B7C13F6B8847A3E77EF14FE3DB7FCAFE0CBD10E8E826E03436D646AAEF87B2E247D4AF1E,
   0x8ABE1D7520F9C2A45CB1EB8E95CFD55262B70B29FEEC5864E19C054FF99129280E4646217791811142820341263C5315)

/-- `b ^ e mod m` for an exponent below `2 ^ bits`. -/
def powMod (b e m : Nat) : Nat → Nat
  | 0 => 1
  | k + 1 =>
    let r := powMod b (e / 2) m k
    if e % 2 = 1 then r * r % m * b % m else r * r % m

/-- The inverse modulo a prime of at most 384 bits. -/
def invPrime (x m : Nat) : Nat := powMod (x % m) (m - 2) m 384

/-- The third point of a line of slope `l` through two points, mirrored. -/
def bpThird (l x1 y1 x2 : Nat) : Point :=
  let x := (l * l + 2 * bpP - x1 - x2) % bpP
  some (x, (l * (x1 + bpP - x) + bpP - y1) % bpP)

def bpAdd (p q : Point) : Point :=
  match p, q with
  | none, q => q
  | p, none => p
  | some (x1, y1), some (x2, y2) =>
    if x1 = x2 then
      if (y1 + y2) % bpP = 0 then none
      else bpThird ((3 * x1 * x1 + bpA) * invPrime (2 * y1) bpP % bpP) x1 y1 x2
    else bpThird ((y2 + bpP - y1) * invPrime (x2 + bpP - x1) bpP % bpP) x1 y1 x2

/-- A multiple below `2 ^ bits` of a point. -/
def bpMul (k : Nat) (p : Point) : Nat → Point
  | 0 => none
  | b + 1 =>
    let q := bpMul (k / 2) p b
    let d := bpAdd q q
    if k % 2 = 1 then bpAdd d p else d

/-- A public point from its octets, X then Y, where it lies on the curve. -/
def bpPoint (key : List Byte) : Point :=
  let x := beNat (key.take 48)
  let y := beNat (key.drop 48)
  if key.length = 96 ∧ x < bpP ∧ y < bpP ∧ y * y % bpP = (x * x * x + bpA * x + bpB) % bpP then some (x, y) else none

/-- ECDSA verification: public key, digest, r, s. -/
def ecdsaVerify (key digest r s : List Byte) : Bool :=
  let rn := beNat r
  let sn := beNat s
  match bpPoint key with
  | none => false
  | some q =>
    let w := invPrime sn bpN
    decide (0 < rn ∧ rn < bpN ∧ 0 < sn ∧ sn < bpN) &&
      (match bpAdd (bpMul (beNat digest * w % bpN) bpG 384) (bpMul (rn * w % bpN) (some q) 384) with
      | some (x, _) => x % bpN == rn
      | none => false)

/-- The signature that a nonce gives, r then s; none where one of them is 0. -/
def signWith (d z k : Nat) : Option (List Byte) :=
  match bpMul k bpG 384 with
  | none => none
  | some (x, _) =>
    let r := x % bpN
    let s := (z + r * d) * invPrime k bpN % bpN
    if r = 0 ∨ s = 0 then none else some (beBytes 48 r ++ beBytes 48 s)

/-- Candidates of RFC 6979 in turn, from the generator's key and value, until one signs. Each fails with a chance of less
than one half, and the last of `fuel` candidates is never reached. -/
def signFrom (d z : Nat) : Nat → List Byte → List Byte → List Byte
  | 0, _, _ => []
  | fuel + 1, k, v =>
    let v := hmac k v
    let n := beNat v
    match (if 0 < n ∧ n < bpN then signWith d z n else none) with
    | some sig => sig
    | none =>
      let k := hmac k (v ++ [0x00])
      signFrom d z fuel k (hmac k v)

/-- Deterministic ECDSA (RFC 6979 with SHA-384): private key, digest; r then s. -/
def ecdsaSign (key digest : List Byte) : List Byte :=
  let z := beNat digest
  let seed := beBytes 48 (beNat key) ++ beBytes 48 (z % bpN)
  let v0 : List Byte := List.replicate 48 0x01
  let k := hmac (List.replicate 48 0x00) (v0 ++ 0x00 :: seed)
  let v := hmac k v0
  let k := hmac k (v ++ 0x01 :: seed)
  signFrom (beNat key) z 1000 k (hmac k v)

/-- `KeyFromSeed` of R166. -/
def keyFromSeed (x : List Byte) : List Byte := beBytes 48 (beNat x % (bpN - 1) + 1)

/-- The public point of a private key, X then Y. -/
def publicKey (key : List Byte) : List Byte :=
  match bpMul (beNat key) bpG 384 with
  | some (x, y) => beBytes 48 x ++ beBytes 48 y
  | none => []

end Sys2Proof.Machine
end

