-- ==== Sys2Proof/Machine/Boot.lean ====
section
/-! DEFINITION. Package reset, the time base, the boot ROM, firmware restarts and updates, attestation and the fatal
stops (spec/07_isolation_space.md R161 to R169, spec/09_recovery.md R216 to R219, spec/01 R21, R29, R30). -/

namespace Sys2Proof.Machine

/-! ## Package reset (R21, R161, R171, R175) -/

/-- The drawer windows of the ports in order: 0 up to 7 for those with the drawer role (R21). -/
def windowsFrom : Nat → List Role → List (Option Nat)
  | _, [] => []
  | n, .drawer :: r => (if n < 8 then some n else none) :: windowsFrom (n + 1) r
  | n, _ :: r => none :: windowsFrom n r

/-- The ports as bring-up leaves them, before training. -/
def portsAt (b : BringUp) : List (Nat × Port) :=
  (List.range 12).map fun i => (i, { Port.reset with
    role := b.roles.getD i (Port.default i).role
    window := (windowsFrom 0 ((List.range 12).map fun j => b.roles.getD j (Port.default j).role)).getD i none
    bytes := min (b.drawerBytes.getD i 0) (2 ^ 39) })

/-- PACKAGE_RESET: everything at its reset value, with what bring-up fixes: the package's number, its pod, its ports'
roles, the default ones where none is given, its drawers, its shadow reserve, and the pod routing table, which names peer ports. Host
memory and the fused minimum version are not the package's to reset. -/
def execPackageReset (b : BringUp) (s : State) : Host.Outcome State Fault Refusal :=
  if 256 ≤ b.pkg ∨ 12 < b.roles.length ∨ !b.pod.contains b.pkg ∨
      b.routing.any fun r => ((portsAt b).find? fun p => p.1 == r.2).elim true fun p => p.2.role != .peer then
    .refused (.notEnabled "PACKAGE_RESET")
  else .next { State.reset with
    pkg := b.pkg
    pod := b.pod
    ports := portsAt b
    routing := b.routing
    hostMem := s.hostMem
    reserve := b.reserve
    boot := { Boot.reset with minSvn := s.boot.minSvn } }

/-! ## The time base (R29) -/

/-- TIME_BASE_SET: at bring-up the I/O die sets the time base, once; it does not run backwards. -/
def execTimeBaseSet (ns : Nat) (s : State) : Host.Outcome State Fault Refusal :=
  event "TIME_BASE_SET" s
    (if s.tbSet ∨ ns < s.ptb then none
    else some { s with ptb := ns, sub := 0, tbSet := true, frame := ns / 2048 })

/-- TIME_BASE_DISCIPLINE: the time base slews at no more than 100 ppm. -/
def execTimeBaseDiscipline (ppm : Int) (s : State) : Host.Outcome State Fault Refusal :=
  event "TIME_BASE_DISCIPLINE" s (if s.tbSet ∧ -100 ≤ ppm ∧ ppm ≤ 100 then some { s with slew := ppm } else none)

/-! ## BOOTST (Table 7-8) -/

/-- BOOTST (Table 7-8). -/
def bootst (s : State) : Word := BitVec.ofNat 64 (s.boot.viol.toNat * 2 ^ 32 + s.boot.state % 256)

/-- BAR0 offset of BOOTST. -/
def bootstOff : Nat := 0x06000008

/-- FIRMWARE_WINDOW_ACCESS (R161, R162): a host access through the firmware window; a blocked read returns ones, a
blocked write is dropped, and each counts. A read's value stands in `mail` under its offset. Behind the window, the physical function
has its context mailbox block (R168). -/
def windowAccess (s : State) (op : WindowOp) : Option State :=
  let inBox (off : Nat) : Bool := decide (boxBase 0 ≤ off) && decide (off < boxBase 0 + 512)
  match op with
  | .read off =>
    if off = bootstOff then some { s with mail := tset s.mail off [bootst s] }
    else if inBox off then some { s with mail := tset s.mail off [BitVec.ofNat 64 (s.boxByte 0 (off - boxBase 0)).toNat] }
    else if Config.fwBytes ≤ off then none
    else if fwBlocked s off then some { countViol s with mail := tset s.mail off [0xFF] }
    else some { s with mail := tset s.mail off [BitVec.ofNat 64 (readByte s.mem (fwAddr s off)).toNat] }
  | .write off v =>
    if inBox off then some (s.putBox 0 (off - boxBase 0) [v])
    else if Config.fwBytes ≤ off then none
    else if fwBlocked s off then some (countViol s)
    else some { s with mem := writeByte s.mem (fwAddr s off) v }

def execFirmwareWindowAccess (op : WindowOp) (s : State) : Host.Outcome State Fault Refusal :=
  event "FIRMWARE_WINDOW_ACCESS" s (windowAccess s op)

/-! ## Verification and identities (R163 to R167) -/

/-- The security version an image must have: the fused minimum, as raised (R163). -/
def svnFloor (s : State) : Nat := max Config.fusedSvn s.boot.minSvn

/-- The little-endian field of an image at an offset of firmware SRAM. -/
def imgField (s : State) (base off n : Nat) : Nat := leNat (fwBytesAt s (base + off) n)

/-- IMGLEN. -/
def imgLen (s : State) (base : Nat) : Nat := imgField s base 0x008 8

/-- The measurement of an image (R163). -/
def imgMeasure (s : State) (base : Nat) : List Byte :=
  sha384 (fwBytesAt s base 0x80 ++ fwBytesAt s (base + 0x100) (imgLen s base - 0x100))

/-- R163, Table 7-10: the state that verification of the image at an offset, with `room` bytes, comes to. -/
def verifyImage (s : State) (base room : Nat) : Nat :=
  let len := imgLen s base
  let entry := imgField s base 0x010 8
  let key := fwBytesAt s (base + 0x020) 96
  if imgField s base 0 4 ≠ 0x36394757 ∨ imgField s base 4 4 ≠ 1 ∨ imgField s base 0x01C 4 ≠ 0 ∨
      imgField s base 0x0E0 32 ≠ 0 then 0x11
  else if len % 64 ≠ 0 ∨ len < 0x140 ∨ room < len ∨ entry < 0x100 ∨ len - 4 < entry then 0x12
  else if sha384 key ≠ Config.keyHash then 0x13
  else if !ecdsaVerify key (imgMeasure s base) (fwBytesAt s (base + 0x080) 48) (fwBytesAt s (base + 0x0B0) 48) then
    0x14
  else if imgField s base 0x018 4 < svnFloor s then 0x15
  else 0x02

/-- ASCII bytes. -/
def ascii (t : List Char) : List Byte := t.map fun c => BitVec.ofNat 8 c.toNat

/-- The salt Z of R166. -/
def zeroSalt : List Byte := List.replicate 48 0

/-- R166, R167: what the boot ROM derives from a measurement and hands to the Crown. -/
def deriveCrown (mc : List Byte) (svn : Nat) : Identity :=
  let cdiC := hkdf Config.uds mc (ascii "G96-CDI-CROWN".toList) 48
  let devKey := keyFromSeed (hkdf Config.uds zeroSalt (ascii "G96-DEVICEID".toList) 56)
  let crnKey := keyFromSeed (hkdf cdiC zeroSalt (ascii "G96-ALIAS-CROWN".toList) 56)
  { mc := mc
    cdiC := cdiC
    crnKey := crnKey
    crnCert := Config.certificate devKey (publicKey crnKey) (mc ++ leBytes 4 svn)
    svn := svn }

/-- The bytes of the image that runs. -/
def runningImage (s : State) : List Byte := fwBytesAt s (carveOff s + s.boot.imageOff) s.boot.imageLen

/-- R166, R167: a Brim's identity, from the code loaded into it and its context's creation record with word 7 read as 0. -/
def deriveBrim (id : Identity) (image : List Byte) (c : Nat) (record : List Word) : BrimId :=
  let mb := sha384 (Config.brimCode image c)
  let cfg := sha384 (((record.set 7 0).map fun w => leBytes 8 w.toNat).flatten)
  let cdiB := hkdf id.cdiC (sha384 (mb ++ cfg)) (ascii "G96-CDI-BRIM".toList ++ [BitVec.ofNat 8 c]) 48
  let key := keyFromSeed (hkdf cdiB zeroSalt (ascii "G96-ALIAS-BRIM".toList) 56)
  { mb := mb, cfg := cfg, cdiB := cdiB, key := key, cert := Config.certificate id.crnKey (publicKey key) (mb ++ cfg) }

/-- The Brims of the live contexts under an identity. -/
def brimsOf (s : State) (id : Identity) : List (Nat × BrimId) :=
  (s.ctxs.filter fun c => c.2.live).map fun c => (c.1, deriveBrim id (runningImage s) c.1 c.2.record)

/-- The boot ROM on the image at an offset of the carve-out (R163 to R166): on a failure the carve-out is zeroed and it
halts; on success the identities are derived, the secret is hidden, and the image runs. -/
def bootRom (s : State) (off : Nat) : State :=
  let base := carveOff s + off
  let st := verifyImage s base (carveLen s - off)
  if st ≠ 0x02 then
    let t := fwZero s (carveOff s) (carveLen s)
    { t with boot := { t.boot with state := st, udsHidden := false, ident := none, brims := [], activation := none } }
  else
    let id := deriveCrown (imgMeasure s base) (imgField s base 0x018 4)
    let s : State := { s with boot := { s.boot with
      state := 0x02, udsHidden := true, imageOff := off, imageLen := imgLen s base, ident := some id, service := s.ptb } }
    { s with boot := { s.boot with brims := brimsOf s id } }

/-- The boot ROM sets out to verify the image at an offset of the carve-out: STATE is 0x01 until it ends, at a time that the
spec leaves open, but for the 2 s of a restart (R164, R217; free value, log entry 53). -/
def startRom (s : State) (off : Nat) (activated : Bool) : State :=
  let t := (Config.freeWord s.free).toNat % (2 * 10 ^ 9 + 1)
  { s with
    free := s.free + 1
    boot := { s.boot with state := 0x01, udsHidden := false, verify := some ⟨off, s.ptb + t, activated⟩ } }

/-- BOOTDB (R161, R162, R164): a host write. With GO, while the boot ROM waits, FWLOCK is written once; a range beyond the
firmware SRAM leaves it clear with STATE 0x10 and GO cleared; else the boot ROM goes on to verify the image. -/
def bootdbWrite (s : State) (value : Word) : State :=
  let v := value &&& 0x800007FF000007FF#64
  let s := { s with boot := { s.boot with bootdb := v } }
  if !v.getLsbD 63 || !(s.boot.state == 0x00 || s.boot.state == 0x10) then s
  else if 1536 < dbBase v + dbSize v then
    { s with boot := { s.boot with bootdb := v &&& 0x7FFFFFFFFFFFFFFF#64, state := 0x10 } }
  else startRom { s with boot := { s.boot with fwlock := v } } 0 false

def execBootdb (value : Word) (s : State) : Host.Outcome State Fault Refusal :=
  event "BOOTDB" s (some (bootdbWrite s value))

/-- SVN_RAISE (R163): the minimum rises to the running image's version, and never falls. -/
def execSvnRaise (s : State) : Host.Outcome State Fault Refusal :=
  event "SVN_RAISE" s
    (match s.boot.ident with
    | some id => if fwUp s then some { s with boot := { s.boot with minSvn := max s.boot.minSvn id.svn } } else none
    | none => none)

/-! ## Restarts (R169, R216, R217) -/

/-- The copy that is current (R216). -/
def CtlBlock.current (b : CtlBlock) : List Word := if b.seq.toNat / 2 % 2 = 0 then b.copy0 else b.copy1

/-- An update's first write: the sequence becomes odd (R216). -/
def ctlBegin (b : CtlBlock) : CtlBlock := { b with seq := b.seq + 1 }
/-- Its second: the copy that is not current. -/
def ctlCopy (b : CtlBlock) (ws : List Word) : CtlBlock :=
  if b.seq.toNat / 2 % 2 = 0 then { b with copy1 := ws } else { b with copy0 := ws }
/-- Its third: the sequence is even again, and the copy written is current. -/
def ctlEnd (b : CtlBlock) : CtlBlock := { b with seq := b.seq + 1 }

/-- A context's control block updated, write by write (R216). -/
def ctlUpdate (s : State) (c : Nat) (ws : List Word) : State :=
  let b := tget s.boot.ctl c ⟨0, [], []⟩
  { s with boot := { s.boot with ctl := tset s.boot.ctl c (ctlEnd (ctlCopy (ctlBegin b) ws)) } }

/-- Where the Crown stops being served in the midst of an update: which block's, after which of its writes, and what it was
writing are free values (log entry 71). -/
def ctlBroken (s : State) : State :=
  let f := (Config.freeWord s.free).toNat
  let c := f % 17
  let b := tget s.boot.ctl c ⟨0, [], []⟩
  let b' := match f / 17 % 3 with
    | 0 => b
    | 1 => ctlBegin b
    | _ => ctlCopy (ctlBegin b) [Config.freeWord (s.free + 1)]
  { s with free := s.free + 2, boot := { s.boot with ctl := tset s.boot.ctl c b' } }

/-- R216: a restart that finds an update under way keeps the copy it did not touch. -/
def ctlRecover (b : CtlBlock) : CtlBlock := if b.seq.toNat % 2 = 1 then { b with seq := b.seq - 1 } else b

/-- FIRMWARE_RESTART (R169, R217): the complex enters boot ROM with the image at an offset of the carve-out; until the
restart completes no Brim takes a record. -/
def fwRestart (s : State) (off : Nat) (activated : Bool) : State :=
  startRom { s with boot := { s.boot with
    restarts := s.boot.restarts + 1, ctl := s.boot.ctl.map fun b => (b.1, ctlRecover b.2) } } off activated

/-- WATCHDOG_EXPIRY (R217): after 100 ms without service, which the running image gave at its start at the latest, the
firmware restarts with the running image; a second expiry within 10 s is fatal. -/
def execWatchdogExpiry (s : State) : Host.Outcome State Fault Refusal :=
  event "WATCHDOG_EXPIRY" s
    (if !fwUp s ∨ s.ptb < s.boot.service + 10 ^ 8 then none
    else if s.boot.watchdog.any fun t => s.ptb ≤ t + 10 ^ 10 then some (fatalError s 5)
    else some (fwRestart (ctlBroken { s with boot := { s.boot with watchdog := s.ptb :: s.boot.watchdog } })
      s.boot.imageOff false))

/-! ## The Crown's mailbox (R143, R218, R219) -/

/-- A record answered in its word 7. -/
def answerMail (s : State) (off : Nat) (ws : List Word) (a : Nat) : State :=
  { s with mail := tset s.mail off (ws.take 7 ++ [BitVec.ofNat 64 a]) }

/-- Places of the Crown's records in BAR0. -/
def creationOff : Nat := 0x06001000
def activationOff : Nat := 0x06001040
def dumpOff : Nat := 0x06001080
def ringOff : Nat := 0x06001100

/-- DUMP_REGISTRATION (R219). -/
def execDumpRegistration (words : List Word) (s : State) : Host.Outcome State Fault Refusal :=
  event "DUMP_REGISTRATION" s
    (if words.length ≠ 8 ∨ !fwUp s then none
    else if wordAt words 0 % 4096 ≠ 0 ∨ wordAt words 1 % 4096 ≠ 0 then some (answerMail s dumpOff words 1)
    else some (answerMail { s with dump := some ⟨wordAt words 0, wordAt words 1⟩ } dumpOff words 0))

/-! ## Firmware updates (R218, Table 9-8) -/

def actSize (ws : List Word) : Nat := bitsOf (wordAt ws 0) 42 32 * 65536
def actBase (ws : List Word) : Nat := wordAt ws 0 % 2 ^ 11 * 65536

/-- A reserved field of an activation record is nonzero. -/
def actReserved (ws : List Word) : Bool :=
  wordAt ws 0 / 2 ^ 43 != 0 || bitsOf (wordAt ws 0) 31 11 != 0 || (List.range 6).any (fun i => wordAt ws (i + 1) != 0) ||
    wordAt ws 7 / 2 ^ 8 != 0

/-- Where a copy of `n` bytes fits in the carve-out beside the running image, and below the page tables and the supervisor
queue: behind it, else before it. -/
def copyPlace (s : State) (n : Nat) : Option Nat :=
  let after := (s.boot.imageOff + s.boot.imageLen + 65535) / 65536 * 65536
  let room := min (carveLen s) (Config.supOff - s.tableNext * 4096 - carveOff s)
  if after + n ≤ room then some after else if n ≤ s.boot.imageOff then some 0 else none

/-- The layout list at the end of an image: its count, then as many layouts. -/
def layoutsOf (s : State) (base : Nat) : List Nat :=
  let at' := base + imgLen s base - 64
  (List.range (min 31 (imgField s at' 0 2))).map fun i => imgField s at' (2 + 2 * i) 2

/-- The staged image as firmware reads it: beyond the firmware SRAM there is nothing. -/
def stagedBytes (s : State) (ws : List Word) : List Byte :=
  fwBytesAt s (actBase ws) (min (actSize ws) (Config.fwBytes - actBase ws))

/-- ACTIVATION_RECORD: refused with its answer, or copied into the carve-out and checked; a copy that fails is zeroed. -/
def activate' (s : State) (ws : List Word) : State :=
  let n := actSize ws
  if actReserved ws then answerMail s activationOff ws 4
  else if actBase ws < carveOff s + carveLen s ∧ carveOff s < actBase ws + n then answerMail s activationOff ws 2
  else match copyPlace s n with
    | none => answerMail s activationOff ws 5
    | some off =>
      let base := carveOff s + off
      let t := { s with mem := writeBytes s.mem (fwAddr s base) (stagedBytes s ws) }
      if verifyImage t base n ≠ 0x02 then answerMail (fwZero t base n) activationOff ws 1
      else { t with
        mail := tset t.mail activationOff ws
        boot := { t.boot with activation := some ⟨off, n, s.ptb, layoutsOf t base⟩ } }

def execActivationRecord (words : List Word) (s : State) : Host.Outcome State Fault Refusal :=
  event "ACTIVATION_RECORD" s
    (if words.length ≠ 8 ∨ !fwUp s ∨ s.boot.activation.isSome then none else some (activate' s words))

/-- Every saved launch's layout stands in a list (R218). -/
def layoutsHeld (s : State) (l : List Nat) : Bool :=
  s.launches.all fun x => x.2.state != .saved || l.contains x.2.layout

/-- ACTIVATION_PROCEED: no saved launch's layout is absent: the complex restarts into the copy; the new Crown, once it runs,
writes answer 0. -/
def execActivationProceed (s : State) : Host.Outcome State Fault Refusal :=
  event "ACTIVATION_PROCEED" s
    (match s.boot.activation with
    | none => none
    | some a =>
      if !fwUp s || !layoutsHeld s a.layouts then none
      else
        some (fwRestart { s with boot := { s.boot with activation := none } } a.offset true))

/-- ACTIVATION_DEFERRAL_TIMEOUT: a deferral of 10 s ends the request with answer 3; the copy is zeroed. -/
def execActivationDeferralTimeout (s : State) : Host.Outcome State Fault Refusal :=
  event "ACTIVATION_DEFERRAL_TIMEOUT" s
    (match s.boot.activation with
    | none => none
    | some a =>
      if s.ptb < a.since + 10 ^ 10 ∨ layoutsHeld s a.layouts then none
      else
        let t := fwZero s (carveOff s + a.offset) a.size
        some (answerMail { t with boot := { t.boot with activation := none } } activationOff
          ((tfind s.mail activationOff).getD []) 3))

/-! ## Fatal stops (R30, R219) -/

def execThermalTrip (s : State) : Host.Outcome State Fault Refusal := event "THERMAL_TRIP" s (some (fatalError s 1))
def execSupplyFault (s : State) : Host.Outcome State Fault Refusal := event "SUPPLY_FAULT" s (some (fatalError s 2))

/-! ## Attestation (R168, Table 7-11) -/

/-- The bytes of a quote that are signed. -/
def quoteBody (ctx time : Nat) (nonce mc mb cfg user : List Byte) : List Byte :=
  leBytes 4 1 ++ leBytes 4 ctx ++ leBytes 8 time ++ nonce ++ mc ++ mb ++ cfg ++ user

/-- The Brim of a context writes the quote that its attestation mailbox asks for, signed, with the three certificates: the
nonce, the user's data and the host address stand there one after the other (DESIGN CHOICE, log entry 88). -/
def writeQuote (s : State) (ctx : Nat) : State :=
  match s.boot.ident, tfind s.boot.brims ctx with
  | some id, some b =>
    let m := s.attest ctx
    let q := quoteBody ctx s.ptb (m.take 48) id.mc b.mb b.cfg ((m.drop 48).take 64)
    hostWrite (s.updCtx ctx fun c => { c with quoteDue := false }) (leNat ((m.drop 112).take 8))
      (q ++ ecdsaSign b.key (sha384 q) ++ Config.deviceIdCert ++ id.crnCert ++ b.cert)
  | _, _ => s

/-- ATTESTATION_QUOTE (R168): a context's driver writes its request into the attestation mailbox. The Brim answers it, or
once the firmware that restarts runs again, under the new keys. -/
def execAttestationQuote (ctx : Nat) (nonce user : List Byte) (addr : Nat) (s : State) : Host.Outcome State Fault Refusal :=
  event "ATTESTATION_QUOTE" s
    (if !(s.ctx ctx).live ∨ nonce.length ≠ 48 ∨ user.length ≠ 64 then none
    else
      let t := (s.putBox ctx attestAt (nonce ++ user ++ leBytes 8 addr ++ List.replicate 136 0)).updCtx ctx fun c =>
        { c with quoteDue := true }
      some (if fwUp s then writeQuote t ctx else t))

/-! ## The boot ROM ends (R164, R217) -/

/-- What the Crown does first once the image runs: it answers the activation that brought it, and its Brims the quotes that
wait. -/
def crownStarts (s : State) (activated : Bool) : State :=
  let t := if activated then answerMail s activationOff ((tfind s.mail activationOff).getD []) 0 else s
  t.ctxs.foldl (fun t c => if c.2.quoteDue then writeQuote t c.1 else t) t

/-- The boot ROM's verification ends at its time. -/
def romStep (s : State) : State :=
  match s.boot.verify with
  | none => s
  | some v =>
    if s.ptb < v.due then s
    else
      let t := bootRom { s with boot := { s.boot with verify := none } } v.off
      if fwUp t then crownStarts t v.activated else t

end Sys2Proof.Machine
end

