-- ==== Sys2Proof/Machine/Contexts.lean ====
section
/-! DEFINITION. Contexts made and ended, rings registered, hold lapses, and launches pre-empted, resumed and migrated
(spec/07_isolation_space.md R143, R160, spec/06 R119, spec/05 R108, R112, spec/09 R205 to R207, R215). -/

namespace Sys2Proof.Machine

/-! ## Creation (R143, R160, R183, Table 7-2) -/

def crCtx (ws : List Word) : Nat := wordAt ws 0 % 2 ^ 5
def crKey (ws : List Word) : Nat := bitsOf (wordAt ws 0) 31 16
def crCores (ws : List Word) : Nat := wordAt ws 1 % 2 ^ 13

/-- A context lasts until its context hold lapses or its driver ends it (R143). -/
def ctxLasts (s : State) (c : Nat) : Bool :=
  (s.ctx c).live && !(s.ctx c).ending && (match s.hold c 0 with | some h => h.live | none => false)

/-- A context number is taken while its context lasts, and until every hold of it is free: its indices and pages are still its
own (R111, R154). -/
def ctxExists (s : State) (c : Nat) : Bool := (s.ctx c).live || (s.ctx c).holds.any fun h => !h.2.free

/-- A reserved field is nonzero, or a field holds a value that Table 7-2 does not give it (DESIGN CHOICE for the latter,
log entry 20). -/
def creationBad (ws : List Word) : Bool :=
  wordAt ws 0 / 2 ^ 32 != 0 || bitsOf (wordAt ws 0) 15 5 != 0 || wordAt ws 1 / 2 ^ 13 != 0 || wordAt ws 5 / 2 ^ 24 != 0 ||
    wordAt ws 6 != 0 || 16 < crCtx ws || crKey ws == 0 || crKey ws == noKey || crCores ws == 0 || 4096 < crCores ws ||
    wordAt ws 2 % 65536 != 0 || wordAt ws 3 % 65536 != 0

/-- A sum over the contexts that last. -/
def liveSum (s : State) (f : Ctx → Nat) : Nat := s.ctxs.foldl (fun n c => if ctxLasts s c.1 then n + f c.2 else n) 0

/-- SRAM that ranges may use at the carves in force. -/
def usableSram (s : State) : Nat := (List.range 4).foldl (fun n d => n + 1024 * (2 ^ 20 - (s.die d).carve * 1024)) 0
/-- Installed drawer bytes. -/
def drawerBytes (s : State) : Nat := s.ports.foldl (fun n p => if p.2.window.isSome then n + p.2.bytes else n) 0

def drawMax (w : Word) : Nat := w.toNat % 2 ^ 12
def peerMax (w : Word) : Nat := w.toNat / 2 ^ 12 % 2 ^ 12

/-- The slot limits of the live contexts and a new one go beyond a port's (R183). -/
def slotsOver (s : State) (w : Word) : Bool :=
  let has (r : Role) : Bool := s.ports.any fun p => p.2.role == r
  (has .drawer && decide (1792 < liveSum s (fun c => drawMax c.slots) + drawMax w)) ||
    (has .peer && decide (1728 < liveSum s (fun c => peerMax c.slots) + peerMax w))

/-- The allotment goes beyond what is free (answer 3). -/
def allotOver (s : State) (ws : List Word) : Bool :=
  decide (4096 < liveSum s (·.cores) + crCores ws) || decide (usableSram s < liveSum s (·.sramb) + wordAt ws 2) ||
    decide (drawerBytes s < liveSum s (·.drawb) + wordAt ws 3) || slotsOver s (ws.getD 5 0)

/-- R160: a key that has become free is given again once nothing carries it and a full frame has passed since. -/
def keyOk (s : State) (key : Nat) : Bool :=
  match tfind s.freedKeys key with
  | none => true
  | some v => v != 0 && decide (v ≤ s.frame) && !keyInFlight s key

/-- The answer to a creation record, its checks in the order of the answers. -/
def creationAnswer (s : State) (ws : List Word) : Nat :=
  if crCtx ws ≤ 16 ∧ ctxExists s (crCtx ws) then 1
  else if creationBad ws then 2
  else if allotOver s ws then 3
  else if !keyOk s (crKey ws) then 4
  else 0

/-- A page that the Crown may map into a new context: aligned; of this package, free, below the carve, and of generation 0;
or of another package of the pod (R144, R146, R148). -/
def pageOk (s : State) (p : MapPage) : Bool :=
  [12, 16, 21, 30].contains p.log && p.va % 2 ^ p.log == 0 && p.va + 2 ^ p.log ≤ 2 ^ 48 && p.pa % 2 ^ p.log == 0 &&
    if pkgOf p.pa = s.pkg then
      p.gen == 0 && frameFree s p.pa (2 ^ p.log) &&
        ((isSram p.pa && belowCarve s p.pa p.log) ||
          (isDrawer p.pa && (windowPort s p.pa).isSome && windowOf p.pa == windowOf (p.pa + 2 ^ p.log - 1)))
    else s.pod.contains (pkgOf p.pa) && p.gen ≤ 255

/-- Two pages of one context meet neither in their addresses nor in their frames. -/
def pagesApart (p q : MapPage) : Bool :=
  (p.va + 2 ^ p.log ≤ q.va || q.va + 2 ^ q.log ≤ p.va) && (p.pa + 2 ^ p.log ≤ q.pa || q.pa + 2 ^ q.log ≤ p.pa)

/-- Pages that the Crown may map together. -/
def pagesFit (s : State) : List MapPage → Bool
  | [] => true
  | p :: r => pageOk s p && r.all (pagesApart p) && pagesFit s r

/-- A page mapped into a new context; a page of this package is zeroed first (R154), and is the context's image (R146). -/
def placePage (c : Nat) (s : State) (p : MapPage) : State :=
  let map (s : State) : State := mapPage s c p.va p.pa p.log p.gen p.r p.w p.x
  if pkgOf p.pa = s.pkg then
    { (map (zeroFrame s p.pa (2 ^ p.log))).updCtx c (fun x => { x with image := x.image ++ [(p.pa, 2 ^ p.log)] }) with
      usedFrames := s.usedFrames ++ [(p.pa, 2 ^ p.log)] }
  else map s

/-- A new context: every TLB copy of its number's old entries removed (R151), its root table, its pages, its context hold
(R107), its mailboxes; its Brim takes its identity (R166). -/
def createContext (s : State) (ws : List Word) (pages : List MapPage) : State :=
  let c := crCtx ws
  let t := newTable (shootDown s c 0 (2 ^ 48))
  let s := t.2.setCtx c { Ctx.reset with
    live := true
    pkey := BitVec.ofNat 16 (crKey ws)
    cores := crCores ws
    sramb := wordAt ws 2
    drawb := wordAt ws 3
    clife := wordAt ws 4
    slots := ws.getD 5 0
    record := ws.set 7 0
    root := t.1 }
  let s := s.putBox c 0 (List.replicate 512 0)
  let s := pages.foldl (placePage c) s
  let s := ctlUpdate (issueHold s c 0 .context (wordAt ws 4)) c (ws.set 7 0)
  { s with
    freedKeys := tdel s.freedKeys (crKey ws)
    boot := { s.boot with brims := match s.boot.ident with
      | some id => tset s.boot.brims c (deriveBrim id (runningImage s) c (ws.set 7 0))
      | none => s.boot.brims } }

/-- A page of generation 0 that a live context has, asked for again (R154; log entry 113). -/
def renewOk (s : State) (c : Nat) (p : MapPage) : Bool :=
  p.gen == 0 && (s.ctx c).image.contains (p.pa, 2 ^ p.log) &&
    (match walk s c p.va with | .ok e => e.pa == p.pa && e.log == p.log && e.vpn * 4096 == p.va | .error _ => false)

/-- R154: such a page is zeroed before it carries another launch's image or parameter block, and mapped anew. -/
def renewPage (c : Nat) (s : State) (p : MapPage) : State :=
  mapPage (zeroFrame (shootDown s c p.va (2 ^ p.log)) p.pa (2 ^ p.log)) c p.va p.pa p.log p.gen p.r p.w p.x

/-- CONTEXT_CREATION: the record is answered; where it is granted, the pages that the driver asks for with it are mapped. For a context
that lasts, whose record is refused, the firmware maps pages that it has for another launch (DESIGN CHOICE, log entry 113). -/
def execContextCreation (c : Creation) (s : State) : Host.Outcome State Fault Refusal :=
  event "CONTEXT_CREATION" s
    (let n := crCtx c.words
    if c.words.length ≠ 8 ∨ !fwUp s then none
    else if creationAnswer s c.words = 1 ∧ ctxLasts s n ∧ c.pages.all (renewOk s n) then
      some (answerMail (c.pages.foldl (renewPage n) s) creationOff c.words 1)
    else if !pagesFit s c.pages then none
    else
      let a := creationAnswer s c.words
      some (answerMail (if a = 0 then createContext s c.words c.pages else s) creationOff c.words a))

/-! ## Rings (R119, Table 6-1) -/

/-- The answer to a ring registration record. -/
def ringAnswer (s : State) (ws : List Word) : Nat :=
  let c := wordAt ws 5 % 2 ^ 5
  let log := wordAt ws 3
  if !ctxLasts s c then 1
  else if wordAt ws 0 % 64 ≠ 0 ∨ wordAt ws 1 % 8 ≠ 0 ∨ wordAt ws 2 % 16 ≠ 0 ∨ log < 4 ∨ 16 < log ∨
      wordAt ws 4 < 1000 ∨ 10 ^ 9 < wordAt ws 4 ∨ wordAt ws 5 / 2 ^ 5 ≠ 0 ∨ wordAt ws 6 ≠ 0 then 2
  else if (s.ctx c).ring.isSome then 3
  else 0

/-- RING_REGISTRATION: reading begins at record 0. -/
def execRingRegistration (words : List Word) (s : State) : Host.Outcome State Fault Refusal :=
  event "RING_REGISTRATION" s
    (if words.length ≠ 8 ∨ !fwUp s then none
    else
      let a := ringAnswer s words
      let r : Ring := {
        base := wordAt words 0
        resAddr := wordAt words 1
        rdAddr := wordAt words 2
        logSize := wordAt words 3
        cto := wordAt words 4
        rd := 0
        waitSince := s.ptb }
      some (answerMail (if a = 0 then s.updCtx (wordAt words 5 % 2 ^ 5) fun c => { c with ring := some r } else s)
        ringOff words a))

/-! ## Stopping what a context runs (R215) -/

/-- A thread stopped at its boundary: its wait abandoned, its SFU results discarded, and it is live no more. -/
def stopThread (s : State) (key : Nat) : State :=
  endThread (dropSfu ((abandonWait s key).getD s) key) key

/-- An engine stopped at its item boundary: the running command and the queued ones are reported failed. -/
def abortEngine (c : Core) (e : Eng) : Core :=
  let x := c.eng e
  let d := match x.run with
    | some r => updEntry c r.cmd.seq (endEntry (some cancelled) false r.prefixDone r.nitems)
    | none => c
  let d := x.queue.foldl (fun c q => updEntry c q.seq (endEntry (some cancelled) false 0 0)) d
  { d.setEng e .reset with engFail := c.engFail || x.count != 0 }

/-- A core's threads and engines stopped. -/
def stopCore (s : State) (tile : Nat) : State :=
  let s := (List.range 13).foldl (fun s i => stopThread s (keyOf tile i)) s
  s.updCore tile fun c =>
    { abortEngine (abortEngine (abortEngine c .mx) .cp) .rl with parked := none, mxprog := { c.mxprog with valid := false } }

/-- The tiles that a launch's cores stand on. -/
def boundTiles (s : State) (lid : Nat) : List Nat := (s.cores.filter fun c => c.2.launch == some lid).map (·.1)

/-- The words known of a launch that ends before its time: of its cores, and received from cores that have ended. -/
def abortWord (s : State) (lid : Nat) : Word :=
  let l := s.launch lid
  let cores := (boundTiles s lid).map (s.core ·) ++ l.saved.map (·.core)
  let kids := (l.words.filter fun w => cores.any fun c => c.index == w.1).map (·.2)
  (cores.map coreWord ++ kids ++ l.inFlight.map (·.2)).foldl combine (combine (launchWord l) (BitVec.ofNat 64 (2 ^ 58)))

/-- A launch of a context that ends: its status written to DONE with ABORT set, or, for a pool entry, rejected with
code 8. -/
def abortLaunch (s : State) (lid : Nat) : State :=
  let l := s.launch lid
  let word := if l.state = .queued ∧ l.pool.isSome then rejectWord 8 else abortWord s lid
  let s := commitShadows s lid
  let s := s.updLaunch lid fun x => { x with state := .ended, finalWord := some word, tiles := [], saved := [], old := [] }
  let s := report s l.ctx l.payload l.tag word false
  (boundTiles s lid).foldl freeCore s

/-- Launches of a context that have not ended. -/
def openLaunches (s : State) (ctx : Nat) : List Nat :=
  (s.launches.filter fun l => l.2.ctx == ctx && l.2.state != .ended).map (·.1)

/-! ## Lapses (R108, R112) -/

/-- R112: route packets whose departure slot has not begun fail with LAPSED against their command. -/
def routeLapse (s : State) (ctx i : Nat) (h : Hold) : State :=
  match h.kind with
  | .route _ _ _ _ =>
    let handle := handleOf h i
    let gone (o : OutPacket) : Bool :=
      (match o.owner with | .route c k _ => c == ctx && k == handle | _ => false) && o.left == 1 + o.pkt.len
    let out := (s.ports.map fun p => (p.2.fifo.filter gone).map fun o => (p.1, o.pkt.txid)).flatten
    let t : State := { s with ports := s.ports.map fun p => (p.1, { p.2 with fifo := p.2.fifo.filter fun o => !gone o }) }
    out.foldl (fun t x =>
      match sentItem t x.1 x.2 with
      | some (tile, k) => failItem t tile .cp k ⟨.lapsed, 0, handle, none, false⟩
      | none => t) t
  | _ => s

/-- The lapse mark of a hold of any kind but the context's. -/
def lapseMark (s : State) (ctx i : Nat) (h : Hold) : State :=
  routeLapse (groupLapse (markLapse s ctx i h) ctx i h) ctx i h

/-- R215, steps 2 to 4, once all that the context runs stands: its engines' remaining items are reported failed, each launch's
status is written, and each hold is marked lapsed. -/
def stopContext (s : State) (ctx : Nat) : State :=
  let open' := openLaunches s ctx
  let s := (open'.map (boundTiles s)).flatten.foldl stopCore s
  let s := open'.foldl abortLaunch s
  let s : State := { s with dies := s.dies.map fun d => (d.1, { d.2 with keeper := d.2.keeper.filter fun k => k.ctx != ctx }) }
  let s := (s.ctx ctx).holds.foldl (fun s x =>
    match s.hold ctx x.1 with
    | some h => if h.live then
        (match h.kind with
        | .context => s.setHold ctx x.1 { h with live := false }
        | _ => lapseMark s ctx x.1 h)
      else s
    | none => s) s
  s.updCtx ctx fun c => { c with fifo := [], quota := [], calls := [], posted := none, orphan := false, frozenAt := none }

/-- HOLD_LAPSE_MARK (R108): a hold whose expiry has come is marked lapsed by its keeper; the Crown then ends the context whose
own it is (R215). -/
def holdLapse (s : State) (ctx i : Nat) : Option State :=
  match holdLapsable s ctx i with
  | none => none
  | some h =>
    match h.kind with
    | .context => some (s.setHold ctx i { h with live := false })
    | _ => some (lapseMark s ctx i h)

def execHoldLapseMark (ctx idx : Nat) (s : State) : Host.Outcome State Fault Refusal :=
  event "HOLD_LAPSE_MARK" s (holdLapse s ctx idx)

/-- A request of a thread or engine of a context. -/
def Req.inCtx (r : Req) (ctx : Nat) : Bool :=
  r.ctx == ctx && (match r.owner with | .peer _ _ _ _ _ => false | _ => true)

/-- R215, step 5: what is still under way for the context fails, its pages are zeroed, its key is free once the R160
conditions hold, its sampler stops with status 7, and no core counts as having worked for it (R145). -/
def closeContext (s : State) (ctx : Nat) : State :=
  let s := (s.reqs.filter (·.inCtx ctx)).foldl freeLock s
  let s : State := { s with reqs := s.reqs.filter fun r => !r.inCtx ctx }
  let c := s.ctx ctx
  let s := c.image.foldl (fun s p => zeroFrame s p.1 p.2) s
  let mine (d : Die) : Bool := match d.sampler with | some x => x.ctx == ctx | none => false
  let stopped := s.dies.any fun d => mine d.2 && (match d.2.sampler with | some x => x.running | none => false)
  let shared := s.ctxs.any fun x => x.1 != ctx && x.2.live && x.2.pkey == c.pkey
  let s : State := { s with
    usedFrames := s.usedFrames.filter fun f => !c.image.any fun p => p.1 == f.1
    cores := s.cores.map fun x => (x.1, if x.2.lastCtx = some ctx then { x.2 with lastCtx := none } else x.2)
    dies := s.dies.map fun d => (d.1, if mine d.2 then { d.2 with sampler := none } else d.2)
    freedKeys := if shared then s.freedKeys else tset s.freedKeys c.pkey.toNat 0
    boot := { s.boot with brims := tdel s.boot.brims ctx } }
  let s := s.updCtx ctx fun c =>
    { c with
      live := false, ring := none, image := [], lastGen := [], ending := false, quoteDue := false }
  let s := if stopped then s.putObs ctx ((s.obs ctx).set 8 7) else s
  match s.hold ctx 0 with
  | some h => s.setHold ctx 0 { h with live := false, free := true }
  | none => s

/-! ## Stopping a core to save it (R205) -/

/-- Where a wait stands for words that may be long in coming, or for a walk of the old tile, the instruction is taken back
and runs again after the resume. -/
def stopWait (s : State) (key : Nat) : State :=
  match (s.thr key).wait with
  | some .reservation | some .granule => (abandonWait s key).getD s
  | some .translation => s.updThr key fun t => { t with wait := none, missPage := none }
  | _ => s

/-- A thread of a core that stops has come to wait since: a synchronising load's granule was found not FULL (R83). -/
def waitsLate (s : State) (key : Nat) : Bool :=
  match (s.thr key).wait with
  | some .reservation | some .granule => (abandonWait s key).isSome
  | some .translation => true
  | _ => false

/-- Some thread of a core has. -/
def coreWaitsLate (s : State) (tile : Nat) : Bool := (List.range 13).any fun i => waitsLate s (keyOf tile i)

/-- What the threads of a core wait for is taken back. -/
def stopWaits (s : State) (tile : Nat) : State := (List.range 13).foldl (fun s i => stopWait s (keyOf tile i)) s

/-- The Crown starts a thread in slot 13 of a core that is to be saved or moved (R10, R205): firmware's own code, of which the spec
says what it does and no instruction; the steps of the save do its work (log entry 90). -/
def startFirmware (s : State) (tile : Nat) : State :=
  s.updThr (keyOf tile 13) fun t =>
    { Thread.reset with
      live := true, pc := Config.firmwareEntry, npc := Config.firmwareEntry, counters := t.counters, seq := t.seq, born := t.seq }

/-- The Crown tells a core to stop: its threads issue no more, and its engines start no further item. -/
def stopForSave (s : State) (tile : Nat) : State :=
  (List.range 13).foldl (fun s i => drainAll (keyOf tile i) (stopWait s (keyOf tile i)))
    (startFirmware (s.updCore tile fun c => { c with stopping := true }) tile)

/-- An engine that stands at an item boundary. -/
def engStands (e : Engine) : Bool :=
  match e.run with
  | some r => r.fault.isNone && r.items.all fun x => x.stage == .performed
  | none => true

/-- A core that stands still: every access and SFU result of its threads has come, every keeper has answered, the matrix
and copy engines are at a boundary, and the relay engine has finished its command. -/
def stands (s : State) (tile : Nat) : Bool :=
  let c := s.core tile
  c.stopping && engStands c.mx && engStands c.cp && c.rl.run.isNone &&
    (List.range 13).all fun i =>
      !s.busy (keyOf tile i) && !sfuPending s (keyOf tile i) &&
        (match (s.thr (keyOf tile i)).wait with | some (.keeper _) => false | _ => true)

/-! ## The end of a context (R215) -/

/-- What a context runs is told to stop: its threads at their boundaries, their accesses completing or failing, and its engines at
their next item. -/
def beginEnd (s : State) (ctx : Nat) : State :=
  let s := ((openLaunches s ctx).map (boundTiles s)).flatten.foldl stopForSave s
  s.updCtx ctx fun c => { c with ending := true }

/-- All that a context runs stands: no access of it is under way, and no engine is within an item. -/
def ctxStands (s : State) (ctx : Nat) : Bool :=
  !s.reqs.any (·.inCtx ctx) && ((openLaunches s ctx).map (boundTiles s)).flatten.all fun t =>
    let c := s.core t
    engStands c.mx && engStands c.cp && engStands c.rl &&
      (List.range 13).all fun i => !s.busy (keyOf t i) && !sfuPending s (keyOf t i)

/-- CONTEXT_END (R215): the driver ends a context, or the Crown one whose context hold has lapsed: what it runs is stopped, and
once all of it stands, the context ends. -/
def endContext (s : State) (ctx : Nat) : Option State :=
  let t := if (s.ctx ctx).ending then s else beginEnd s ctx
  let tiles := ((openLaunches t ctx).map (boundTiles t)).flatten
  if tiles.any (coreWaitsLate t) then some (tiles.foldl stopWaits t)
  else if ctxStands t ctx then some (closeContext (ctlUpdate (stopContext t ctx) ctx []) ctx)
  else if (s.ctx ctx).ending then none else some t

def execContextEnd (ctx : Nat) (s : State) : Host.Outcome State Fault Refusal :=
  event "CONTEXT_END" s (if !(s.ctx ctx).live ∨ !fwUp s then none else endContext s ctx)

/-- Locks and pod barrier arrivals of a core's threads move with it. -/
def rekeyHeld (s : State) (dest : Nat → Nat) : State :=
  let f (v : Resv) : Resv := if v.lock.isSome then { v with holder := keyOf (dest (tileOf v.holder)) (slotOf v.holder) } else v
  { s with
    banks := s.banks.map fun b => (b.1, { b.2 with resv := b.2.resv.map f })
    episodes := s.episodes.map fun e => { e with tiles := e.tiles.map fun x => (dest x.1, x.2) } }

/-- Messages and reports of a launch's threads name the threads where they now run. -/
def rekeySent (s : State) (lid : Nat) (dest : Nat → Nat) : State :=
  let k (n : Nat) : Nat := keyOf (dest (tileOf n)) (slotOf n)
  { s with
    net := s.net.map fun m => if m.lid = lid then { m with key := k m.key } else m
    reports := s.reports.map fun r => if r.2.1 = lid then (k r.1, r.2) else r }

/-- One tile in place of another. -/
def moved (a b : Nat) (t : Nat) : Nat := if t = a then b else t

/-- The image of a core. Atomic reservations of its threads end with the save. -/
def imageOf (s : State) (tile : Nat) : SavedCore where
  index := (s.core tile).index
  core := s.core tile
  threads := (List.range 13).map fun i => (i, { s.thr (keyOf tile i) with reserved := none })

/-- A core whose state has been saved is free, once the grants of the firmware class that the save takes have been (R171); atomic
reservations of its threads end. It goes on taking its steps (R11). -/
def releaseSaved (s : State) (tile : Nat) : State :=
  let s := owe s tile Config.saveGrants
  let s := (List.range 13).foldl (fun s i => endOwn s (keyOf tile i)) (stopFirmware s tile)
  let s := (List.range 13).foldl (fun s i => s.setThr (keyOf tile i) .reset) s
  s.updCore tile fun c =>
    { c with
      launch := none, inbox := [], spill := 0, stopping := false, mx := .reset, cp := .reset, rl := .reset
      parked := none, doneOp := none, trace := none, ring := [], dbgctl := 0, step := none }

/-- R206: a saved image restored into a core, its rotation table written through the shadow, the debug registers and
counters cleared (R220), on grants of the firmware class (R171). -/
def restoreCore (lid : Nat) (rot : List Word) (s : State) (p : SavedCore × Nat) : State :=
  let x := p.1
  let tile := p.2
  let ctx := (s.launch lid).ctx
  let s := owe s tile Config.saveGrants
  let s := if (s.core tile).lastCtx == some ctx then s else clearCore s tile
  let s := s.updCore tile fun c =>
    { x.core with
      launch := some lid, index := x.index, lastCtx := some ctx, rottab := c.rottab, shadow := c.shadow, pend := c.pend
      rej := c.rej, rotPos := c.rotPos, dbgctl := 0, step := none, bps := .replicate 4 0, watchAddr := .replicate 2 0
      watchCtl := .replicate 2 0, tlb := c.tlb, hist := .replicate 17 0, ce := .replicate 4 0, trace := none, stopping := false }
  let s := (List.range 4).foldl (fun s i => writeShadow s tile i (rot.getD i 0)) s
  let s := x.threads.foldl (fun s t => s.setThr (keyOf tile t.1) { t.2 with counters := .replicate 4 0 }) s
  let s := [13, 14, 15].foldl (fun s i => s.setThr (keyOf tile i) .reset) s
  { s with forwards := s.forwards.filter fun f => f.1 != tile }

/-- A launch's channels with their ends where its cores now stand. -/
def moveChans (l : Launch) (dest : Nat → Nat) : List Chan :=
  l.chans.map fun c => { c with wTile := dest c.wTile, rTile := dest c.rTile }

/-! ## Pre-emption (R205) -/

/-- The save: every core of the launch at once. -/
def saveLaunch (s : State) (lid : Nat) : State :=
  let tiles := boundTiles s lid
  let images := tiles.map (imageOf s)
  let s := tiles.foldl (fun s t => rekeyHeld (releaseSaved s t) (moved t (savedTile lid (s.core t).index))) s
  s.updLaunch lid fun l =>
    { l with state := .saved, saved := images, old := l.tiles, tiles := [], layout := (Config.saveLayout (runningImage s)).toNat }

/-- PREEMPT: the Crown stops every core of a launch; once all stand still, their state is saved and they are free. -/
def preempt (s : State) (lid : Nat) : Option State :=
  let tiles := boundTiles s lid
  if !fwUp s || (s.launch lid).state != .running || tiles.isEmpty then none
  else if tiles.any fun t => !(s.core t).stopping then some (tiles.foldl stopForSave s)
  else if tiles.any (coreWaitsLate s) then some (tiles.foldl stopWaits s)
  else if tiles.all (stands s) then some (saveLaunch s lid)
  else none

def execPreempt (launch : Nat) (s : State) : Host.Outcome State Fault Refusal := event "PREEMPT" s (preempt s launch)

/-- RESUME_LAUNCH (R206): a saved launch restored to free cores that its PLACE and its context's allotment admit, with a
rotation table that R12 admits. Places in `cores` of launch indices that have ended already are not used. -/
def resume (s : State) (lid : Nat) (cores : List Nat) (rot : List Word) : Option State :=
  let l := s.launch lid
  let pairs := l.saved.map fun x => (x, cores.getD x.index 4096)
  let used := pairs.map (·.2)
  let shadow : Vector Word 4 := Vector.ofFn fun i => rot.getD i.val 0
  if !fwUp s || !s.tbSet || l.state != .saved || !ctxLasts s l.ctx || used.any (fun t => 4096 ≤ t || !coreFree s t) ||
      used.eraseDups.length != used.length || !placeOk (shPlace l.payload) used ||
      (s.ctx l.ctx).cores < coresUsed s l.ctx + used.length || !rottabOk shadow || !fwEntriesOk s shadow then none
  else
    let oldOf (t : Nat) : Nat := match pairs.find? fun p => l.old.getD p.1.index 4096 == t with | some p => p.2 | none => t
    let here (t : Nat) : Nat := match pairs.find? fun p => savedTile lid p.1.index == t with | some p => p.2 | none => t
    let s := s.setLaunch lid { l with
      state := .running
      tiles := (List.range l.ncores).map fun i => match pairs.find? fun p => p.1.index == i with | some p => p.2 | none => 4096
      chans := moveChans l oldOf
      saved := []
      old := [] }
    some (pairs.foldl (restoreCore lid rot) (rekeySent (rekeyHeld s here) lid oldOf))

def execResumeLaunch (launch : Nat) (cores : List Nat) (rottab : List Word) (s : State) :
    Host.Outcome State Fault Refusal :=
  event "RESUME_LAUNCH" s (resume s launch cores rottab)

/-! ## Migration (R207) -/

/-- The active rotation table as shadow words. -/
def rottabWords (c : Core) : List Word :=
  (List.range 4).map fun i => BitVec.ofNat 64 (leNat ((List.range 8).map fun j => c.rottab.toArray.getD (8 * i + j) 0))

/-- The core moved: its state restored in the new tile, the old one forwarding. -/
def moveCore (s : State) (lid src dst life : Nat) : State :=
  let img := imageOf s src
  let rot := rottabWords (s.core src)
  let dest := moved src dst
  let s := rekeySent (rekeyHeld (releaseSaved s src) dest) lid dest
  let s := s.updLaunch lid fun l => { l with tiles := l.tiles.map dest, chans := moveChans l dest }
  let s := restoreCore lid rot s (img, dst)
  { s with forwards := s.forwards ++ [(src, dst, s.ptb + life)] }

/-- MIGRATE: the Crown stops one core of a running launch; once it stands still its state moves to a free core, and the
old tile forwards for `life` nanoseconds. -/
def migrate (s : State) (src dst life : Nat) : Option State :=
  match (s.core src).launch with
  | none => none
  | some lid =>
    if !fwUp s || (s.launch lid).state != .running || src == dst || 4096 ≤ dst || !coreFree s dst then none
    else if !(s.core src).stopping then some (stopForSave s src)
    else if coreWaitsLate s src then some (stopWaits s src)
    else if stands s src then some (moveCore s lid src dst life)
    else none

def execMigrate (src dst life : Nat) (s : State) : Host.Outcome State Fault Refusal :=
  event "MIGRATE" s (migrate s src dst life)

end Sys2Proof.Machine
end

