-- ==== Sys2Proof/Machine/Observe.lean ====
section
/-! DEFINITION. Observation (spec/10_observation.md): the debug modules, the trace encoder and the streaming sampler, and
the records by which a context's driver controls them. -/

namespace Sys2Proof.Machine

/-! ## Debug modules (R220 to R223) -/

/-- DEBUG_HALT: HALT written 1. -/
def execDebugHalt (tile : Nat) (s : State) : Host.Outcome State Fault Refusal :=
  event "DEBUG_HALT" s
    (if 4096 ≤ tile then none else some (writeDbgctl s tile ((s.core tile).dbgctl ||| 0x10000#64)))

/-- DEBUG_RESUME: HALT written 0. -/
def execDebugResume (tile : Nat) (s : State) : Host.Outcome State Fault Refusal :=
  event "DEBUG_RESUME" s
    (if 4096 ≤ tile then none else some (writeDbgctl s tile ((s.core tile).dbgctl &&& ~~~(0x10000#64))))

/-- DEBUG_STEP: STEP written with SSLOT; ignored while the core is not halted. -/
def execDebugStep (tile slot : Nat) (s : State) : Host.Outcome State Fault Refusal :=
  event "DEBUG_STEP" s
    (if 4096 ≤ tile ∨ 16 ≤ slot then none
    else some (writeDbgctl s tile
      (((s.core tile).dbgctl &&& ~~~(0xF00000#64)) ||| BitVec.ofNat 64 (slot * 2 ^ 20 + 2 ^ 19))))

/-- The breakpoints and watches of Table 10-2 written: reserved bits ignored, and a watch whose WLOG is reserved not
written. -/
def writeComparators (s : State) (tile : Nat) (ws : List Word) : State :=
  s.updCore tile fun c =>
    let ctl (i : Nat) (old : Word) : Word :=
      let w := ws.getD (10 + 2 * i) 0
      if 12 < w.toNat % 2 ^ 6 then old else w &&& 0xC00000000000003F#64
    { c with
      bps := Vector.ofFn fun i => ws.getD (4 + i.val) 0 &&& 0xFFFFFFFFFFFC#64
      watchAddr := Vector.ofFn fun i => ws.getD (9 + 2 * i.val) 0 &&& 0xFFFFFFFFFFFF#64
      watchCtl := Vector.ofFn fun i => ctl i.val c.watchCtl[i] }

/-- The debug registers of a tile put into a record's words (TYPE 6). -/
def readComparators (s : State) (tile : Nat) (ws : List Word) : List Word :=
  let c := s.core tile
  ((List.range 4).foldl (fun w i => w.set (4 + i) (c.bps.toArray.getD i 0)) (ws.set 3 (readDbgctl s tile))).take 9 ++
    [c.watchAddr[0], c.watchCtl[0], c.watchAddr[1], c.watchCtl[1]] ++ ws.drop 13

/-! ## The observation record (R229, Table 10-6) -/

def obType (ws : List Word) : Nat := wordAt ws 0 % 2 ^ 8
def obDie (ws : List Word) : Nat := bitsOf (wordAt ws 0) 11 10
def obTile (ws : List Word) : Nat := bitsOf (wordAt ws 0) 23 12
def obRing (ws : List Word) : Word := ws.getD 1 0
def obRows (ws : List Word) : Nat := bitsOf (wordAt ws 2) 47 16
def obHandle (ws : List Word) : Nat := wordAt ws 2 % 2 ^ 16
def obInterval (ws : List Word) : Nat := wordAt ws 3
def obSel (ws : List Word) (i : Nat) : BitVec 16 := BitVec.ofNat 16 (wordAt ws (4 + i / 4) / 2 ^ (16 * (i % 4)))

/-- Reserved bits of a selector are set (R228). -/
def selReserved (x : BitVec 16) : Bool :=
  match x.toNat / 2 ^ 12 with
  | 0 => x != 0
  | 1 => x.toNat % 2 ^ 6 != 0
  | 2 => x.toNat % 2 ^ 12 / 2 ^ 5 != 0
  | 3 | 4 => x.toNat % 2 ^ 12 / 4 != 0
  | 5 => x.toNat % 2 ^ 8 / 4 != 0
  | _ => false

/-- A selector is refused (R228): its group, or what it names. -/
def selRefused (ctx : Nat) (x : BitVec 16) : Bool :=
  let g := x.toNat / 2 ^ 12
  5 < g || (3 ≤ g && ctx != 0) || (g == 2 && decide (16 < x.toNat % 2 ^ 5)) ||
    (g == 5 && (decide (11 < x.toNat / 2 ^ 8 % 2 ^ 4) || x.toNat % 4 == 3))

/-- Status 3: a reserved field is nonzero, or a value that the table does not give (DESIGN CHOICE for the latter, log
entry 21). -/
def obReserved (ws : List Word) : Bool :=
  let t := obType ws
  let dbg := t == 5 || t == 6
  t == 0 || 6 < t || wordAt ws 0 / 2 ^ 24 != 0 || bitsOf (wordAt ws 0) 9 8 != 0 || wordAt ws 2 / 2 ^ 48 != 0 ||
    (dbg && wordAt ws 1 != 0) || (!dbg && (List.range 4).any fun i => wordAt ws (9 + i) != 0) ||
    (List.range 3).any (fun i => wordAt ws (13 + i) != 0) ||
    ((t == 1 || t == 3) && (ptrVa (obRing ws) % 64 != 0 || obRows ws == 0)) ||
    (t == 1 && (decide (2 ^ 32 < obInterval ws) || (List.range 16).any fun i => selReserved (obSel ws i)))

/-- A record answered: it stands in its function's mailbox with the status in word 8. -/
def obAnswer (s : State) (ctx : Nat) (ws : List Word) (status : Nat) : State :=
  s.putObs ctx (ws.set 8 (BitVec.ofNat 64 status))

/-- The status in a mailbox changed. -/
def obStatus (s : State) (ctx status : Nat) : State :=
  s.putObs ctx ((s.obs ctx).set 8 (BitVec.ofNat 64 status))

/-- The bytes of a live range hold from a pointer on: none where the handle names no live range. -/
def ringRoom (s : State) (ctx handle : Nat) (p : Word) : Option Nat :=
  match s.hold ctx (handle % 4096) with
  | some h =>
    match h.kind with
    | .range va pages log _ _ =>
      if h.live && h.reuse.toNat == handle / 4096 then
        some (if va ≤ ptrVa p then va + pages * 2 ^ log - ptrVa p else 0)
      else none
    | _ => none
  | none => none

/-- A launch of a context holds a tile. -/
def tileHeld (s : State) (ctx tile : Nat) : Bool := (s.core tile).launch.isSome && ctxOf s tile == ctx

/-- A record of a type that its Brim takes now. -/
def obTaken (s : State) (ctx : Nat) (ws : List Word) (t : Nat) : Bool :=
  fwUp s && (s.ctx ctx).live && ws.length == 16 && obType ws == t

/-- The status a sampler start is answered with, the first that applies. -/
def startStatus (s : State) (ctx : Nat) (ws : List Word) : Nat :=
  let other := match (s.die (obDie ws)).sampler with | some x => x.running && x.ctx != ctx | none => false
  if obReserved ws then 3
  else if other then 4
  else if obInterval ws < 1000 then 5
  else match ringRoom s ctx (obHandle ws) (obRing ws) with
    | none => 2
    | some n => if n < 192 * obRows ws ∨ (List.range 16).any fun i => selRefused ctx (obSel ws i) then 6 else 0

/-- SAMPLER_START; a record of no assigned TYPE is answered here too, with status 3. -/
def execSamplerStart (ctx : Nat) (words : List Word) (s : State) : Host.Outcome State Fault Refusal :=
  event "SAMPLER_START" s
    (if !(obTaken s ctx words 1 || (obTaken s ctx words (obType words) && (obType words == 0 || 6 < obType words))) then none
    else
      let st := startStatus s ctx words
      let t := obAnswer s ctx words st
      some (if st ≠ 0 then t
        else t.updDie (obDie words) fun d => { d with sampler := some {
          ctx := ctx
          ring := obRing words
          handle := obHandle words
          rows := obRows words
          interval := obInterval words
          sels := (List.range 16).map (obSel words)
          row := 0
          pos := 0
          missed := 0
          latched := s.ptb / obInterval words
          running := true
          status := 0 } }))

/-- SAMPLER_STOP: on request, status 1. -/
def execSamplerStop (ctx : Nat) (words : List Word) (s : State) : Host.Outcome State Fault Refusal :=
  event "SAMPLER_STOP" s
    (if !obTaken s ctx words 2 then none
    else if obReserved words then some (obAnswer s ctx words 3)
    else match (s.die (obDie words)).sampler with
      | some x =>
        if x.running && x.ctx != ctx then some (obAnswer s ctx words 4)
        else some ((obAnswer s ctx words 1).updDie (obDie words) fun d => { d with sampler := some { x with running := false, status := 1 } })
      | none => some (obAnswer s ctx words 1))

/-! ## The sampler's rows (R227, Table 10-5) -/

/-- The cores of a die that a context holds. -/
def heldCores (s : State) (ctx die : Nat) : List Core :=
  (s.cores.filter fun c => dieOf c.1 == die && tileHeld s ctx c.1).map (·.2)

/-- A sum modulo 2^64. -/
def sumWords (l : List Word) : Word := l.foldl (· + ·) 0

/-- The value a selector latches. -/
def selValue (s : State) (ctx die : Nat) (x : BitVec 16) : Word :=
  let n := x.toNat
  match n / 2 ^ 12 with
  | 1 => sumWords ((s.cores.filter fun c => dieOf c.1 == die && tileHeld s ctx c.1).map fun c =>
      (s.thr (keyOf c.1 (n / 2 ^ 8 % 2 ^ 4))).counters.toArray.getD (n / 2 ^ 6 % 4) 0)
  | 2 => sumWords ((heldCores s ctx die).map fun c => c.hist.toArray.getD (n % 2 ^ 5) 0)
  | 3 => sumWords ((s.cores.filter fun c => dieOf c.1 == die).map fun c => c.2.ce.toArray.getD (n % 4) 0)
  | 4 => (s.die die).pfCounts.toArray.getD (n % 4) 0
  | 5 =>
    let p := s.port (n / 2 ^ 8 % 2 ^ 4)
    match n % 4 with | 0 => p.crcErr | 1 => p.spare | _ => p.retrain
  | _ => 0

/-- A row of 192 bytes. -/
def samplerRow (s : State) (die : Nat) (x : Sampler) : List Byte :=
  leBytes 8 s.ptb ++ leBytes 4 x.row ++ leBytes 4 x.missed ++
    (x.sels.map fun v => leBytes 8 (selValue s x.ctx die v).toNat).flatten ++ List.replicate 48 0

/-- Firmware writes bytes through a context's translation; whole words lose their poison (Table 9-6). -/
def fwWrite (s : State) (ctx va : Nat) (bs : List Byte) : State :=
  let t := writeVia s ctx va bs
  let words := (List.range (bs.length / 8)).filterMap fun i =>
    match walk s ctx (va + 8 * i) with | .ok e => some (e.addr (va + 8 * i) / 8) | .error _ => none
  { t with poison := t.poison.filter fun w => !words.contains w }

/-- A pointer moved on by bytes within its range. -/
def ptrOn (p : Word) (n : Nat) : Word := BitVec.ofNat 64 (p.toNat / 2 ^ 48 * 2 ^ 48 + (ptrVa p + n) % 2 ^ 48)

/-- SAMPLER_LATCH: at a multiple of INTERVAL the die's counters are latched and a row is written and stamped; a ring that
has lapsed stops the sampler with status 2. -/
def samplerLatch (s : State) (die : Nat) : Option State :=
  match (s.die die).sampler with
  | none => none
  | some x =>
    let k := s.ptb / x.interval
    if !x.running || k ≤ x.latched then none
    else
      let x := { x with missed := x.missed + (k - x.latched - 1), latched := k }
      let p := ptrOn x.ring (x.pos * 192)
      if (ringRoom s x.ctx x.handle x.ring).isNone || !spanOk s x.ctx p 192 needW then
        some (obStatus (s.updDie die fun d => { d with sampler := some { x with running := false, status := 2 } }) x.ctx 2)
      else
        let t := fwWrite s x.ctx (ptrVa p) (samplerRow s die x)
        let t := match walk t x.ctx (ptrVa p + 128) with
          | .ok e =>
            let pa := e.addr (ptrVa p + 128)
            if isSram pa then t.setTag (pa / 64) (stampByte (x.row % 128)) else t
          | .error _ => t
        some (t.updDie die fun d => { d with sampler := some { x with
          row := (x.row + 1) % 2 ^ 32, pos := (x.pos + 1) % max 1 x.rows, missed := 0 } })

def execSamplerLatch (die : Nat) (s : State) : Host.Outcome State Fault Refusal :=
  event "SAMPLER_LATCH" s (samplerLatch s die)

/-! ## The trace encoder (R226) -/

/-- The loss record of a trace that has dropped records: it takes the place that came free. -/
def lossRecord (t : Trace) : List (Word × Word) :=
  if t.drops = 0 then []
  else [(BitVec.ofNat 64 (6 * 2 ^ 60 + (Config.lossSlot t.drops).toNat * 2 ^ 56), BitVec.ofNat 64 t.drops)]

/-- The oldest buffered record of a core written to its range; a range that has lapsed ends the trace with status 2. -/
def traceDrain (s : State) (tile : Nat) : State :=
  match (s.core tile).trace with
  | none => s
  | some t =>
    match t.buf with
    | [] => s
    | (a, b) :: rest =>
      let p := ptrOn t.ring t.pos
      if !spanOk s t.ctx p 16 needW then stopTraces s t.ctx t.handle
      else
        (fwWrite s t.ctx (ptrVa p) (leBytes 8 a.toNat ++ leBytes 8 b.toNat)).updCore tile fun c =>
          { c with trace := some { t with buf := rest ++ lossRecord t, drops := 0, pos := (t.pos + 16) % max 16 t.size } }

/-- TRACE_START: the encoder writes NROWS × 4 records into the range, and TREN is set. -/
def execTraceStart (ctx : Nat) (words : List Word) (s : State) : Host.Outcome State Fault Refusal :=
  event "TRACE_START" s
    (if !obTaken s ctx words 3 then none
    else if obReserved words then some (obAnswer s ctx words 3)
    else if !tileHeld s ctx (obTile words) then some (obAnswer s ctx words 8)
    else match ringRoom s ctx (obHandle words) (obRing words) with
      | none => some (obAnswer s ctx words 2)
      | some n =>
        if n < 64 * obRows words then some (obAnswer s ctx words 6)
        else some ((obAnswer s ctx words 0).updCore (obTile words) fun c =>
          { c with
            dbgctl := c.dbgctl ||| 0x100#64
            trace := some {
              ring := obRing words
              handle := obHandle words
              ctx := ctx
              size := 64 * obRows words
              pos := 0
              buf := []
              drops := 0 } }))

/-- TRACE_STOP: what is buffered is written, a loss record too, and TREN cleared. -/
def execTraceStop (ctx : Nat) (words : List Word) (s : State) : Host.Outcome State Fault Refusal :=
  event "TRACE_STOP" s
    (if !obTaken s ctx words 4 then none
    else if obReserved words then some (obAnswer s ctx words 3)
    else if !tileHeld s ctx (obTile words) then some (obAnswer s ctx words 8)
    else
      let tile := obTile words
      let n := match (s.core tile).trace with | some t => t.buf.length + 1 | none => 0
      let t := (List.range n).foldl (fun t _ => traceDrain t tile) s
      some ((obAnswer t ctx words 1).updCore tile fun c => { c with trace := none, dbgctl := c.dbgctl &&& ~~~(0x100#64) }))

/-! ## Debug records (R229) -/

/-- The Crown in the place of a context's number: it writes a tile's debug block itself (R220), whatever the tile runs, and
without a mailbox. -/
def crownId : Nat := 2 ^ 16

/-- DEBUG_WRITE: a driver's record of TYPE 5, or the Crown's own write of the same registers. -/
def execDebugWrite (ctx : Nat) (words : List Word) (s : State) : Host.Outcome State Fault Refusal :=
  event "DEBUG_WRITE" s
    (if ctx = crownId then
      (if fwUp s ∧ words.length = 16 then
        some (writeDbgctl (writeComparators s (obTile words) words) (obTile words) (words.getD 3 0))
      else none)
    else if !obTaken s ctx words 5 then none
    else if obReserved words then some (obAnswer s ctx words 3)
    else if !tileHeld s ctx (obTile words) then some (obAnswer s ctx words 8)
    else some (obAnswer (writeDbgctl (writeComparators s (obTile words) words) (obTile words) (words.getD 3 0)) ctx words 0))

def execDebugRead (ctx : Nat) (words : List Word) (s : State) : Host.Outcome State Fault Refusal :=
  event "DEBUG_READ" s
    (if !obTaken s ctx words 6 then none
    else if obReserved words then some (obAnswer s ctx words 3)
    else if !tileHeld s ctx (obTile words) then some (obAnswer s ctx words 8)
    else some (obAnswer s ctx (readComparators s (obTile words) words) 0))

end Sys2Proof.Machine
end

