-- ==== Sys2Proof/Machine/Fetch.lean ====
section
/-! DEFINITION. Fetch and the rules of a word's place: reading instruction words at the program counter (R232, R245,
R147, R208), breakpoints (R221), the class of a word (R233), the rules of a pair (R234), and the registers that an
instruction names (R73) and writes (R234). -/

namespace Sys2Proof.Machine

/-! ## Words of memory (R232, R245) -/

/-- The four bytes of an instruction word, little-endian (R1). -/
def wordAtPa (s : State) (lid pa : Nat) : IWord :=
  BitVec.ofNat 32 (leNat ((List.range 4).map fun i => readAt s lid (pa + i)))

/-- A word read at an address of the running thread: the fault a walk delivered, a TLB miss, XLATE (fetch needs X,
R147; the generation of a page is no part of a fetch, R153), UNCORR with DETAIL 5 (Table 9-6), or the word. -/
def readInstr (s : State) (va : Nat) : M IWord := do
  let tile := tileOf s.cur
  match s.me.walkFault with
  | some (p, c) => if p = va / 4096 then raisePrecise .xlate c va
  | none => .ok ()
  match tlbLookup s tile (ctxOf s tile) va with
  | none => .error (.miss (va / 4096))
  | some e =>
    match leafCause s e va needX with
    | some c => raisePrecise .xlate c va
    | none =>
      ensure (!s.poison.contains (e.addr va / 8)) .uncorr 5 va
      .ok (wordAtPa s (lidOf s tile) (e.addr va))

/-- A word at an address: from the words fetched ahead where it is among them. -/
def fetchWord (s : State) (va : VAddr) : M IWord :=
  match s.me.ibuf.find? fun p => p.1 == va with
  | some p => .ok p.2
  | none => readInstr s va.toNat

/-- Up to `n` words from an address up, as far as they can be fetched. -/
def lookAhead (s : State) (va : VAddr) : Nat → List (VAddr × IWord)
  | 0 => []
  | n + 1 =>
    match readInstr s va.toNat with
    | .ok w => (va, w) :: lookAhead s (va + 4) n
    | .error _ => []

/-- R245: where the word at the program counter has not been fetched, it is fetched now, with words ahead of it, 64
bytes at most; how many is the next of `fetchAhead` (the spec gives the bound only; log entry 2). -/
def fetchAround (s : State) : State :=
  let have? : Bool := match s.me.ibuf with | (a, _) :: _ => a == s.me.pc | [] => false
  if have? then s
  else
    { s.updMe (fun t => { t with ibuf := lookAhead s t.pc (1 + min 16 (s.fetchAhead.headD 0)) }) with
      fetchAhead := s.fetchAhead.drop 1 }

/-- R221: an armed breakpoint at the program counter. -/
def bpHit (s : State) : Bool :=
  let c := s.myCore
  !s.me.noHit && (List.range 4).any fun n =>
    c.dbgctl.getLsbD (12 + n) && (c.bps.toList.getD n 0).toNat % 2 ^ 48 / 4 == s.me.pc.toNat / 4

/-- R221: the hit is taken before the fetch faults: DEBUG with DETAIL 1, or the core halts. -/
def breakpoint (s : State) : M Unit :=
  if bpHit s then (if s.myCore.dbgctl.getLsbD 9 then raisePrecise .debug 1 s.me.pc.toNat else .error .stopCore)
  else .ok ()

/-- The words of the instruction or pair at the program counter, and the state that holds them in the fetch buffer.
A pair's second word is fetched too (R232); its XLATE carries its own address (R235). -/
def fetchInstr (s : State) : M (State × IWord × Option IWord) := do
  breakpoint s
  let s := fetchAround s
  let w ← fetchWord s s.me.pc
  if pairBit w then
    let w2 ← fetchWord s (s.me.pc + 4)
    let s := if s.me.ibuf.length < 2 then s.updMe fun t => { t with ibuf := t.ibuf ++ [(t.pc + 4, w2)] } else s
    .ok (s, w, some w2)
  else .ok (s, w, none)

/-- The instruction of a word, or ILLEGAL with the word in TRAPVAL (R242, Table 9-1). -/
noncomputable def decodeAt (w : IWord) : M Instr :=
  match decodeWord w with
  | .ok i => .ok i
  | .error .encoding => raisePrecise .illegal 1 w.toNat
  | .error .channel => raisePrecise .illegal 2 w.toNat

/-! ## Classes (R233, Table 11-4) -/

def majorOf (w : IWord) : Nat := fMajor w.toNat

/-- A scalar-class word. -/
def isScalarWord (w : IWord) : Bool :=
  let m := majorOf w
  (0x01 ≤ m && m ≤ 0x0E) || m == 0x20 || m == 0x21 || (0x26 ≤ m && m ≤ 0x2A) || m == 0x2D ||
    (m == 0x25 && fFn w.toNat < 0x40)

/-- A vector-class word. -/
def isVectorWord (w : IWord) : Bool :=
  let m := majorOf w
  (0x10 ≤ m && m ≤ 0x1B) || (0x22 ≤ m && m ≤ 0x24) || (m == 0x25 && 0x40 ≤ fFn w.toNat)

/-- A solo word. -/
def isSoloWord (w : IWord) : Bool :=
  let m := majorOf w
  m == 0x2B || m == 0x2C || m == 0x38

/-- A word that accesses memory. -/
def isMemWord (w : IWord) : Bool :=
  let m := majorOf w
  (0x20 ≤ m && m ≤ 0x28) || m == 0x2A || m == 0x2D

/-! ## The registers of an instruction
A register is numbered by its file: scalars from 0, vectors from 32, masks from 64, predicates from 72. -/

/-- A vector field that names a register. -/
def vNum (f : Nat) : List Nat := if f < 24 then [32 + f] else []

/-- The scalar and vector registers an instruction names, source or destination (R73), `s31` of `call`, `callr` and
`ret` (R15) and the registers `hstart` and `hprot` pass on (R331) among them. -/
def names (i : Instr) : List Nat :=
  match i with
  | .add d a b _ | .sub d a b _ | .and d a b _ | .or d a b _ | .xor d a b _ | .andn d a b _ | .sll d a b _
  | .srl d a b _ | .sra d a b _ | .min d a b _ | .max d a b _ | .minu d a b _ | .maxu d a b _ | .slt d a b _
  | .sltu d a b _ | .mul d a b _ | .mulh d a b _ | .mulhu d a b _ | .mulhm d a b _ | .div d a b _
  | .divu d a b _ | .rem d a b _ | .remu d a b _ | .bfx d a b _ | .bfxu d a b _ | .bfi d a b _
  | .ptrAdd d a b _ | .ptrSub d a b _ | .ptrSetFmt d a b _ | .ptrSetBlen d a b _ | .ptrSetGen d a b _
  | .ptrSetVa d a b _ | .sel d _ a b _ | .ldSync _ d a b _ | .ldSyncU _ d a b _ | .amoAdd _ d a b _
  | .amoAnd _ d a b _ | .amoOr _ d a b _ | .amoXor _ d a b _ | .amoMin _ d a b _ | .amoMax _ d a b _
  | .amoMinu _ d a b _ | .amoMaxu _ d a b _ | .amoSwap _ d a b _ | .amoCas _ d a b _ | .holdLk d a b _
  | .holdRt d a b _ | .holdGrp d a b _ => [d.val, a.val, b.val]
  | .addi d a _ | .andi d a _ | .ori d a _ | .xori d a _ | .slli d a _ | .srli d a _ | .srai d a _
  | .slti d a _ | .clz d a _ | .ctz d a _ | .popc d a _ | .brev d a _ | .sextB d a _ | .sextH d a _
  | .sextW d a _ | .zextB d a _ | .zextH d a _ | .zextW d a _ | .ptrGetFmt d a _ | .ptrGetBlen d a _
  | .ptrGetGen d a _ | .ptrGetVa d a _ | .gtagRd d a _ | .rsv _ d a _ | .life d a _ | .hinfo d a _
  | .eseq _ d a _ | .trap d a _ | .hcall d a _ => [d.val, a.val]
  | .li d _ | .lio d _ | .mtos d _ _ | .loop d _ | .loopP d _ | .mpop d _ | .mfirst d _ | .tick d _
  | .chlen d _ _ | .tid d _ | .sysrd d _ _ => [d.val]
  | .ptrChk _ a b _ | .cmp _ _ a b _ | .gtagSet a b _ | .wrv _ a b _ | .renew a b _ | .barPod a b _ =>
    [a.val, b.val]
  | .vbcast _ d a _ => vNum d.val ++ [a.val]
  | .vins _ d a b _ => vNum d.val ++ [a.val, b.val]
  | .vext _ d a b _ | .vextU _ d a b _ => [d.val] ++ vNum a.val ++ [b.val]
  | .stom _ a _ | .jr a _ | .cmpi _ _ a _ | .gtagClr a _ | .pf a _ | .tickw a _ | .dline a _ | .done a _
  | .hjoin a _ | .launchGrid a _ | .launchPipe a _ | .ewait a _ | .syswr _ a _ | .tlbinv a _ => [a.val]
  | .call _ | .ret _ => [31]
  | .callr a _ => [a.val, 31]
  | .vadd _ d a b _ | .vsub _ d a b _ | .vmul _ d a b _ | .vmulh _ d a b _ | .vmulhu _ d a b _
  | .vmin _ d a b _ | .vmax _ d a b _ | .vminu _ d a b _ | .vmaxu _ d a b _ | .vshl _ d a b _ | .vshr _ d a b _
  | .vsra _ d a b _ | .vand d a b _ | .vor d a b _ | .vxor d a b _ | .vandn d a b _ | .vperm _ _ d a b _
  | .vpackI _ d a b _ | .vpackU _ d a b _ | .vfadd _ d a b _ | .vfsub _ d a b _ | .vfmul _ d a b _
  | .vfdiv _ d a b _ | .vfmin _ d a b _ | .vfmax _ d a b _ | .qadd d a b _ | .qsub d a b _ | .qmul d a b _
  | .qdig d a b _ | .qenc d a b _ | .qdiv d a b _ | .baddq _ d a b => vNum d.val ++ vNum a.val ++ vNum b.val
  | .vmad _ d a b _ | .vshuf _ _ d a b _ | .vdot4 _ _ d a b _ | .vdot4Sat _ _ d a b _ | .vfma _ d a b _
  | .vfms _ d a b _ | .vfnma _ d a b _ | .vfnms _ d a b _ | .vfdot2 d a b _ | .bscaleF32 d a b _
  | .bscaleI32 d a b _ => vNum d.val ++ vNum a.val ++ vNum b.val
  | .vabs _ d a _ | .vshlImm _ d a _ _ | .vshrImm _ d a _ _ | .vsraImm _ d a _ _ | .vshlImmHi d a _ _
  | .vshrImmHi d a _ _ | .vsraImmHi d a _ _ | .vaddi _ d a _ _ | .vcompress _ d a _ _ | .vexpand _ d a _ _
  | .vscanAdd _ _ d a _ | .vsatSigned _ d a _ | .vsatUnsigned _ d a _ | .vunpackLoI _ d a _
  | .vunpackHiI _ d a _ | .vunpackLoU _ d a _ | .vunpackHiU _ d a _ | .vfsqrt _ d a _ | .vfabs _ d a _
  | .vfneg _ d a _ | .vfcvt _ _ _ d a _ | .vfcls _ d a _ | .vfround _ _ d a _ | .vrcp d a _ | .vrsq d a _
  | .vexp2 d a _ | .vlog2 d a _ | .vsin d a _ | .vcos d a _ | .vtanh d a _ | .vsig d a _ | .qneg d a _
  | .qval d a _ | .qinv d a _ | .bquant _ d a | .bdeq _ d a _ => vNum d.val ++ vNum a.val
  | .vli _ d _ _ => vNum d.val
  | .vcmp _ _ _ a b _ | .vfcmp _ _ _ a b _ | .qcmpEq _ a b _ | .qcmpNe _ a b _ => vNum a.val ++ vNum b.val
  | .vrot _ _ d a b _ => vNum d.val ++ vNum a.val ++ [b.val]
  | .vredAdd _ _ d a _ | .vredMin _ _ d a _ | .vredMax _ _ d a _ | .vredMinu _ _ d a _ | .vredMaxu _ _ d a _
  | .vredAnd _ _ d a _ | .vredOr _ _ d a _ | .vredXor _ _ d a _ | .bamax d a _ | .enq _ d a _ =>
    [d.val] ++ vNum a.val
  | .qdec n m a _ => vNum n.val ++ vNum m.val ++ vNum a.val
  | .ld _ _ _ d base _ _ => [d.val, base.val]
  | .st _ _ base _ d _ => [base.val, d.val]
  | .vld _ _ v base _ | .vldF _ v base _ => vNum v.val ++ [base.val]
  | .vldS _ _ v base aux _ | .vldr _ v base aux | .vldBlk _ v base aux => vNum v.val ++ [base.val, aux.val]
  | .vst _ _ base v _ | .vstF _ base v _ => [base.val] ++ vNum v.val
  | .vstS _ _ base v aux _ | .vstBlk _ base v aux => [base.val] ++ vNum v.val ++ [aux.val]
  | .vgath _ _ v base aux _ => vNum v.val ++ [base.val] ++ vNum aux.val
  | .vscat _ _ base aux v _ => [base.val] ++ vNum aux.val ++ vNum v.val
  | .vldSync d a b _ => vNum d.val ++ [a.val, b.val]
  | .holdRng d a b _ => [d.val, a.val, b.val, d.val + 1]
  | .msend a b _ => [a.val] ++ vNum b.val
  | .hstart d a b _ | .hprot d a b _ => [d.val, a.val, b.val, 1, 2, 3]
  | _ => []

/-- The registers an instruction writes. -/
def writes (i : Instr) : List Nat :=
  match i with
  | .add d _ _ _ | .sub d _ _ _ | .and d _ _ _ | .or d _ _ _ | .xor d _ _ _ | .andn d _ _ _ | .sll d _ _ _
  | .srl d _ _ _ | .sra d _ _ _ | .min d _ _ _ | .max d _ _ _ | .minu d _ _ _ | .maxu d _ _ _ | .slt d _ _ _
  | .sltu d _ _ _ | .addi d _ _ | .andi d _ _ | .ori d _ _ | .xori d _ _ | .slli d _ _ | .srli d _ _
  | .srai d _ _ | .slti d _ _ | .mul d _ _ _ | .mulh d _ _ _ | .mulhu d _ _ _ | .mulhm d _ _ _ | .div d _ _ _
  | .divu d _ _ _ | .rem d _ _ _ | .remu d _ _ _ | .clz d _ _ | .ctz d _ _ | .popc d _ _ | .brev d _ _
  | .sextB d _ _ | .sextH d _ _ | .sextW d _ _ | .zextB d _ _ | .zextH d _ _ | .zextW d _ _ | .bfx d _ _ _
  | .bfxu d _ _ _ | .bfi d _ _ _ | .li d _ | .lio d _ | .ptrAdd d _ _ _ | .ptrSub d _ _ _ | .ptrSetFmt d _ _ _
  | .ptrSetBlen d _ _ _ | .ptrSetGen d _ _ _ | .ptrSetVa d _ _ _ | .ptrGetFmt d _ _ | .ptrGetBlen d _ _
  | .ptrGetGen d _ _ | .ptrGetVa d _ _ | .sel d _ _ _ _ | .vext _ d _ _ _ | .vextU _ d _ _ _ | .mtos d _ _
  | .loop d _ | .loopP d _ | .mpop d _ | .mfirst d _ | .vredAdd _ _ d _ _ | .vredMin _ _ d _ _
  | .vredMax _ _ d _ _ | .vredMinu _ _ d _ _ | .vredMaxu _ _ d _ _ | .vredAnd _ _ d _ _ | .vredOr _ _ d _ _
  | .vredXor _ _ d _ _ | .bamax d _ _ | .ld _ _ _ d _ _ _ | .ldSync _ d _ _ _ | .ldSyncU _ d _ _ _
  | .gtagRd d _ _ | .rsv _ d _ _ | .amoAdd _ d _ _ _ | .amoAnd _ d _ _ _ | .amoOr _ d _ _ _ | .amoXor _ d _ _ _
  | .amoMin _ d _ _ _ | .amoMax _ d _ _ _ | .amoMinu _ d _ _ _ | .amoMaxu _ d _ _ _ | .amoSwap _ d _ _ _
  | .amoCas _ d _ _ _ | .holdLk d _ _ _ | .holdRt d _ _ _ | .holdGrp d _ _ _ | .life d _ _ | .hinfo d _ _
  | .tick d _ | .chlen d _ _ | .hstart d _ _ _ | .hprot d _ _ _ | .tid d _ | .enq _ d _ _ | .eseq _ d _ _
  | .sysrd d _ _ | .hcall d _ _ => [d.val]
  | .ptrChk d _ _ _ | .cmp _ d _ _ _ | .kand d _ _ _ | .kor d _ _ _ | .kxor d _ _ _ | .knot d _ _ | .kset d _ _
  | .mtokAny d _ _ | .mtokAll d _ _ | .mtokAllD d _ _ | .cmpi _ d _ _ => [72 + d.val]
  | .vbcast _ d _ _ | .vins _ d _ _ _ | .vmad _ d _ _ _ | .vshuf _ _ d _ _ _ | .vdot4 _ _ d _ _ _
  | .vdot4Sat _ _ d _ _ _ | .vfma _ d _ _ _ | .vfms _ d _ _ _ | .vfnma _ d _ _ _ | .vfnms _ d _ _ _
  | .vfdot2 d _ _ _ | .bscaleF32 d _ _ _ | .bscaleI32 d _ _ _ => vNum d.val
  | .ktom d _ _ | .stom d _ _ | .mand d _ _ | .mor d _ _ | .mxor d _ _ | .mnot d _ | .vcmp _ _ d _ _ _
  | .vfcmp _ _ d _ _ _ | .qcmpEq d _ _ _ | .qcmpNe d _ _ _ => [64 + d.val]
  | .call _ | .callr _ _ => [31]
  | .vadd _ d _ _ _ | .vsub _ d _ _ _ | .vmul _ d _ _ _ | .vmulh _ d _ _ _ | .vmulhu _ d _ _ _
  | .vmin _ d _ _ _ | .vmax _ d _ _ _ | .vminu _ d _ _ _ | .vmaxu _ d _ _ _ | .vabs _ d _ _ | .vshl _ d _ _ _
  | .vshr _ d _ _ _ | .vsra _ d _ _ _ | .vshlImm _ d _ _ _ | .vshrImm _ d _ _ _ | .vsraImm _ d _ _ _
  | .vshlImmHi d _ _ _ | .vshrImmHi d _ _ _ | .vsraImmHi d _ _ _ | .vaddi _ d _ _ _ | .vli _ d _ _
  | .vand d _ _ _ | .vor d _ _ _ | .vxor d _ _ _ | .vandn d _ _ _ | .vperm _ _ d _ _ _ | .vrot _ _ d _ _ _
  | .vcompress _ d _ _ _ | .vexpand _ d _ _ _ | .vscanAdd _ _ d _ _ | .vsatSigned _ d _ _
  | .vsatUnsigned _ d _ _ | .vpackI _ d _ _ _ | .vpackU _ d _ _ _ | .vunpackLoI _ d _ _ | .vunpackHiI _ d _ _
  | .vunpackLoU _ d _ _ | .vunpackHiU _ d _ _ | .vfadd _ d _ _ _ | .vfsub _ d _ _ _ | .vfmul _ d _ _ _
  | .vfdiv _ d _ _ _ | .vfsqrt _ d _ _ | .vfmin _ d _ _ _ | .vfmax _ d _ _ _ | .vfabs _ d _ _ | .vfneg _ d _ _
  | .vfcvt _ _ _ d _ _ | .vfcls _ d _ _ | .vfround _ _ d _ _ | .vrcp d _ _ | .vrsq d _ _ | .vexp2 d _ _
  | .vlog2 d _ _ | .vsin d _ _ | .vcos d _ _ | .vtanh d _ _ | .vsig d _ _ | .qadd d _ _ _ | .qsub d _ _ _
  | .qneg d _ _ | .qmul d _ _ _ | .qval d _ _ | .qdig d _ _ _ | .qenc d _ _ _ | .qinv d _ _ | .qdiv d _ _ _
  | .bquant _ d _ | .bdeq _ d _ _ | .baddq _ d _ _ | .vldSync d _ _ _ => vNum d.val
  | .qdec n m _ _ => vNum n.val ++ vNum m.val
  | .vld _ _ v _ _ | .vldS _ _ v _ _ _ | .vldF _ v _ _ | .vgath _ _ v _ _ _ | .vldBlk _ v _ _ => vNum v.val
  | .vldr k v _ aux => [72 + k.val] ++ vNum v.val ++ [aux.val]
  | .holdRng d _ _ _ => [d.val, d.val + 1]
  | _ => []

/-- Instructions whose destination is one of their sources. -/
def readsDest (i : Instr) : Bool :=
  match i with
  | .bfi _ _ _ _ | .lio _ _ | .loop _ _ | .loopP _ _ | .amoCas _ _ _ _ _ | .vins _ _ _ _ _ | .vmad _ _ _ _ _
  | .vshuf _ _ _ _ _ _ | .vdot4 _ _ _ _ _ _ | .vdot4Sat _ _ _ _ _ _ | .vfma _ _ _ _ _ | .vfms _ _ _ _ _ | .vfnma _ _ _ _ _
  | .vfnms _ _ _ _ _ | .vfdot2 _ _ _ _ | .bscaleF32 _ _ _ _ | .bscaleI32 _ _ _ _ => true
  | _ => false

/-- Whether a word's guard lets it act (R236): formats B, L, J and BR have no guard, and a vector-class word acts where its mask
has an active element. -/
def acts (s : State) (w : IWord) : Bool :=
  let m := majorOf w
  if [0x02, 0x05, 0x06, 0x0A, 0x0B, 0x0D, 0x0E].contains m then true
  else if isVectorWord w then s.me.src.rm (fG w.toNat) != 0
  else s.me.src.rk (fG w.toNat)

/-- The scalar and vector registers that a word reads: those it names and does not only write. A vector destination under a
mask that is not all ones is read too: its inactive elements are kept (DESIGN CHOICE, log entry 91). -/
def readsOf (s : State) (w : IWord) (i : Instr) : List Nat :=
  if readsDest i || (isVectorWord w && s.me.src.rm (fG w.toNat) != BitVec.allOnes 16) then names i
  else (writes i).foldl List.erase (names i)

/-- The register whose files hold word `n` of a slot's register bank. -/
def bankReg (n : Nat) : Nat := if n < 32 then n else 32 + (n - 32) / 8

/-- A word that acts reads a register word whose error cannot be corrected (R208). -/
def readsLost (s : State) (w : IWord) (i : Instr) : Bool :=
  !s.me.src.lost.isEmpty && acts s w && s.me.src.lost.any fun n => n != 0 && (readsOf s w i).contains (bankReg n)

/-- `s0`, `m0` and `k0`, whose writes are ignored (R15). -/
def constReg (r : Nat) : Bool := r == 0 || r == 64 || r == 72

/-- R234: two words that may not stand together in a pair. -/
def pairBad (w w2 : IWord) (i i2 : Instr) : Bool :=
  !isScalarWord w || !isVectorWord w2 || pairBit w2 || (isMemWord w && isMemWord w2) || isSoloWord w || isSoloWord w2 ||
    (writes i).any fun r => !constReg r && (writes i2).contains r

end Sys2Proof.Machine
end

