-- ==== Sys2Proof/Machine/Rational.lean ====
section
/-! DEFINITION. Major 0x1A: exact rationals (spec/14_isa_exact_blocks.md R296 to R302, spec/03_rationals.md R56 to
R67). -/

namespace Sys2Proof.Machine

/-- The prime table entry in force (R58). -/
def State.prime (s : State) : Nat := s.me.qprime.toNat

/-- R298. -/
def execQsel (idx : Fin 16) (s : State) : Host.Outcome State Fault Refusal :=
  run s (.ok (s.updMe fun t => { t with qprime := BitVec.ofNat 4 idx.val }))

/-- A core member on two operands reduced mod M (R299). -/
def qop2 (d a b : VFld) (g : MReg) (s : State) (f : Nat → Nat → Nat → Nat) : Host.Outcome State Fault Refusal :=
  let M := modulus s.prime
  run s (vmap2 64 d a b g s fun x y => (f M (x % M) (y % M), 0))

def execQadd (d a b : VFld) (g : MReg) (s : State) : Host.Outcome State Fault Refusal :=
  qop2 d a b g s fun M x y => (x + y) % M

def execQsub (d a b : VFld) (g : MReg) (s : State) : Host.Outcome State Fault Refusal :=
  qop2 d a b g s fun M x y => (x + M - y) % M

def execQneg (d a : VFld) (g : MReg) (s : State) : Host.Outcome State Fault Refusal :=
  let M := modulus s.prime
  run s (vmap1 64 d a g s fun x => ((M - x % M) % M, 0))

def execQmul (d a b : VFld) (g : MReg) (s : State) : Host.Outcome State Fault Refusal :=
  qop2 d a b g s fun M x y => x * y % M

def execQval (d a : VFld) (g : MReg) (s : State) : Host.Outcome State Fault Refusal :=
  let q := primeOf s.prime
  run s (vmap1 64 d a g s fun x => (valuation q.1 q.2 (x % modulus s.prime), 0))

/-- The digit index is not reduced (R62). -/
def execQdig (d a b : VFld) (g : MReg) (s : State) : Host.Outcome State Fault Refusal :=
  let q := primeOf s.prime
  run s (vmap2 64 d a b g s fun x i => (if q.2 ≤ i then 0 else x % modulus s.prime / q.1 ^ i % q.1, 0))

def execQcmpEq (d : MReg) (a b : VFld) (g : MReg) (s : State) : Host.Outcome State Fault Refusal :=
  let M := modulus s.prime
  run s (vcmp2 64 d a b g s fun x y => (x % M == y % M, 0))

def execQcmpNe (d : MReg) (a b : VFld) (g : MReg) (s : State) : Host.Outcome State Fault Refusal :=
  let M := modulus s.prime
  run s (vcmp2 64 d a b g s fun x y => (x % M != y % M, 0))

/-! ## The SFU members (R300 to R302) -/

/-- Occupancy and result times of Table 14-3. -/
def qTimes (idx : Nat) : Nat × Nat := (8, modLog idx + 16)
def qdecTimes (idx : Nat) : Nat × Nat := (stepLimit idx / 2, stepLimit idx + 8)

/-- R300: QDIV where an active element's divisor is a multiple of p, its mask in TRAPVAL; precise, with no request. -/
def qdivCheck (m : Mask) (bad : Nat → Bool) : M Unit :=
  let b := packN 1 (fun j => if active 64 m j && bad j then 1 else 0) 8
  if b = 0 then .ok () else raisePrecise .qdiv 0 b

/-- A member of two sources on the SFU: the divisor test, then the value of each active element. -/
def qsfu2 (d a b : VFld) (g : MReg) (s : State) (bad : Nat → Bool) (f : Nat → Nat → Nat) :
    Host.Outcome State Fault Refusal :=
  run s (do
    let (x, y, s) ← sources2 s a b (some d)
    let m := s.rm g
    qdivCheck m fun j => bad (elem y 64 j)
    .ok (sfuIssue s d (merge 64 m (oldOf s d) fun j => f (elem x 64 j) (elem y 64 j)) 0 (qTimes s.prime)))

/-- R60: n × d⁻¹ mod M for signed 64-bit n and d. -/
def execQenc (d a b : VFld) (g : MReg) (s : State) : Host.Outcome State Fault Refusal :=
  let M := modulus s.prime
  let p := (primeOf s.prime).1
  qsfu2 d a b g s (fun y => modI (sgnN 64 y) p == 0)
    fun x y => modI (sgnN 64 x) M * invMod (modI (sgnN 64 y) M) M % M

def execQinv (d a : VFld) (g : MReg) (s : State) : Host.Outcome State Fault Refusal :=
  let M := modulus s.prime
  run s (do
    let (x, s) ← sources1 s a (some d)
    let m := s.rm g
    qdivCheck m fun j => elem x 64 j % (primeOf s.prime).1 == 0
    .ok (sfuIssue s d (merge 64 m (oldOf s d) fun j => invMod (elem x 64 j % M) M) 0 (qTimes s.prime)))

def execQdiv (d a b : VFld) (g : MReg) (s : State) : Host.Outcome State Fault Refusal :=
  let M := modulus s.prime
  qsfu2 d a b g s (fun y => y % (primeOf s.prime).1 == 0) fun x y => (x % M) * invMod (y % M) M % M

/-- R301: numerators to `n`, denominators to `m`; QOVF where an active element finds no pair. -/
def execQdec (n m : VReg) (a : VFld) (g : MReg) (s : State) : Host.Outcome State Fault Refusal :=
  run s (do
    let (x, s) ← sources1 s a none
    let k := s.rm g
    let idx := s.prime
    let r (j : Nat) := reconstruct idx (elem x 64 j % modulus idx)
    let num := merge 64 k (s.rv n.val) fun j => wrapN 64 (r j).1
    let den := merge 64 k (s.rv m.val) fun j => wrapN 64 (r j).2.1
    .ok (sfuJoin s [(n.val, num), (m.val, den)] none
      (orFlags 8 fun j => flagIf (active 64 k j && (r j).2.2) fQOVF) (qdecTimes idx)))

end Sys2Proof.Machine
end

