-- ==== Sys2Proof/Machine/Dispatch.lean ====
section
/-! DEFINITION. One arm per constructor of `Instr`, each a direct call of its meaning. -/

namespace Sys2Proof.Machine

def exec (i : Instr) (s : State) : Host.Outcome State Fault Refusal :=
  match i with
  | .add d a b g => Sys2Proof.Machine.execAdd d a b g s
  | .sub d a b g => Sys2Proof.Machine.execSub d a b g s
  | .and d a b g => Sys2Proof.Machine.execAnd d a b g s
  | .or d a b g => Sys2Proof.Machine.execOr d a b g s
  | .xor d a b g => Sys2Proof.Machine.execXor d a b g s
  | .andn d a b g => Sys2Proof.Machine.execAndn d a b g s
  | .sll d a b g => Sys2Proof.Machine.execSll d a b g s
  | .srl d a b g => Sys2Proof.Machine.execSrl d a b g s
  | .sra d a b g => Sys2Proof.Machine.execSra d a b g s
  | .min d a b g => Sys2Proof.Machine.execMin d a b g s
  | .max d a b g => Sys2Proof.Machine.execMax d a b g s
  | .minu d a b g => Sys2Proof.Machine.execMinu d a b g s
  | .maxu d a b g => Sys2Proof.Machine.execMaxu d a b g s
  | .slt d a b g => Sys2Proof.Machine.execSlt d a b g s
  | .sltu d a b g => Sys2Proof.Machine.execSltu d a b g s
  | .addi d a imm => Sys2Proof.Machine.execAddi d a imm s
  | .andi d a imm => Sys2Proof.Machine.execAndi d a imm s
  | .ori d a imm => Sys2Proof.Machine.execOri d a imm s
  | .xori d a imm => Sys2Proof.Machine.execXori d a imm s
  | .slli d a sh => Sys2Proof.Machine.execSlli d a sh s
  | .srli d a sh => Sys2Proof.Machine.execSrli d a sh s
  | .srai d a sh => Sys2Proof.Machine.execSrai d a sh s
  | .slti d a imm => Sys2Proof.Machine.execSlti d a imm s
  | .mul d a b g => Sys2Proof.Machine.execMul d a b g s
  | .mulh d a b g => Sys2Proof.Machine.execMulh d a b g s
  | .mulhu d a b g => Sys2Proof.Machine.execMulhu d a b g s
  | .mulhm d a b g => Sys2Proof.Machine.execMulhm d a b g s
  | .div d a b g => Sys2Proof.Machine.execDiv d a b g s
  | .divu d a b g => Sys2Proof.Machine.execDivu d a b g s
  | .rem d a b g => Sys2Proof.Machine.execRem d a b g s
  | .remu d a b g => Sys2Proof.Machine.execRemu d a b g s
  | .clz d a g => Sys2Proof.Machine.execClz d a g s
  | .ctz d a g => Sys2Proof.Machine.execCtz d a g s
  | .popc d a g => Sys2Proof.Machine.execPopc d a g s
  | .brev d a g => Sys2Proof.Machine.execBrev d a g s
  | .sextB d a g => Sys2Proof.Machine.execSextB d a g s
  | .sextH d a g => Sys2Proof.Machine.execSextH d a g s
  | .sextW d a g => Sys2Proof.Machine.execSextW d a g s
  | .zextB d a g => Sys2Proof.Machine.execZextB d a g s
  | .zextH d a g => Sys2Proof.Machine.execZextH d a g s
  | .zextW d a g => Sys2Proof.Machine.execZextW d a g s
  | .bfx d a b g => Sys2Proof.Machine.execBfx d a b g s
  | .bfxu d a b g => Sys2Proof.Machine.execBfxu d a b g s
  | .bfi d a b g => Sys2Proof.Machine.execBfi d a b g s
  | .li d imm => Sys2Proof.Machine.execLi d imm s
  | .lio d imm => Sys2Proof.Machine.execLio d imm s
  | .ptrAdd d a b g => Sys2Proof.Machine.execPtrAdd d a b g s
  | .ptrSub d a b g => Sys2Proof.Machine.execPtrSub d a b g s
  | .ptrSetFmt d a b g => Sys2Proof.Machine.execPtrSetFmt d a b g s
  | .ptrSetBlen d a b g => Sys2Proof.Machine.execPtrSetBlen d a b g s
  | .ptrSetGen d a b g => Sys2Proof.Machine.execPtrSetGen d a b g s
  | .ptrSetVa d a b g => Sys2Proof.Machine.execPtrSetVa d a b g s
  | .ptrGetFmt d a g => Sys2Proof.Machine.execPtrGetFmt d a g s
  | .ptrGetBlen d a g => Sys2Proof.Machine.execPtrGetBlen d a g s
  | .ptrGetGen d a g => Sys2Proof.Machine.execPtrGetGen d a g s
  | .ptrGetVa d a g => Sys2Proof.Machine.execPtrGetVa d a g s
  | .ptrChk d a b g => Sys2Proof.Machine.execPtrChk d a b g s
  | .cmp c d a b g => Sys2Proof.Machine.execCmp c d a b g s
  | .kand d a b g => Sys2Proof.Machine.execKand d a b g s
  | .kor d a b g => Sys2Proof.Machine.execKor d a b g s
  | .kxor d a b g => Sys2Proof.Machine.execKxor d a b g s
  | .knot d a g => Sys2Proof.Machine.execKnot d a g s
  | .kset d v g => Sys2Proof.Machine.execKset d v g s
  | .vbcast w d a g => Sys2Proof.Machine.execVbcast w d a g s
  | .vins w d a b g => Sys2Proof.Machine.execVins w d a b g s
  | .sel d k a b g => Sys2Proof.Machine.execSel d k a b g s
  | .vext w d a b g => Sys2Proof.Machine.execVext w d a b g s
  | .vextU w d a b g => Sys2Proof.Machine.execVextU w d a b g s
  | .mtokAny d a g => Sys2Proof.Machine.execMtokAny d a g s
  | .mtokAll d a g => Sys2Proof.Machine.execMtokAll d a g s
  | .mtokAllD d a g => Sys2Proof.Machine.execMtokAllD d a g s
  | .ktom d a g => Sys2Proof.Machine.execKtom d a g s
  | .mtos d a g => Sys2Proof.Machine.execMtos d a g s
  | .stom d a g => Sys2Proof.Machine.execStom d a g s
  | .br k off => Sys2Proof.Machine.execBr k off s
  | .brN k off => Sys2Proof.Machine.execBrN k off s
  | .jmp off => Sys2Proof.Machine.execJmp off s
  | .call off => Sys2Proof.Machine.execCall off s
  | .jr a g => Sys2Proof.Machine.execJr a g s
  | .callr a g => Sys2Proof.Machine.execCallr a g s
  | .ret g => Sys2Proof.Machine.execRet g s
  | .loop d off => Sys2Proof.Machine.execLoop d off s
  | .loopP d off => Sys2Proof.Machine.execLoopP d off s
  | .cmpi c d a imm => Sys2Proof.Machine.execCmpi c d a imm s
  | .vadd w d a b g => Sys2Proof.Machine.execVadd w d a b g s
  | .vsub w d a b g => Sys2Proof.Machine.execVsub w d a b g s
  | .vmul w d a b g => Sys2Proof.Machine.execVmul w d a b g s
  | .vmulh w d a b g => Sys2Proof.Machine.execVmulh w d a b g s
  | .vmulhu w d a b g => Sys2Proof.Machine.execVmulhu w d a b g s
  | .vmad w d a b g => Sys2Proof.Machine.execVmad w d a b g s
  | .vmin w d a b g => Sys2Proof.Machine.execVmin w d a b g s
  | .vmax w d a b g => Sys2Proof.Machine.execVmax w d a b g s
  | .vminu w d a b g => Sys2Proof.Machine.execVminu w d a b g s
  | .vmaxu w d a b g => Sys2Proof.Machine.execVmaxu w d a b g s
  | .vabs w d a g => Sys2Proof.Machine.execVabs w d a g s
  | .vshl w d a b g => Sys2Proof.Machine.execVshl w d a b g s
  | .vshr w d a b g => Sys2Proof.Machine.execVshr w d a b g s
  | .vsra w d a b g => Sys2Proof.Machine.execVsra w d a b g s
  | .vshlImm w d a sh g => Sys2Proof.Machine.execVshlImm w d a sh g s
  | .vshrImm w d a sh g => Sys2Proof.Machine.execVshrImm w d a sh g s
  | .vsraImm w d a sh g => Sys2Proof.Machine.execVsraImm w d a sh g s
  | .vshlImmHi d a sh g => Sys2Proof.Machine.execVshlImmHi d a sh g s
  | .vshrImmHi d a sh g => Sys2Proof.Machine.execVshrImmHi d a sh g s
  | .vsraImmHi d a sh g => Sys2Proof.Machine.execVsraImmHi d a sh g s
  | .vaddi w d a imm g => Sys2Proof.Machine.execVaddi w d a imm g s
  | .vli w d imm g => Sys2Proof.Machine.execVli w d imm g s
  | .vand d a b g => Sys2Proof.Machine.execVand d a b g s
  | .vor d a b g => Sys2Proof.Machine.execVor d a b g s
  | .vxor d a b g => Sys2Proof.Machine.execVxor d a b g s
  | .vandn d a b g => Sys2Proof.Machine.execVandn d a b g s
  | .mand d a b => Sys2Proof.Machine.execMand d a b s
  | .mor d a b => Sys2Proof.Machine.execMor d a b s
  | .mxor d a b => Sys2Proof.Machine.execMxor d a b s
  | .mnot d a => Sys2Proof.Machine.execMnot d a s
  | .mpop d a => Sys2Proof.Machine.execMpop d a s
  | .mfirst d a => Sys2Proof.Machine.execMfirst d a s
  | .vcmp c w d a b g => Sys2Proof.Machine.execVcmp c w d a b g s
  | .vperm w z d a b g => Sys2Proof.Machine.execVperm w z d a b g s
  | .vshuf w z d a b g => Sys2Proof.Machine.execVshuf w z d a b g s
  | .vrot w z d a b g => Sys2Proof.Machine.execVrot w z d a b g s
  | .vcompress w d a b g => Sys2Proof.Machine.execVcompress w d a b g s
  | .vexpand w d a b g => Sys2Proof.Machine.execVexpand w d a b g s
  | .vredAdd t z d a g => Sys2Proof.Machine.execVredAdd t z d a g s
  | .vredMin t z d a g => Sys2Proof.Machine.execVredMin t z d a g s
  | .vredMax t z d a g => Sys2Proof.Machine.execVredMax t z d a g s
  | .vredMinu t z d a g => Sys2Proof.Machine.execVredMinu t z d a g s
  | .vredMaxu t z d a g => Sys2Proof.Machine.execVredMaxu t z d a g s
  | .vredAnd t z d a g => Sys2Proof.Machine.execVredAnd t z d a g s
  | .vredOr t z d a g => Sys2Proof.Machine.execVredOr t z d a g s
  | .vredXor t z d a g => Sys2Proof.Machine.execVredXor t z d a g s
  | .vscanAdd t z d a g => Sys2Proof.Machine.execVscanAdd t z d a g s
  | .vsatSigned x d a g => Sys2Proof.Machine.execVsatSigned x d a g s
  | .vsatUnsigned x d a g => Sys2Proof.Machine.execVsatUnsigned x d a g s
  | .vpackI x d a b g => Sys2Proof.Machine.execVpackI x d a b g s
  | .vpackU x d a b g => Sys2Proof.Machine.execVpackU x d a b g s
  | .vunpackLoI x d a g => Sys2Proof.Machine.execVunpackLoI x d a g s
  | .vunpackHiI x d a g => Sys2Proof.Machine.execVunpackHiI x d a g s
  | .vunpackLoU x d a g => Sys2Proof.Machine.execVunpackLoU x d a g s
  | .vunpackHiU x d a g => Sys2Proof.Machine.execVunpackHiU x d a g s
  | .vdot4 ua ub d a b g => Sys2Proof.Machine.execVdot4 ua ub d a b g s
  | .vdot4Sat ua ub d a b g => Sys2Proof.Machine.execVdot4Sat ua ub d a b g s
  | .vfadd t d a b g => Sys2Proof.Machine.execVfadd t d a b g s
  | .vfsub t d a b g => Sys2Proof.Machine.execVfsub t d a b g s
  | .vfmul t d a b g => Sys2Proof.Machine.execVfmul t d a b g s
  | .vfdiv t d a b g => Sys2Proof.Machine.execVfdiv t d a b g s
  | .vfsqrt t d a g => Sys2Proof.Machine.execVfsqrt t d a g s
  | .vfmin t d a b g => Sys2Proof.Machine.execVfmin t d a b g s
  | .vfmax t d a b g => Sys2Proof.Machine.execVfmax t d a b g s
  | .vfabs t d a g => Sys2Proof.Machine.execVfabs t d a g s
  | .vfneg t d a g => Sys2Proof.Machine.execVfneg t d a g s
  | .vfcmp c t d a b g => Sys2Proof.Machine.execVfcmp c t d a b g s
  | .vfma t d a b g => Sys2Proof.Machine.execVfma t d a b g s
  | .vfms t d a b g => Sys2Proof.Machine.execVfms t d a b g s
  | .vfnma t d a b g => Sys2Proof.Machine.execVfnma t d a b g s
  | .vfnms t d a b g => Sys2Proof.Machine.execVfnms t d a b g s
  | .vfdot2 d a b g => Sys2Proof.Machine.execVfdot2 d a b g s
  | .vfcvt q dst src d a g => Sys2Proof.Machine.execVfcvt q dst src d a g s
  | .vfcls f d a g => Sys2Proof.Machine.execVfcls f d a g s
  | .vfround m f d a g => Sys2Proof.Machine.execVfround m f d a g s
  | .vrcp d a g => Sys2Proof.Machine.execVrcp d a g s
  | .vrsq d a g => Sys2Proof.Machine.execVrsq d a g s
  | .vexp2 d a g => Sys2Proof.Machine.execVexp2 d a g s
  | .vlog2 d a g => Sys2Proof.Machine.execVlog2 d a g s
  | .vsin d a g => Sys2Proof.Machine.execVsin d a g s
  | .vcos d a g => Sys2Proof.Machine.execVcos d a g s
  | .vtanh d a g => Sys2Proof.Machine.execVtanh d a g s
  | .vsig d a g => Sys2Proof.Machine.execVsig d a g s
  | .qsel idx => Sys2Proof.Machine.execQsel idx s
  | .qadd d a b g => Sys2Proof.Machine.execQadd d a b g s
  | .qsub d a b g => Sys2Proof.Machine.execQsub d a b g s
  | .qneg d a g => Sys2Proof.Machine.execQneg d a g s
  | .qmul d a b g => Sys2Proof.Machine.execQmul d a b g s
  | .qval d a g => Sys2Proof.Machine.execQval d a g s
  | .qdig d a b g => Sys2Proof.Machine.execQdig d a b g s
  | .qcmpEq d a b g => Sys2Proof.Machine.execQcmpEq d a b g s
  | .qcmpNe d a b g => Sys2Proof.Machine.execQcmpNe d a b g s
  | .qenc d a b g => Sys2Proof.Machine.execQenc d a b g s
  | .qinv d a g => Sys2Proof.Machine.execQinv d a g s
  | .qdiv d a b g => Sys2Proof.Machine.execQdiv d a b g s
  | .qdec n m a g => Sys2Proof.Machine.execQdec n m a g s
  | .bamax d a g => Sys2Proof.Machine.execBamax d a g s
  | .bscaleF32 d a b g => Sys2Proof.Machine.execBscaleF32 d a b g s
  | .bscaleI32 d a b g => Sys2Proof.Machine.execBscaleI32 d a b g s
  | .bquant c d a => Sys2Proof.Machine.execBquant c d a s
  | .bdeq c d a g => Sys2Proof.Machine.execBdeq c d a g s
  | .baddq c d a b => Sys2Proof.Machine.execBaddq c d a b s
  | .ld size u rlx d base off g => Sys2Proof.Machine.execLd size u rlx d base off g s
  | .st size rlx base off d g => Sys2Proof.Machine.execSt size rlx base off d g s
  | .vld e rlx v base g => Sys2Proof.Machine.execVld e rlx v base g s
  | .vldS e rlx v base aux g => Sys2Proof.Machine.execVldS e rlx v base aux g s
  | .vldF rlx v base g => Sys2Proof.Machine.execVldF rlx v base g s
  | .vst e rlx base v g => Sys2Proof.Machine.execVst e rlx base v g s
  | .vstS e rlx base v aux g => Sys2Proof.Machine.execVstS e rlx base v aux g s
  | .vstF rlx base v g => Sys2Proof.Machine.execVstF rlx base v g s
  | .vgath e rlx v base aux g => Sys2Proof.Machine.execVgath e rlx v base aux g s
  | .vscat e rlx base aux v g => Sys2Proof.Machine.execVscat e rlx base aux v g s
  | .vldr k v base aux => Sys2Proof.Machine.execVldr k v base aux s
  | .vldBlk rlx v base aux => Sys2Proof.Machine.execVldBlk rlx v base aux s
  | .vstBlk rlx base v aux => Sys2Proof.Machine.execVstBlk rlx base v aux s
  | .ldSync w d a b g => Sys2Proof.Machine.execLdSync w d a b g s
  | .ldSyncU w d a b g => Sys2Proof.Machine.execLdSyncU w d a b g s
  | .gtagRd d a g => Sys2Proof.Machine.execGtagRd d a g s
  | .gtagSet a b g => Sys2Proof.Machine.execGtagSet a b g s
  | .gtagClr a g => Sys2Proof.Machine.execGtagClr a g s
  | .vldSync d a b g => Sys2Proof.Machine.execVldSync d a b g s
  | .rsv w d a g => Sys2Proof.Machine.execRsv w d a g s
  | .wrv w a b g => Sys2Proof.Machine.execWrv w a b g s
  | .amoAdd w d a b g => Sys2Proof.Machine.execAmoAdd w d a b g s
  | .amoAnd w d a b g => Sys2Proof.Machine.execAmoAnd w d a b g s
  | .amoOr w d a b g => Sys2Proof.Machine.execAmoOr w d a b g s
  | .amoXor w d a b g => Sys2Proof.Machine.execAmoXor w d a b g s
  | .amoMin w d a b g => Sys2Proof.Machine.execAmoMin w d a b g s
  | .amoMax w d a b g => Sys2Proof.Machine.execAmoMax w d a b g s
  | .amoMinu w d a b g => Sys2Proof.Machine.execAmoMinu w d a b g s
  | .amoMaxu w d a b g => Sys2Proof.Machine.execAmoMaxu w d a b g s
  | .amoSwap w d a b g => Sys2Proof.Machine.execAmoSwap w d a b g s
  | .amoCas w d a b g => Sys2Proof.Machine.execAmoCas w d a b g s
  | .fence sz g => Sys2Proof.Machine.execFence sz g s
  | .fenceEng sz g => Sys2Proof.Machine.execFenceEng sz g s
  | .pf a g => Sys2Proof.Machine.execPf a g s
  | .holdRng d a b g => Sys2Proof.Machine.execHoldRng d a b g s
  | .holdLk d a b g => Sys2Proof.Machine.execHoldLk d a b g s
  | .holdRt d a b g => Sys2Proof.Machine.execHoldRt d a b g s
  | .holdGrp d a b g => Sys2Proof.Machine.execHoldGrp d a b g s
  | .renew a b g => Sys2Proof.Machine.execRenew a b g s
  | .life d a g => Sys2Proof.Machine.execLife d a g s
  | .hinfo d a g => Sys2Proof.Machine.execHinfo d a g s
  | .tick d g => Sys2Proof.Machine.execTick d g s
  | .tickw a g => Sys2Proof.Machine.execTickw a g s
  | .dline a g => Sys2Proof.Machine.execDline a g s
  | .msend a b g => Sys2Proof.Machine.execMsend a b g s
  | .chlen d ch g => Sys2Proof.Machine.execChlen d ch g s
  | .bar sz g => Sys2Proof.Machine.execBar sz g s
  | .barPod a b g => Sys2Proof.Machine.execBarPod a b g s
  | .done a g => Sys2Proof.Machine.execDone a g s
  | .probe g => Sys2Proof.Machine.execProbe g s
  | .hstart d a b g => Sys2Proof.Machine.execHstart d a b g s
  | .hprot d a b g => Sys2Proof.Machine.execHprot d a b g s
  | .hjoin a g => Sys2Proof.Machine.execHjoin a g s
  | .stop g => Sys2Proof.Machine.execStop g s
  | .tid d g => Sys2Proof.Machine.execTid d g s
  | .launchGrid a g => Sys2Proof.Machine.execLaunchGrid a g s
  | .launchPipe a g => Sys2Proof.Machine.execLaunchPipe a g s
  | .enq e d a g => Sys2Proof.Machine.execEnq e d a g s
  | .eseq n d a g => Sys2Proof.Machine.execEseq n d a g s
  | .ewait a g => Sys2Proof.Machine.execEwait a g s
  | .sysrd d n g => Sys2Proof.Machine.execSysrd d n g s
  | .syswr n a g => Sys2Proof.Machine.execSyswr n a g s
  | .trap d a g => Sys2Proof.Machine.execTrap d a g s
  | .eret g => Sys2Proof.Machine.execEret g s
  | .hcall d a g => Sys2Proof.Machine.execHcall d a g s
  | .dbg g => Sys2Proof.Machine.execDbg g s
  | .tlbinv a g => Sys2Proof.Machine.execTlbinv a g s
  | .rottabArm tile w0 w1 w2 w3 => Sys2Proof.Machine.execRottabArm tile w0 w1 w2 w3 s
  | .rottabShadowCheck tile => Sys2Proof.Machine.execRottabShadowCheck tile s
  | .deadlineExpiry tile slot => Sys2Proof.Machine.execDeadlineExpiry tile slot s
  | .impreciseFaultTaken tile slot => Sys2Proof.Machine.execImpreciseFaultTaken tile slot s
  | .sfuServiceStart quad => Sys2Proof.Machine.execSfuServiceStart quad s
  | .sfuResult quad => Sys2Proof.Machine.execSfuResult quad s
  | .accessAtHome req part => Sys2Proof.Machine.execAccessAtHome req part s
  | .loadValueReturn req => Sys2Proof.Machine.execLoadValueReturn req s
  | .storeAck req => Sys2Proof.Machine.execStoreAck req s
  | .combiningEntryTimeout tile slot granule => Sys2Proof.Machine.execCombiningEntryTimeout tile slot granule s
  | .atomicTermExpiry word => Sys2Proof.Machine.execAtomicTermExpiry word s
  | .deferredRepresent tile ticket => Sys2Proof.Machine.execDeferredRepresent tile ticket s
  | .holdRequestAtKeeper die => Sys2Proof.Machine.execHoldRequestAtKeeper die s
  | .crownHoldPlacement req p => Sys2Proof.Machine.execCrownHoldPlacement req p s
  | .holdLapseMark ctx idx => Sys2Proof.Machine.execHoldLapseMark ctx idx s
  | .lapseAtHome ctx idx page => Sys2Proof.Machine.execLapseAtHome ctx idx page s
  | .tlbMissWalk die ctx => Sys2Proof.Machine.execTlbMissWalk die ctx s
  | .walkComplete die walk => Sys2Proof.Machine.execWalkComplete die walk s
  | .channelMessageArrival launch chan => Sys2Proof.Machine.execChannelMessageArrival launch chan s
  | .channelCreditReturn launch chan => Sys2Proof.Machine.execChannelCreditReturn launch chan s
  | .messagePlacement dst idx => Sys2Proof.Machine.execMessagePlacement dst idx s
  | .containReport idx => Sys2Proof.Machine.execContainReport idx s
  | .slot11WakeSpill tile => Sys2Proof.Machine.execSlot11WakeSpill tile s
  | .slot11WakeReplay tile => Sys2Proof.Machine.execSlot11WakeReplay tile s
  | .slot12Wake tile => Sys2Proof.Machine.execSlot12Wake tile s
  | .barrierRelease sz tile => Sys2Proof.Machine.execBarrierRelease sz tile s
  | .staggerReady tile => Sys2Proof.Machine.execStaggerReady tile s
  | .podBarrierTick key tick => Sys2Proof.Machine.execPodBarrierTick key tick s
  | .probeToken launch => Sys2Proof.Machine.execProbeToken launch s
  | .poolwaitExpiry tile slot => Sys2Proof.Machine.execPoolwaitExpiry tile slot s
  | .timeWaitEnd tile slot => Sys2Proof.Machine.execTimeWaitEnd tile slot s
  | .mxZero tile e => Sys2Proof.Machine.execMxZero tile e s
  | .mxLdacc tile e => Sys2Proof.Machine.execMxLdacc tile e s
  | .mxLoadw tile e => Sys2Proof.Machine.execMxLoadw tile e s
  | .mxMma tile e => Sys2Proof.Machine.execMxMma tile e s
  | .mxDrain tile e => Sys2Proof.Machine.execMxDrain tile e s
  | .mxSave tile e => Sys2Proof.Machine.execMxSave tile e s
  | .mxRestore tile e => Sys2Proof.Machine.execMxRestore tile e s
  | .cpCopy tile e => Sys2Proof.Machine.execCpCopy tile e s
  | .cpFill tile e => Sys2Proof.Machine.execCpFill tile e s
  | .cpRoute tile e => Sys2Proof.Machine.execCpRoute tile e s
  | .rlReduce tile e => Sys2Proof.Machine.execRlReduce tile e s
  | .rlBcast tile e => Sys2Proof.Machine.execRlBcast tile e s
  | .engineCommandComplete tile e => Sys2Proof.Machine.execEngineCommandComplete tile e s
  | .relayRoundSum key frame remote => Sys2Proof.Machine.execRelayRoundSum key frame remote s
  | .gatewayBaddq port code blocks => Sys2Proof.Machine.execGatewayBaddq port code blocks s
  | .frameBoundary => Sys2Proof.Machine.execFrameBoundary s
  | .slotTableArm port dir entries frame => Sys2Proof.Machine.execSlotTableArm port dir entries frame s
  | .outSlotDeparture port => Sys2Proof.Machine.execOutSlotDeparture port s
  | .readRequest p => Sys2Proof.Machine.execReadRequest p s
  | .readReply p => Sys2Proof.Machine.execReadReply p s
  | .writePacket p => Sys2Proof.Machine.execWritePacket p s
  | .writeStatus p => Sys2Proof.Machine.execWriteStatus p s
  | .reservationPacket p => Sys2Proof.Machine.execReservationPacket p s
  | .activeMessagePacket p => Sys2Proof.Machine.execActiveMessagePacket p s
  | .routeData p => Sys2Proof.Machine.execRouteData p s
  | .relayContribution port p => Sys2Proof.Machine.execRelayContribution port p s
  | .relayBroadcast p => Sys2Proof.Machine.execRelayBroadcast p s
  | .podBarrierPacket p => Sys2Proof.Machine.execPodBarrierPacket p s
  | .retrainStart port => Sys2Proof.Machine.execRetrainStart port s
  | .retrainResume port applied => Sys2Proof.Machine.execRetrainResume port applied s
  | .portResumeTimeout port => Sys2Proof.Machine.execPortResumeTimeout port s
  | .budgetPeriod => Sys2Proof.Machine.execBudgetPeriod s
  | .bankbudWrite tile value => Sys2Proof.Machine.execBankbudWrite tile value s
  | .pfctlWrite die value => Sys2Proof.Machine.execPfctlWrite die value s
  | .carveChange die kib => Sys2Proof.Machine.execCarveChange die kib s
  | .scrubberRewrite pa => Sys2Proof.Machine.execScrubberRewrite pa s
  | .packageReset b => Sys2Proof.Machine.execPackageReset b s
  | .timeBaseSet ns => Sys2Proof.Machine.execTimeBaseSet ns s
  | .timeBaseDiscipline ppm => Sys2Proof.Machine.execTimeBaseDiscipline ppm s
  | .bootdb value => Sys2Proof.Machine.execBootdb value s
  | .svnRaise => Sys2Proof.Machine.execSvnRaise s
  | .watchdogExpiry => Sys2Proof.Machine.execWatchdogExpiry s
  | .activationRecord words => Sys2Proof.Machine.execActivationRecord words s
  | .activationProceed => Sys2Proof.Machine.execActivationProceed s
  | .activationDeferralTimeout => Sys2Proof.Machine.execActivationDeferralTimeout s
  | .dumpRegistration words => Sys2Proof.Machine.execDumpRegistration words s
  | .thermalTrip => Sys2Proof.Machine.execThermalTrip s
  | .supplyFault => Sys2Proof.Machine.execSupplyFault s
  | .contextCreation c => Sys2Proof.Machine.execContextCreation c s
  | .contextEnd ctx => Sys2Proof.Machine.execContextEnd ctx s
  | .ringRegistration words => Sys2Proof.Machine.execRingRegistration words s
  | .commitTimeout ctx => Sys2Proof.Machine.execCommitTimeout ctx s
  | .gridLaunchRecord ctx => Sys2Proof.Machine.execGridLaunchRecord ctx s
  | .pipelineLaunchRecord ctx => Sys2Proof.Machine.execPipelineLaunchRecord ctx s
  | .heartbeat ctx => Sys2Proof.Machine.execHeartbeat ctx s
  | .noOpRecord ctx => Sys2Proof.Machine.execNoOpRecord ctx s
  | .continuationRecord ctx => Sys2Proof.Machine.execContinuationRecord ctx s
  | .unassignedRecord ctx => Sys2Proof.Machine.execUnassignedRecord ctx s
  | .launchDispatch ctx cores rottab => Sys2Proof.Machine.execLaunchDispatch ctx cores rottab s
  | .coreCompletion tile => Sys2Proof.Machine.execCoreCompletion tile s
  | .statusWordFromChild launch child => Sys2Proof.Machine.execStatusWordFromChild launch child s
  | .preempt launch => Sys2Proof.Machine.execPreempt launch s
  | .resumeLaunch launch cores rottab => Sys2Proof.Machine.execResumeLaunch launch cores rottab s
  | .migrate src dst life => Sys2Proof.Machine.execMigrate src dst life s
  | .debugHalt tile => Sys2Proof.Machine.execDebugHalt tile s
  | .debugResume tile => Sys2Proof.Machine.execDebugResume tile s
  | .debugStep tile slot => Sys2Proof.Machine.execDebugStep tile slot s
  | .samplerStart ctx words => Sys2Proof.Machine.execSamplerStart ctx words s
  | .samplerStop ctx words => Sys2Proof.Machine.execSamplerStop ctx words s
  | .traceStart ctx words => Sys2Proof.Machine.execTraceStart ctx words s
  | .traceStop ctx words => Sys2Proof.Machine.execTraceStop ctx words s
  | .debugWrite ctx words => Sys2Proof.Machine.execDebugWrite ctx words s
  | .debugRead ctx words => Sys2Proof.Machine.execDebugRead ctx words s
  | .samplerLatch die => Sys2Proof.Machine.execSamplerLatch die s
  | .attestationQuote ctx nonce user addr => Sys2Proof.Machine.execAttestationQuote ctx nonce user addr s
  | .callDone ctx answer => Sys2Proof.Machine.execCallDone ctx answer s
  | .softError u uncorrectable => Sys2Proof.Machine.execSoftError u uncorrectable s
  | .firmwareWindowAccess op => Sys2Proof.Machine.execFirmwareWindowAccess op s
  | .portTraining port flight delay => Sys2Proof.Machine.execPortTraining port flight delay s

end Sys2Proof.Machine
end

