-- ==== Sys2Proof/Machine/Issue.lean ====
section
/-! DEFINITION. How a core issues: the rotation entries (R11, R93 to R95, R224), an instruction met at a boundary (R200), the
two halves of a pair (R234, R235), and single steps under debug (R223). -/

namespace Sys2Proof.Machine

/-! ## Outcomes -/

/-- A step followed by another. -/
def after (o : Host.Outcome State Fault Refusal) (f : State → Host.Outcome State Fault Refusal) :
    Host.Outcome State Fault Refusal :=
  match o with
  | .next s => f s
  | .fault r => .fault r
  | .refused r => .refused r

/-! ## Waits met again (R93, R94) -/

/-- A wait that ends by looking again: the thread meets its instruction afresh at its next entry. The others are ended by
the event they wait for. -/
def polled (s : State) (key : Nat) (w : Wait) : Bool :=
  match w with
  | .channel | .accessSlot | .engine | .placement | .join | .engineQueue | .pool _ | .pair => true
  | .translation => (s.thr key).missPage.isNone
  | .load id => (s.req id).isNone
  | _ => false

/-- What remains of a wait while its instruction is met again: the time from which a pool wait counts (R135). -/
def keepPool (w : Option Wait) : Option Wait := match w with | some (.pool t) => some (.pool t) | _ => none

/-! ## Before an instruction (R73, R75, R200) -/

/-- An instruction that names the register of a relaxed load: it reports the load's failure, or waits for its value. -/
def namedLoad (s : State) (rs : List Nat) : Option State :=
  let hit (r : Option Nat) : Bool := match r with | some n => rs.contains n | none => false
  if s.me.got.isSome then none
  else if s.me.failures.any fun f => hit f.reg then some (reportEarlier s)
  else match (s.inFlight s.cur).find? fun r => r.rlx && hit (finishReg r.fin) with
    | some r => some (stay s (.load r.id))
    | none => none

/-- The address after the instruction of `n` words at the program counter (`NextPC`, Table 11-1). -/
def advance (s : State) (n : Nat) : State := s.updMe fun t => { t with npc := t.pc + BitVec.ofNat 48 (4 * n) }

/-- The first instruction after an `eret` meets no breakpoint and no watch (R221). -/
def shields (s : State) (i : Instr) : Bool := match i with | .eret g => s.rk g | _ => false

/-- After an instruction of `n` words that ran, its thread stands at the next one. -/
def commit (n : Nat) (shield : Bool) (key : Nat) (t : State) : State :=
  match t.did with
  | .ran => t.updThr key fun x =>
    { x with
      pc := x.npc
      ibuf := x.ibuf.drop n
      walkFault := none
      missPage := none
      got := none
      view := none
      oldDl := none
      noHit := shield
      wait := match x.wait with | some w => if polled t key w then none else some w | none => none }
  | _ => t

/-- A single word. -/
def issueOne (s : State) (i : Instr) : Host.Outcome State Fault Refusal :=
  match namedLoad s (names i) with
  | some t => .next t
  | none => after (exec i (advance s 1)) fun t => .next (commit 1 (shields s i) s.cur t)

/-! ## Pairs (R234, R235) -/

/-- An instruction raised ILLEGAL. -/
def Did.illegal (d : Did) : Bool := match d with | .trapped f => f.code == .illegal | _ => false

/-- An instruction waits for words it has asked for. -/
def Did.asking (d : Did) : Bool := match d with | .blocked (.keeper _) | .blocked (.load _) => true | _ => false

/-- An instruction has popped a message of its core: what a second word pops stands behind it (R235, point 3). -/
def popped (s t : State) : Bool :=
  let lid := lidOf s (tileOf s.cur)
  (s.launch lid).chans.map (·.buf) != (t.launch lid).chans.map (·.buf) || s.myCore.inbox != (t.core (tileOf s.cur)).inbox

/-- A pair that waits for what its second half met behind the first, as `t` says: nothing of it is done, but for a walk that has
been asked for (R150). -/
def stayPair (s t : State) (w : Wait) : State :=
  (stay { s with dies := t.dies, nextId := t.nextId } w).updThr s.cur fun x => { x with missPage := (t.thr s.cur).missPage }

/-- A state with no view of the registers before a pair. -/
def noView (s : State) (key : Nat) : State := s.updThr key fun t => { t with view := none, oldDl := none }

/-- A pair that passes R234. Each half is tried alone first: ILLEGAL of either comes first (R200), then the stop of the
first, then that of the second, and a request of the first half leaves only where the second can issue. Then the second
half acts on what the first left, its sources read as they stood before the pair and its messages popped behind the first's; a stop
of it takes everything back. -/
def issuePair (s : State) (i i2 : Instr) : Host.Outcome State Fault Refusal :=
  let key := s.cur
  let s := advance s 2
  let see (t : State) : State := t.updThr key fun x =>
    { x with
      view := some s.me.regs
      oldDl := if x.dlEn = s.me.dlEn ∧ x.dlLeft = s.me.dlLeft then none else some (s.me.dlEn, s.me.dlLeft) }
  after (exec i s) fun t1 =>
  after (exec i2 (see s)) fun t2 =>
    if t2.did.illegal && !t1.did.illegal then .next (noView t2 key)
    else if t1.did.asking && t2.did != .ran then .next (noView t2 key)
    else if t1.did != .ran then .next t1
    else if t2.did != .ran && !popped s t1 then .next (noView t2 key)
    else after (exec i2 (see t1)) fun t =>
      match t.did with
      | .ran => .next (commit 2 false key t)
      | .trapped f => .next (trapOn s f s)
      | .blocked w => .next (if t2.did = .blocked w then noView t2 key else stayPair s t w)
      | .nothing => .next s

/-- A pair that breaks R234: ILLEGAL of either word first (R200), else PAIR with both words in TRAPVAL. -/
def brokenPair (s : State) (w w2 : IWord) (i i2 : Instr) : Host.Outcome State Fault Refusal :=
  let key := s.cur
  let s := advance s 2
  after (exec i s) fun t1 =>
  after (exec i2 (s.updThr key fun x => { x with view := some s.me.regs })) fun t2 =>
    if t1.did.illegal then .next t1
    else if t2.did.illegal then .next (noView t2 key)
    else .next (settle s (raisePrecise .pair 0 (w2.toNat * 2 ^ 32 + w.toNat)))

/-! ## An instruction met at a boundary -/

/-- A fault that is found before any register is read (R200). -/
def Did.early (d : Did) : Bool :=
  match d with | .trapped f => f.code == .illegal || f.code == .pair || f.code == .priv | _ => false

/-- Table 9-6: UNCORR, DETAIL 1, ends the thread, and in a protected pair both (R210); the slot is parked while its register bank
is scrubbed. What the thread has outstanding ends first, and a failure that waits to be reported comes first (R200). -/
def loseSlot (s : State) : State :=
  let f : FaultRec := ⟨.uncorr, 1, 0, none, true⟩
  let t := if s.me.role = .trailing then { takeFault s s.cur f with did := .trapped f } else trapOn s f s
  if t.did = .trapped f then t.updThr s.cur fun t => { t with parked := true, scrub := some (s.cycle + Config.scrubCycles) } else t

/-- A decoded instruction or pair that reads no lost register word. -/
def issueWhole (s : State) (w : IWord) (i : Instr) (second : Option (IWord × Instr)) :
    Host.Outcome State Fault Refusal :=
  match second with
  | none => issueOne s i
  | some (w2, i2) =>
    if pairBad w w2 i i2 then brokenPair s w w2 i i2
    else match namedLoad s (names i ++ names i2) with
      | some t => .next t
      | none => issuePair s i i2

/-- A decoded instruction or pair. Where it reads a register word that is lost, it runs no further than to the faults that come
before (R208). -/
def issueDecoded (s : State) (w : IWord) (i : Instr) (second : Option (IWord × Instr)) :
    Host.Outcome State Fault Refusal :=
  if readsLost s w i || (match second with | some (w2, i2) => readsLost s w2 i2 | none => false) then
    after (issueWhole s w i second) fun t => .next (if t.did.early then t else loseSlot s)
  else issueWhole s w i second

/-- Fetch and decode at the running thread's program counter (R232, R242). -/
noncomputable def frontEnd (s : State) : M (State × IWord × Instr × Option (IWord × Instr)) := do
  let (s, w, w2) ← fetchInstr s
  let i ← decodeAt w
  match w2 with
  | none => .ok (s, w, i, none)
  | some w2 =>
    let i2 ← decodeAt w2
    .ok (s, w, i, some (w2, i2))

/-- The thread as it meets an instruction: `free` where no breakpoint or watch may hit (R221). -/
def meeting (s : State) (key : Nat) (free : Bool) : State :=
  { s.updThr key (fun t => { t with wait := keepPool t.wait, noHit := t.noHit || free }) with cur := key, did := .nothing }

/-- A thread meets the instruction at its program counter. -/
noncomputable def attempt (s : State) (key : Nat) (free : Bool) : Host.Outcome State Fault Refusal :=
  let s := meeting s key free
  match frontEnd s with
  | .error h => .next (settle s (.error h))
  | .ok (t, w, i, second) => issueDecoded t w i second

/-! ## Rotation entries (R11, R95, R222 to R224) -/

/-- One more in a rotation counter of a slot. -/
def countEntry (s : State) (key cls : Nat) : State :=
  s.updThr key fun t => { t with counters := t.counters.setIfInBounds cls (t.counters.toArray.getD cls 0 + 1) }

/-- The class of an entry by what its slot's thread did in it; one at which a breakpoint or watch halts the core counts as
memory (log entry 63). -/
def countDid (s : State) (key : Nat) : State :=
  match s.did with
  | .ran | .trapped _ => countEntry s key 0
  | .blocked w => countEntry s key w.cls
  | .nothing => countEntry s key 1

/-- A fault that is not the next instruction's waits to be taken at the thread's boundary (R200, R118, R203). -/
def faultWaits (s : State) (key : Nat) : Bool := impreciseDue s key || deadlineDue (s.thr key)

/-- The entry of a thread that may issue. Where a fault waits for its boundary, the thread issues nothing: a wait that is
abandoned is left to that fault, and an access slot wait ends with the accesses. A thread that has received what its
instruction waited for goes on with that instruction first (R118). -/
noncomputable def entryOf (s : State) (key : Nat) (free : Bool) : Host.Outcome State Fault Refusal :=
  let t := s.thr key
  let go : Host.Outcome State Fault Refusal := attempt s key free
  let hold : Bool := faultWaits s key && t.got.isNone
  match t.wait with
  | none => if hold then .next { s with did := .blocked .accessSlot } else go
  | some w =>
    if hold && w == .accessSlot then
      .next { (if s.busy key then s else s.updThr key fun t => { t with wait := none }) with did := .blocked w }
    else if faultWaits s key && w.abandonable then .next { s with did := .blocked w }
    else if polled s key w then go
    else .next { s with did := .blocked w }

/-- The class of an entry of a thread that stands at its boundary or waits, and issues nothing (log entry 63). -/
def standingClass (t : Thread) : Nat := match t.wait with | some w => w.cls | none => 1

/-- A rotation entry that names a slot (R95, R222, R223). While HALT is set only a STEP lets the slot issue, which ends once its
instruction has issued and no load of it can fail any more; once the core is halted nothing is counted. On a core that is to be saved
only firmware's threads issue (R205). An entry of a trailing thread that R210 has parked counts as vacant, as one that Table 9-6
parks (DESIGN CHOICE, log entry 109). -/
noncomputable def slotEntry (s : State) (tile slot : Nat) : Host.Outcome State Fault Refusal :=
  let key := keyOf tile slot
  let t := s.thr key
  let c := s.core tile
  if haltedNow s tile then .next s
  else if !t.live || t.parked then .next (countEntry s key 3)
  else if c.halt && c.step != some slot then .next (countEntry s key (standingClass t))
  else if c.halt then
    after (entryOf s key true) fun u =>
      match u.did with
      | .ran => .next (if takesBack u key then countDid u key else endStep (countDid u key) key)
      | .trapped _ => .next (endStep (countDid u key) key)
      | _ => .next (countDid u key)
  else if c.stopping then .next (countEntry s key (if 13 ≤ slot then 0 else standingClass t))
  else after (entryOf s key false) fun u => .next (countDid u key)

/-- The next rotation entry of a core: bit 7 says whether it names a slot, bits 3:0 which (Table 1-4, R11). -/
noncomputable def tileTurn (s : State) (tile : Nat) : Host.Outcome State Fault Refusal :=
  let c := s.core tile
  let pos := (c.rotPos + 1) % 32
  let e := (c.rottab.toArray.getD pos 0).toNat
  let s := s.setCore tile { c with rotPos := pos }
  if e < 128 then .next { s with did := .nothing } else slotEntry s tile (e % 16)

end Sys2Proof.Machine
end

