-- ==== Sys2Proof/Machine/Clock.lean ====
section
/-! DEFINITION. What the machine does of itself, and in what order the model does it (log entry 2): the steps that are due
between two cycles, in one fixed order, and the tick of the clock (R7, R11, R29, R117, R224). The choices of the Crown, of
arbitration among packages and of the outside come by `agenda` and are not made here. -/

namespace Sys2Proof.Machine

/-! ## Steps that may be due -/

/-- Steps of a thread: reports and deadlines, the ends of its timed waits, its combining entries. -/
noncomputable def threadSteps (x : Nat × Thread) : List Instr :=
  let tile := tileOf x.1
  let slot := slotOf x.1
  (if x.2.live then
    [.impreciseFaultTaken tile slot, .deadlineExpiry tile slot, .poolwaitExpiry tile slot, .timeWaitEnd tile slot]
  else []) ++ x.2.comb.map fun c => .combiningEntryTimeout tile slot c.granule

/-- A ticket that waits deferred. -/
def deferredTicket (p : Part) : List Nat := match p.stage with | .deferred t _ => [t] | _ => []

/-- Steps of an access: each part at its home, its value or its acknowledgement, a deferred ticket. -/
noncomputable def reqSteps (s : State) (r : Req) : List Instr :=
  (List.range r.parts.length).map (.accessAtHome r.id) ++ [.loadValueReturn r.id, .storeAck r.id] ++
    (r.parts.map fun p => (deferredTicket p).map (.deferredRepresent ((homeTile s p.pa).getD 0))).flatten

/-- The step of an engine's event for a kind of command. -/
noncomputable def cmdStep (k : CmdKind) (tile : Nat) (x : EStep) : Instr :=
  match k with
  | .zero => .mxZero tile x
  | .ldacc => .mxLdacc tile x
  | .loadw => .mxLoadw tile x
  | .mma => .mxMma tile x
  | .drain => .mxDrain tile x
  | .save => .mxSave tile x
  | .restore => .mxRestore tile x
  | .copy => .cpCopy tile x
  | .fill => .cpFill tile x
  | .route => .cpRoute tile x
  | .reduce => .rlReduce tile x
  | .bcast => .rlBcast tile x

/-- Steps of one engine: its items, the next item, the end of its command; or the start of the head of its queue. -/
noncomputable def engineSteps (s : State) (tile : Nat) (e : Eng) : List Instr :=
  let run : List Instr := match runOf s tile e with
    | some r =>
      match kindOf r.cmd.word with
      | some k => (r.items.map fun i => cmdStep k tile (.item i.idx)) ++ [cmdStep k tile .startItem]
      | none => []
    | none =>
      match headCmd s tile e with
      | some q => (match kindOf q.word with | some k => [cmdStep k tile .start] | none => [])
      | none => []
  run ++ [.engineCommandComplete tile e]

/-- Steps of a core. -/
noncomputable def coreSteps (s : State) (tile : Nat) : List Instr :=
  engineSteps s tile .mx ++ engineSteps s tile .cp ++ engineSteps s tile .rl ++
    [.rottabShadowCheck tile, .barrierRelease .core tile, .barrierRelease .quad tile, .barrierRelease .die tile,
      .barrierRelease .pkg tile, .staggerReady tile, .slot11WakeSpill tile, .slot11WakeReplay tile, .slot12Wake tile,
      .coreCompletion tile]

/-- Refusals that a keeper's request forces on the Crown (Table 15-8): by its words, or for want of slots of this package's
own ports; its grants come by `agenda`, as does a refusal for slots of another package. -/
noncomputable def refusals (s : State) (k : KeeperReq) : List Instr :=
  if k.crown then
    (match forcedStatus s k with | some st => [.crownHoldPlacement k.id (.refuse st)] | none => []) ++
      (if k.kind = 2 ∧ !rtAway s k.desc then [.crownHoldPlacement k.id (.refuse 5)] else [])
  else []

/-- Steps of a die: walkers, the keeper, the sampler, a carve that waits. -/
noncomputable def dieSteps (s : State) (x : Nat × Die) : List Instr :=
  (match nextWalkCtx x.2 with | some c => [.tlbMissWalk x.1 c] | none => []) ++
    (x.2.walks.map fun w => .walkComplete x.1 w.id) ++ [.holdRequestAtKeeper x.1] ++
    (x.2.keeper.map (refusals s)).flatten ++ [.samplerLatch x.1] ++
    (match x.2.carveWant with | some kib => [.carveChange x.1 kib] | none => [])

/-- Whether the Crown is to end a context: its own hold has lapsed, or its driver has begun to end it (R215). -/
def mayClose (s : State) (ctx : Nat) : Bool :=
  (s.ctx ctx).ending || (match s.hold ctx 0 with | some h => !h.live | none => false)

/-- Steps of a context: lapses, its ring's head record, its end. -/
noncomputable def ctxSteps (s : State) (x : Nat × Ctx) : List Instr :=
  let c := x.1
  (x.2.holds.map fun h => Instr.holdLapseMark c h.1 :: h.2.lapsing.map (.lapseAtHome c h.1)).flatten ++
    (if x.2.ring.isSome then
      [.gridLaunchRecord c, .pipelineLaunchRecord c, .heartbeat c, .noOpRecord c, .continuationRecord c,
        .unassignedRecord c, .commitTimeout c]
    else []) ++ (if x.2.live && mayClose s c then [.contextEnd c] else [])

/-- Steps of a launch: its channels, and its cores' status words on their way up. -/
noncomputable def launchSteps (x : Nat × Launch) : List Instr :=
  ((List.range x.2.chans.length).map fun i => [Instr.channelMessageArrival x.1 i, .channelCreditReturn x.1 i]).flatten ++
    x.2.inFlight.map fun w => .statusWordFromChild x.1 w.1

/-- Steps of a relay round: its end, with what has come; the others' presence where no sum is formed is not known here. -/
noncomputable def roundStep (s : State) (r : Round) : Instr :=
  .relayRoundSum r.key r.frame (if r.live && grpHome r.desc == s.pkg then received s r else [])

/-- The answer a drawer gives to a packet (R184): the bytes read, or the status of a write. -/
noncomputable def drawerAnswer (s : State) (f : Flight) : List Instr :=
  if (s.port f.port).role != .drawer then []
  else
    let p : Packet := { f.pkt with dstPkg := s.pkg, srcPkg := f.pkt.dstPkg, payload := [], len := 0, stamp := none, keep := [], route := none }
    if f.pkt.type = 0x01 then
      let b := drawerData s f
      [.readReply (sealed { p with type := 0x02, payload := b, len := b.length / 32 })]
    else [.writeStatus (sealed { p with type := 0x04 })]

/-- The block that a gateway core forms of what it has received (R53, R193). -/
noncomputable def gateStep (s : State) (g : GateIn) : Instr := .gatewayBaddq (g.core / 4) (gatewayFormat g.core) (gateBlocks s g)

/-- Every step that may be due, in the order in which the model makes them. -/
noncomputable def candidates (s : State) : List Instr :=
  .frameBoundary :: .budgetPeriod ::
  (s.threads.map threadSteps).flatten ++
  (s.reqs.map (reqSteps s)).flatten ++
  (s.banks.map fun b => (b.2.resv.map fun v => Instr.atomicTermExpiry v.word)).flatten ++
  (s.quads.map fun q => [Instr.sfuResult q.1, .sfuServiceStart q.1]).flatten ++
  (s.dies.map (dieSteps s)).flatten ++
  (s.ctxs.map (ctxSteps s)).flatten ++
  (s.launches.map launchSteps).flatten ++
  (s.net.mapIdx fun i m => Instr.messagePlacement m.dst i) ++
  (List.range s.reports.length).map .containReport ++
  (s.episodes.map fun e => Instr.podBarrierTick e.key e.tick) ++
  (s.rounds.map (roundStep s)) ++
  (s.cores.map fun c => coreSteps s c.1).flatten ++
  (s.ports.map fun p => [Instr.outSlotDeparture p.1, .retrainStart p.1, .portResumeTimeout p.1]).flatten ++
  (s.flights.map (drawerAnswer s)).flatten ++ s.gate.map (gateStep s) ++
  (s.corrected.map fun w => Instr.scrubberRewrite (8 * w)) ++
  [.activationProceed, .activationDeferralTimeout]

/-- The first of a list of steps that takes place. -/
def firstEnabled (s : State) : List Instr → Option State
  | [] => none
  | i :: r =>
    match exec i s with
    | .next t => some t
    | _ => firstEnabled s r

/-! ## The clock (R7, R29) -/

/-- What an entry would find of a thread: it waits still. -/
def Did.blockedNow (d : Did) : Bool := match d with | .blocked _ => true | _ => false

/-- A live thread that is ready (R93): no wait holds for it. A wait that ends by looking again has ended, from the cycle after
its event, where the instruction would not wait now (R94). -/
noncomputable def readyNow (s : State) (key : Nat) : Bool :=
  let t := s.thr key
  t.live && !t.parked && (t.wait.isNone || match entryOf s key false with | .next u => !u.did.blockedNow | _ => false)

/-- The ready histogram of a core that is not halted gains one in the bin of its ready threads (R224). -/
noncomputable def histogram (s : State) (x : Nat × Core) : Core :=
  if haltedNow s x.1 then x.2
  else
    let n := ((List.range 16).filter fun i => readyNow s (keyOf x.1 i)).length
    { x.2 with hist := x.2.hist.setIfInBounds n (x.2.hist.toArray.getD n 0 + 1) }

/-- LEFT falls by one where the budget is enforced, the thread live and not halted (R117, R222, R223). -/
def countBudget (s : State) (x : Nat × Thread) : Thread :=
  if x.2.live && x.2.dlEn && !slotHalted s x.1 && x.2.dlLeft != 0 then { x.2 with dlLeft := x.2.dlLeft - 1 }
  else x.2

/-- A budget that an outstanding load would put back counts on where it stands (R117, R235). -/
def countKept (s : State) (r : Req) : Req :=
  let down (d : Bool × BitVec 48) : Bool × BitVec 48 := if d.1 && d.2 != 0 then (d.1, d.2 - 1) else d
  match r.owner with
  | .thread key => if slotHalted s key then r else { r with undo := r.undo.map fun u => { u with dl := u.dl.map down } }
  | _ => r

/-- The scrub of a parked slot's register bank ends: its words are whole again, and the slot is free (R208). -/
def scrubEnd (s : State) (t : Thread) : Thread :=
  match t.scrub with
  | some c => if c ≤ s.cycle then { t with parked := false, scrub := none, regs := { t.regs with lost := [] } } else t
  | none => t

/-- Requests of threads that have ended leave the queues in which they stand (R105, R199). -/
def dropOrphans (s : State) : State := (s.reqs.filter (orphaned s)).foldl leaveQueue s

/-- One cycle of the core clock on the time base: 4/9 ns, slewed by parts per million (R29); `sub` counts the fraction in
units of 1/9,000,000 ns. -/
def tickTime (s : State) : State :=
  let sub := s.sub + (4 * (1000000 + s.slew)).toNat
  { s with cycle := s.cycle + 1, sub := sub % 9000000, ptb := s.ptb + sub / 9000000 }

/-- A probe token moves by one core in a cycle. -/
noncomputable def moveToken (s : State) (x : Nat × Launch) : State :=
  match exec (.probeToken x.1) s with
  | .next t => t
  | _ => s

/-- A dirty line of a die whose bank may grant to the fill class leaves for its drawer (R171, R189). -/
def payBacks (s : State) (x : Nat × Die) : State :=
  x.2.backs.foldl (fun s l => if classTurn s (drawerHome (l * 128)) 4 then payBack s x.1 l else s) s

/-- A bank takes one grant of the firmware class that it owes, where it may (R171, R173). -/
def payOwed (s : State) (x : Nat × Bank) : State :=
  if x.2.owed != 0 && classTurn s x.1 5 then
    (takeGrant s x.1 5).updBank x.1 fun b => { b with owed := b.owed - 1 }
  else s

/-- A cycle begins: the banks have taken what grants the last one left for write-backs and for firmware; time goes on, budgets and
histograms count, requests of ended threads are withdrawn, scrubs end, each trace encoder writes a record, the boot ROM may end and
the Crown read its supervisor queue, hold clocks stand or go on, each probe token moves, and every core has its rotation entry
(R11). A core that is not listed has named no slot yet. -/
noncomputable def tick (s : State) : State :=
  let s := s.dies.foldl payBacks s
  let s := s.banks.foldl payOwed s
  let s : State := { s with
    threads := s.threads.map fun x => (x.1, scrubEnd s (countBudget s x))
    cores := s.cores.map fun x => (x.1, histogram s x)
    reqs := s.reqs.map (countKept s) }
  let s := dropOrphans (tickTime s)
  let s := s.cores.foldl (fun s x => traceDrain s x.1) s
  let s := romStep s
  let s := if fwUp s then crownReads s else s
  let s := s.ctxs.foldl (fun s x => refreeze s x.1) s
  let s : State := { s with ctxs := s.ctxs.map fun x => (x.1, idleRing s x.2) }
  let s := s.launches.foldl moveToken s
  { s with turn := s.cores.map (·.1), did := .nothing }

/-! ## A step of an agenda -/

/-- A step of the machine or an act of the outside: no instruction word stands for it. -/
def isEvent (i : Instr) : Bool := (encodeNat i).isNone

/-- What the agenda asks for is done where it can be. An instruction word is none of its steps: a thread runs those. -/
def fromAgenda (i : Instr) (s : State) : Host.Outcome State Fault Refusal :=
  if isEvent i then exec i s else .refused (.notEnabled "agenda")

/-- One step: the head of the agenda; else, after a fatal error, nothing more (R219); else the rotation entry of the next
tile of this cycle; else the first step that is due; else the clock. -/
noncomputable def stepMachine (s : State) : Host.Outcome State Fault Refusal :=
  match s.agenda with
  | i :: r => fromAgenda i { s with agenda := r }
  | [] =>
    match s.fatal with
    | some c => .fault (.packageStopped c)
    | none =>
      match s.turn with
      | t :: r => tileTurn { s with turn := r } t
      | [] =>
        match firstEnabled s (candidates s) with
        | some t => .next t
        | none => .next (tick s)

/-! ## A word placed where the next step fetches -/

/-- Where the placed word stands: a page of the first slice, and the address that maps to it. -/
def placePa (s : State) : Nat := s.pkg * 2 ^ 44
def placeVa : VAddr := 0x10000

/-- The translation by which it is fetched: read and execute, generation 0. -/
def placeEntry (s : State) (ctx : Nat) : TlbEntry where
  ctx := ctx
  vpn := 0x10
  log := 12
  pa := placePa s
  r := true
  w := false
  x := true
  gen := 0
  lap := false

/-- A launch of context 1 that holds tile 0 alone. -/
def placeLaunch0 : Launch :=
  { Launch.reset with
    ctx := 1
    payload := List.replicate 14 0
    state := .running
    tiles := [0]
    stages := [(0, 1)] }

/-- Context 1 with one core. -/
def placeCtx (s : State) : Ctx :=
  let c := s.ctx 1
  if c.live then c
  else { c with live := true, cores := 1, holds := [(0, ⟨0, true, true, .context, s.ptb + 60000000000, s.ptb, [], false⟩)] }

/-- Tile 0 as a launch holds it: its own launch where it has one, else a new one. -/
def placeTile (s : State) : State :=
  match (s.core 0).launch with
  | some _ => s
  | none =>
    let s := (s.setCtx 1 (placeCtx s)).setLaunch s.nextId placeLaunch0
    { s.updCore 0 (fun c => { c with launch := some s.nextId, lastCtx := some 1 }) with nextId := s.nextId + 1 }

/-- Slot 0 of tile 0 about to fetch. -/
def placeThread (t : Thread) : Thread :=
  { t with
    live := true
    parked := false
    scrub := none
    regs := { t.regs with lost := [] }
    pc := placeVa
    npc := placeVa
    wait := none
    failures := []
    dlEn := t.dlEn && t.dlLeft != 0
    dlDue := false
    got := none
    view := none
    ibuf := []
    walkFault := none
    missPage := none
    role := .alone }

/-- A word stored where the next step fetches it, and a second word of zeros behind it: the launch that holds tile 0 has its
slot 0 at that place, in the rotation entry that comes next, and nothing else comes before it. -/
def placeWord (s : State) (w : Nat) : State :=
  let s := placeTile { s with agenda := [], fatal := none, turn := [0], fetchAhead := [] }
  let s := s.updThr 0 placeThread
  let s := s.updCore 0 fun c =>
    { c with
      rottab := c.rottab.setIfInBounds ((c.rotPos + 1) % 32) 0x80
      dbgctl := 0
      step := none
      stopping := false
      ring := []
      tlb := placeEntry s (ctxOf s 0) :: c.tlb }
  let s : State := { s with
    pod := if s.pod.contains s.pkg then s.pod else s.pkg :: s.pod
    reqs := s.reqs.filter fun r => !r.ofThread 0
    poison := s.poison.filter fun x => x != placePa s / 8 }
  (leBytes 8 (w % 2 ^ 32)).mapIdx (fun i b => (i, b)) |>.foldl
    (fun s x => writeAt s (lidOf s 0) (placePa s + x.1) x.2) s

end Sys2Proof.Machine
end

