-- ==== Sys2Proof/Machine/Step.lean ====
section
/-! DEFINITION. The step of the machine, and a word placed where the next step fetches. -/

namespace Sys2Proof.Machine

/-- One step of the package. -/
noncomputable def step (s : State) : Host.Outcome State Fault Refusal := stepMachine s

/-- `s` with an instruction's word of `nbits` bits placed so that the very next step fetches and runs it (log entry 22). -/
def State.withFetchWord (s : State) (nbits w : Nat) : State := placeWord s (w % 2 ^ nbits)

end Sys2Proof.Machine
end

