-- ==== Sys2Proof/Safety.lean ====
section
/-! DEFINITION. What counts as a safe run, and the predicates in which the statements about the machine are written. -/

namespace Sys2Proof.Safety

open Sys2Proof.Machine

/-- Both memories in canonical form: addresses strictly rising, and no cell that holds what an unlisted address reads as.
Equal memories are then equal lists. -/
def MemOk (s : State) : Prop := Memory.wf s.mem = true ∧ Memory.wf s.hostMem = true

/-! ## The end of an instruction that ran -/

/-- The machine once an instruction has run to its end in state `u`: the channel messages it popped and pushed take
effect (R17), and the step records that it ran. -/
def ended (u : State) : State := { settleChans u u.cur with did := .ran }

/-- The running thread ends as `u` (its popped and pushed messages settled), and nothing else of the machine changes but
where such messages go: every other thread, every byte of memory, and every other field of the state is as it was; a
core keeps everything but its inbox and the places of it that are bespoken, and, where `traced`, its trace buffer; a launch keeps everything but its channels;
an access in flight keeps everything but what it would take back; and with nothing popped or pushed (and no trace
running, where `traced`) those are as they were too. -/
def OnlyThread (traced : Bool) (s t : State) (u : Thread) : Prop :=
  t.did = .ran ∧
  t.thr s.cur = { u with pops := [], pushes := [] } ∧
  (∀ k, k ≠ s.cur → t.thr k = s.thr k) ∧
  (∀ a, readByte t.mem a = readByte s.mem a) ∧
  t = { s with threads := t.threads, did := t.did, reqs := t.reqs, launches := t.launches, cores := t.cores } ∧
  (∀ k, t.core k =
    { s.core k with
      inbox := (t.core k).inbox
      inboxDue := (t.core k).inboxDue
      trace := if traced then (t.core k).trace else (s.core k).trace }) ∧
  (∀ l, t.launch l = { s.launch l with chans := (t.launch l).chans }) ∧
  t.reqs.map (fun r => { r with undo := none }) = s.reqs.map (fun r => { r with undo := none }) ∧
  (u.pops = [] → u.pushes = [] → t.reqs = s.reqs ∧ t.launches = s.launches) ∧
  (u.pops = [] → u.pushes = [] → (traced = false ∨ (s.core (tileOf s.cur)).trace = none) → t.cores = s.cores)

/-- Instruction `i` runs to its end and its thread ends as `u`; nothing else changes. -/
def RunsTo (i : Instr) (s : State) (u : Thread) : Prop := ∃ t, exec i s = .next t ∧ OnlyThread false s t u

/-- Instruction `i` writes `x` to scalar register `d` where guard `g` is true, and does nothing where it is false. -/
def WritesScalar (i : Instr) (s : State) (d : SReg) (g : KReg) (x : Word) : Prop :=
  RunsTo i s (if s.rk g then { s.me with regs := s.me.regs.ws d.val x } else s.me)

/-- Instruction `i` writes `x` to predicate register `d` where guard `g` is true, and does nothing where it is false. -/
def WritesPredicate (i : Instr) (s : State) (d : KReg) (g : KReg) (x : Bool) : Prop :=
  RunsTo i s (if s.rk g then { s.me with regs := s.me.regs.wk d.val x } else s.me)

/-- Instruction `i` writes `x` to mask register `d` where guard `g` is true, and does nothing where it is false. -/
def WritesMask (i : Instr) (s : State) (d : MReg) (g : KReg) (x : Mask) : Prop :=
  RunsTo i s (if s.rk g then { s.me with regs := s.me.regs.wm d.val x } else s.me)

/-- Instruction `i` writes to vector register `d`, where guard `g` is true, a value whose element `j` of width `w` is
`f j` cut to `w` bits; it does nothing where the guard is false. -/
def WritesVector (i : Instr) (s : State) (d : VReg) (g : KReg) (w : Nat) (f : Nat → Nat) : Prop :=
  ∃ v, RunsTo i s (if s.rk g then { s.me with regs := s.me.regs.wv d.val v } else s.me) ∧
    ∀ j, j < 512 / w → elem v w j = f j % 2 ^ w

/-- Nothing waits to be reported to the running thread: no imprecise report of a command, no failed access, no message
that was diverted or not placed (R200). -/
def NoReport (s : State) : Prop := impreciseDue s s.cur = false ∧ earlierReport s s.cur = none

/-- Instruction `i` raises a precise fault: where no other access of the thread is under way, nothing waits to be reported
to it, and it is not the trailing one of a pair, the fault is taken at this instruction, and nothing of the instruction is
done (R197, R200). -/
def Traps (i : Instr) (s : State) (c : Code) (detail val : Nat) : Prop :=
  s.busy s.cur = false → NoReport s → s.me.role ≠ .trailing →
    exec i s =
      .next { takeFault s s.cur ⟨c, detail, val, none, false⟩ with did := .trapped ⟨c, detail, val, none, false⟩ }

/-- Instruction `i` leaves its thread waiting for `w`, with nothing of the instruction done (R93). -/
def Waits (i : Instr) (s : State) (w : Wait) : Prop := exec i s = .next (stay s w)

/-! ## Vector-class words -/

/-- An element-wise word over one source of width `w`: whatever it reads (R17), each active element of its destination
is `f` of the source's element cut to `w` bits, inactive elements keep the destination's old value, and the flags of
the active elements are raised (R274). -/
def Elementwise1 (w : Nat) (mk : VFld → VFld → MReg → Instr) (f : State → Nat → Nat × BitVec 8) : Prop :=
  ∀ (d a : VFld) (g : MReg) (s s1 : State) (x : Vec), sources1 s a (some d) = .ok (x, s1) →
    ∃ v : Vec, exec (mk d a g) s = .next (ended ((putVec s1 d v).raise
        (orFlags (512 / w) fun i => if active w (s.rm g) i then (f s (elem x w i)).2 else 0))) ∧
      ∀ i, i < 512 / w → elem v w i = if active w (s.rm g) i then (f s (elem x w i)).1 % 2 ^ w else elem (oldOf s d) w i

/-- The same over two sources. -/
def Elementwise2 (w : Nat) (mk : VFld → VFld → VFld → MReg → Instr) (f : State → Nat → Nat → Nat × BitVec 8) : Prop :=
  ∀ (d a b : VFld) (g : MReg) (s s1 : State) (x y : Vec), sources2 s a b (some d) = .ok (x, y, s1) →
    ∃ v : Vec, exec (mk d a b g) s = .next (ended ((putVec s1 d v).raise
        (orFlags (512 / w) fun i => if active w (s.rm g) i then (f s (elem x w i) (elem y w i)).2 else 0))) ∧
      ∀ i, i < 512 / w → elem v w i =
        if active w (s.rm g) i then (f s (elem x w i) (elem y w i)).1 % 2 ^ w else elem (oldOf s d) w i

/-- The same over two sources and the destination register's old value. -/
def Elementwise3 (w : Nat) (mk : VReg → VFld → VFld → MReg → Instr)
    (f : State → Nat → Nat → Nat → Nat × BitVec 8) : Prop :=
  ∀ (d : VReg) (a b : VFld) (g : MReg) (s s1 : State) (x y : Vec), sources2 s a b none = .ok (x, y, s1) →
    ∃ v : Vec, exec (mk d a b g) s = .next (ended ((s1.wv d.val v).raise
        (orFlags (512 / w) fun i =>
          if active w (s.rm g) i then (f s (elem x w i) (elem y w i) (elem (s.rv d.val) w i)).2 else 0))) ∧
      ∀ i, i < 512 / w → elem v w i =
        if active w (s.rm g) i then (f s (elem x w i) (elem y w i) (elem (s.rv d.val) w i)).1 % 2 ^ w
        else elem (s.rv d.val) w i

/-- An element-wise compare: active bits of mask register `d` become the comparison of their elements, inactive bits
keep their value, bits 15:8 are zero for 64-bit elements (R16, R279), and the flags of the active elements are
raised. -/
def ElementCompare (w : Nat) (mk : MReg → VFld → VFld → MReg → Instr) (f : State → Nat → Nat → Bool × BitVec 8) : Prop :=
  ∀ (d : MReg) (a b : VFld) (g : MReg) (s s1 : State) (x y : Vec), sources2 s a b none = .ok (x, y, s1) →
    ∃ m : Mask, exec (mk d a b g) s = .next (ended ((s1.wm d m).raise
        (orFlags (512 / w) fun i => if active w (s.rm g) i then (f s (elem x w i) (elem y w i)).2 else 0))) ∧
      ∀ i, i < 16 → m.getLsbD i =
        if w = 64 ∧ 8 ≤ i then false
        else if (s.rm g).getLsbD i then (f s (elem x w i) (elem y w i)).1 else (s.rm d).getLsbD i

/-- A cross-lane move (R280): destination element `e` reads an element whose governing position is `reads e` and whose
value is `val e`. Where every element read is active, or reads of inactive ones give 0 (`z`), each active destination
element takes its value and the others keep theirs; otherwise LANE is raised, with the mask bits of the inactive
elements it would read in TRAPVAL, and nothing is written. -/
def CrossLane (w : Nat) (z : Bool) (i : Instr) (s : State) (g : MReg) (reads val old : Nat → Nat)
    (done : Vec → State) : Prop :=
  ((z = true ∨ ∀ e, e < 512 / w → active w (s.rm g) e = true → active w (s.rm g) (reads e) = true) →
    ∃ v : Vec, exec i s = .next (ended (done v)) ∧
      ∀ e, e < 512 / w → elem v w e =
        if active w (s.rm g) e then (if active w (s.rm g) (reads e) then val e else 0) else old e) ∧
  (z = false → (∃ e, e < 512 / w ∧ active w (s.rm g) e = true ∧ active w (s.rm g) (reads e) = false) →
    ∃ set : Nat, Traps i s .lane 0 set ∧
      ∀ j, set.testBit j = true ↔
        ∃ e, e < 512 / w ∧ active w (s.rm g) e = true ∧ active w (s.rm g) (reads e) = false ∧
          maskBit w (reads e) = j)

/-- A reduction (R283): its source's elements of width `w`, inactive ones read as 0 under `z` and raising LANE
otherwise, are reduced to the scalar and the flags that `f` gives. -/
def Reduces (w : Nat) (z : Bool) (i : Instr) (s : State) (d : SReg) (a : VFld) (g : MReg)
    (f : List Nat → Word → BitVec 8 → Prop) : Prop :=
  ∀ (x : Vec) (s1 : State), sources1 s a none = .ok (x, s1) →
    ((z = true ∨ ∀ e, e < 512 / w → active w (s.rm g) e = true) →
      ∃ (r : Word) (fl : BitVec 8), exec i s = .next (ended ((s1.ws d r).raise fl)) ∧
        f ((List.range (512 / w)).map fun e => if active w (s.rm g) e then elem x w e else 0) r fl) ∧
    (z = false → (∃ e, e < 512 / w ∧ active w (s.rm g) e = false) →
      ∃ set : Nat, Traps i s .lane 0 set ∧
        ∀ j, set.testBit j = true ↔ ∃ e, e < 512 / w ∧ active w (s.rm g) e = false ∧ maskBit w e = j)

/-- A request to the quad's SFU (R96, R295): the values are computed from the sources as they stand at issue, the
request joins the queue of the thread's quad with its fixed times, and the thread waits for the result. A destination
channel's allowance is taken at issue. -/
def SfuRequest (i : Instr) (s s1 : State) (d : VFld) (v : Vec) (flags : BitVec 8) (times : Nat × Nat) : Prop :=
  exec i s = .next (ended (sfuIssue s1 d v flags times))

/-- R308: z + S × (sA × sB) rounded once to FP32, or the canonical NaN with NV where a scale does not conform. -/
def combinedScale (term : X) (pair z : Nat) : Nat × BitVec 8 :=
  if scaleOk (pair % 2 ^ 16) && scaleOk (pair / 2 ^ 16) then
    match mulX (unpackRaw bf16 (pair % 2 ^ 16)) (unpackRaw bf16 (pair / 2 ^ 16)) with
    | some c => fmaRound fp32 (envRne true) term c (unpackRaw fp32 z)
    | none => (0x7FC0_0000, fNV)
  else (0x7FC0_0000, fNV)

/-! ## Accesses to memory -/

/-- The running thread acts for itself: it is not one of a protected pair, or is the leading one of a pair whose trailing one
stands parked while it handles a fault (R209, R210). -/
def Unpaired (s : State) : Prop := s.me.role = .alone ∨ s.me.role = .handling

/-- The running thread may access memory at once: nothing of it is under way, nothing waits to be reported to it (R72, R73,
R75, R200), and it acts for itself. -/
def Clear (s : State) : Prop := s.busy s.cur = false ∧ NoReport s ∧ Unpaired s

/-- An access passes its checks as these parts (R148, R221): none of them finds a fault, and no watch is hit. -/
def Passes (s : State) (a : Acc) (parts : List Part) : Prop := checkAcc s a = .ok parts ∧ watchCheck s a = .ok ()

/-- The machine with a load put in flight; a plain one leaves the thread waiting for its value (R72). -/
def loadSent (s : State) (rlx : Bool) (a : Acc) (kind : ReqKind) (size : Nat) (fin : Finish) (parts : List Part) :
    State :=
  let r := mkReq s rlx kind a.va size parts (List.replicate size 0) fin (!rlx)
  if rlx then issue s r else (issue s r).updMe fun t => { t with wait := some (.load r.id) }

/-- The machine with a plain store put in flight, a replayable launch noting where it writes (R211). -/
def storeSent (s : State) (a : Acc) (kind : ReqKind) (size : Nat) (buf : List Byte) (parts : List Part) : State :=
  let u := noteWrites s parts
  issue u (mkReq u false kind a.va size parts buf .none false)

/-- The machine with a relaxed store put in flight, or held in the combining buffer where all its bytes lie in one
granule whose home is not the thread's own tile (R74); a store of some bits of a byte is not held. -/
def relaxedSent (s : State) (a : Acc) (kind : ReqKind) (size : Nat) (buf : List Byte) (parts : List Part) : State :=
  let u := noteWrites s parts
  match if kind = .store then holdable u parts else none with
  | none => issue u (mkReq u true kind a.va size parts buf .none false)
  | some g => u.updMe fun t =>
      { t with comb := [⟨g, storeBytes parts buf, u.cycle, a.va, t.seq⟩], seq := t.seq + 1 }

/-- The machine with an atomic put in flight, the thread waiting for its word (R89, R319); `ends` where its write ends the
launch's replayability, once it is performed (R211). -/
def atomicSent (s : State) (ends : Bool) (a : Acc) (kind : ReqKind) (size : Nat) (fin : Finish) (parts : List Part) : State :=
  (issue s ((mkReq s false kind a.va size parts (List.replicate size 0) fin true).endsReplay ends)).updMe
    fun t => { t with wait := some .reservation }

/-! ## Requests of a thread to its keeper, and answers -/

/-- The machine with a request of the running thread at its die's keeper, the thread waiting for the answer (R107). -/
def asked (s : State) (k : KeeperReq) : State :=
  stay { (s.updDie (dieOf (tileOf s.cur)) fun d => { d with keeper := d.keeper ++ [k] }).updMe
      (fun t => { t with got := none }) with nextId := s.nextId + 1 } (.keeper k.id)

/-- The machine with a first load of words put in flight for an instruction that goes on with them (R324, R333, R356), the
time of its issue kept (R135). -/
def readingFirst (s : State) (p : Word) (n : Nat) (parts : List Part) : State :=
  let r := mkReq s false .load (ptrVa p) (8 * n) parts (List.replicate (8 * n) 0) .stash false
  stay ((issue s r).updMe fun t => { t with asked := s.ptb }) (.load r.id)

/-- An answer has come: the instruction ends, and its thread's registers become `r`. -/
def TakesAnswer (i : Instr) (s : State) (r : Regs) : Prop := RunsTo i s { s.me with got := none, regs := r }

/-! ## The machine's own steps -/

/-- Step `i` of the machine, or act of the outside, takes place in state `s` and leaves `t`, unless a fatal error has
stopped the package (R219). No thread runs an instruction in it. -/
def Happens (i : Instr) (s t : State) : Prop := s.fatal = none → exec i s = .next { t with did := .nothing }

/-- Part `i` of request `r` at another stage. -/
def partAt (r : Req) (i : Nat) (g : Stage) : Req :=
  { r with parts := r.parts.mapIdx fun j p => if j = i then { p with stage := g } else p }

/-- A thread that stands at a boundary at once: it is live and not parked, waits for nothing, and nothing of it is under
way (R75, R118). -/
def AtBoundary (s : State) (key : Nat) : Prop :=
  (s.thr key).live = true ∧ (s.thr key).parked = false ∧ (s.thr key).wait = none ∧ (s.thr key).got = none ∧
    s.busy key = false ∧ sfuPending s key = false

/-- Engine command `r` of kind `k` runs on its engine of a core (Table 16-3). -/
def Running (s : State) (tile : Nat) (k : CmdKind) (r : Run) : Prop :=
  runOf s tile (kindEng k) = some r ∧ kindOf r.cmd.word = some k

/-- Item `i` of the command that an engine runs. -/
def itemAt (s : State) (tile : Nat) (e : Eng) (i : Nat) : Option Item := (runOf s tile e).bind fun r => r.item i

/-- The item stands at `stage` with `data` after a step, the command has gained the flags `f`, and no byte of memory has
changed. -/
def ItemMoves (s t : State) (tile : Nat) (k : CmdKind) (r : Run) (i : Nat) (stage : ItemStage) (data : List Byte)
    (f : BitVec 8) : Prop :=
  itemAt t tile (kindEng k) i = some ⟨i, stage, data, false⟩ ∧
    (runOf t tile (kindEng k)).map (·.flags) = some (r.flags ||| f) ∧ t.mem = s.mem

end Sys2Proof.Safety
end

