-- ==== Sys2Proof/Certificates/Slice0/Obligations.lean ====
section
/-! DEFINITION. The statements about the machine, from the numbered rules of spec/. Where a statement speaks of an
instruction, its conclusion says that `exec` answers a next state, and what that state holds. -/

open Sys2Proof Sys2Proof.Machine Sys2Proof.Safety

/-! ## The machine as a whole -/

/-- R242, Tables 11-1 to 11-6: decoding and encoding agree, in both directions: the word of a well-formed instruction
decodes to it, every operand at every value that the encoding admits; and a word with P clear that decodes to an
instruction is that instruction's word, so that no bit of a word is without meaning. -/
def Obligations.EncodingAndDecodingAgree : Prop :=
  (∀ (i : Instr) (w : IWord), encode i = some w → i.wf = true → decodeWord w = .ok i) ∧
  (∀ (i : Instr) (w : IWord), w.toNat < 2 ^ 31 → decodeWord w = .ok i → encode i = some w ∧ i.wf = true)

/-- Table 11-7 and the encoding tables: words written out bit by bit decode to what they stand for. -/
def Obligations.WordsDecodeToTheirInstructions : Prop :=
  decodeWord 0x0A40_002A = .ok (.li 4 42) ∧ decodeWord 0x0C41_2345 = .ok (.lio 4 0x12345) ∧
  decodeWord 0x0242_9800 = .ok (.add 4 5 6 0) ∧ decodeWord 0x0274_2442 = .ok (.sra 7 8 9 2) ∧
  decodeWord 0x06A5_B020 = .ok (.div 10 11 12 0) ∧ decodeWord 0x1012_1410 = .ok (.cmp .lt 1 4 5 0) ∧
  decodeWord 0x1242_9850 = .ok (.sel 4 2 5 6 0) ∧ decodeWord 0x14FF_FFFC = .ok (.brN 3 0x1FFFFC) ∧
  decodeWord 0x1700_01F9 = .ok (.call 0x1F9) ∧ decodeWord 0x1800_0010 = .ok (.ret 0) ∧
  decodeWord 0x1A40_0FFF = .ok (.loop 4 0xFFF) ∧ decodeWord 0x1C22_4064 = .ok (.cmpi .ltu 2 4 100) ∧
  decodeWord 0x2A42_9910 = .ok (.vdot4 true false 4 5 6 0) ∧ decodeWord 0x2841_02B1 = .ok (.vredAdd .f32 true 4 2 1) ∧
  decodeWord 0x3641_0000 = .ok (.bamax 4 2 0) ∧ decodeWord 0x3630_8080 = .ok (.bdeq .i8 3 1 0) ∧
  decodeWord 0x4065_0110 = .ok (.ld .w32 false false 6 10 2 0) ∧
  decodeWord 0x4255_FF3B = .ok (.st .w64 true 11 0xFE 5 3) ∧ decodeWord 0x4E06_0080 = .ok (.pf 12 0) ∧
  decodeWord 0x4E00_0020 = .ok (.fence .pod 0) ∧ decodeWord 0x4E00_0058 = .ok (.fenceEng .pkg 0) ∧ decodeWord 0x5862_1400 = .ok (.hstart 6 4 5 0)

/-- R11, R95, R200, R232, R234, R235, R245: the rotation entry of a live thread that nothing keeps from issuing fetches
the word at its program counter through the TLB and runs the instruction that it decodes to. The step is `exec` of that
instruction, met with the address after it in `npc`; where it ran, the thread stands at `npc` afterwards; and the entry is
counted. A word with P set is run with the one after it, as `issueDecoded` of both: where the two keep R234 and both run,
the second reads its sources as they stood before the pair. No register word of the thread's is lost (R208).
(Log entries 2, 22.) -/
def Obligations.AStepRunsTheDecodedInstruction : Prop :=
  ∀ (s : State) (tile slot pos : Nat) (rest : List Nat) (e : TlbEntry) (i : Instr),
  let key := keyOf tile slot
  let c := s.core tile
  let x := s.thr key
  let w := wordAtPa s (lidOf s tile) (e.addr x.pc.toNat)
  let m := meeting ({ s with turn := rest }.setCore tile { c with rotPos := pos }) key false
  s.agenda = [] → s.fatal = none → s.turn = tile :: rest → pos = (c.rotPos + 1) % 32 →
  (c.rottab.toArray.getD pos 0).toNat = 128 + slot → slot < 16 → tileOf key = tile →
  c.halt = false → c.stopping = false → x.live = true → x.parked = false → x.wait = none → faultWaits s key = false →
  (∀ n, n < 4 → c.dbgctl.getLsbD (12 + n) = false) → x.ibuf = [] → x.walkFault = none → x.failures = [] →
  x.regs.lost = [] → s.inFlight key = [] → tlbLookup s tile (ctxOf s tile) x.pc.toNat = some e →
  leafCause s e x.pc.toNat needX = none → s.poison.contains (e.addr x.pc.toNat / 8) = false → decodeWord w = .ok i →
  (pairBit w = false →
    ∃ t : State, t = { m with threads := t.threads, fetchAhead := t.fetchAhead } ∧
      t.thr key = { m.thr key with ibuf := (t.thr key).ibuf } ∧ (∀ k, k ≠ key → t.thr k = s.thr k) ∧
      step s = match exec i (advance t 1) with
        | .next u => .next (countDid (commit 1 (shields t i) key u) key)
        | .fault r => .fault r
        | .refused r => .refused r) ∧
  (∀ (e2 : TlbEntry) (i2 : Instr),
    let pc2 := (x.pc + 4).toNat
    let w2 := wordAtPa s (lidOf s tile) (e2.addr pc2)
    pairBit w = true → tlbLookup s tile (ctxOf s tile) pc2 = some e2 → leafCause s e2 pc2 needX = none →
    s.poison.contains (e2.addr pc2 / 8) = false → decodeWord w2 = .ok i2 → pairBad w w2 i i2 = false →
    ∃ t : State, t = { m with threads := t.threads, fetchAhead := t.fetchAhead } ∧
      t.thr key = { m.thr key with ibuf := (t.thr key).ibuf } ∧ (∀ k, k ≠ key → t.thr k = s.thr k) ∧
      let a := advance t 2
      let see := fun (u : State) => u.updThr key fun y => { y with
        view := some x.regs
        oldDl := if y.dlEn = x.dlEn ∧ y.dlLeft = x.dlLeft then none else some (x.dlEn, x.dlLeft) }
      ∀ t1 t2 u : State, exec i a = .next t1 → t1.did = .ran → exec i2 (see a) = .next t2 → t2.did = .ran →
        exec i2 (see t1) = .next u → u.did = .ran → step s = .next (countDid (commit 2 false key u) key))

/-- R219: a fatal error stops the package: from then on a step of the machine stops with its cause, be it one that is due
or one that an agenda asks for, but for PACKAGE_RESET; no thread issues, and no step takes place of itself. -/
def Obligations.OnlyResetFollowsAFatalError : Prop := ∀ (s : State) (c : Nat), s.fatal = some c →
  (∀ i : Instr, isEvent i = true → (∀ b, i ≠ .packageReset b) →
    exec i s = .fault (.packageStopped c) ∧
    ∀ r, s.agenda = i :: r → step s = .fault (.packageStopped c)) ∧
  (s.agenda = [] → step s = .fault (.packageStopped c))

/-- The memory's canonical form (the model's own, NOTES.md) is kept by every step: package memory and host memory list
addresses in rising order, and no cell that holds what an unlisted address reads as. -/
def Obligations.EveryStepKeepsMemoryCanonical : Prop := ∀ s t : State, MemOk s → step s = .next t → MemOk t

/-- Memory is canonical at reset, and empty: the model's own form, and its choice that a byte that nothing has written reads as 0
(log entry 4). -/
def Obligations.MemoryIsCanonicalAtReset : Prop := MemOk State.reset ∧ ∀ a, readByte State.reset.mem a = 0

/-- R29, R31, R162, Tables 1-12, 2-1, 6-11, 7-10, 8-1 and 8-6: what reset leaves where the spec gives it: the boot ROM waits, FWLOCK
is clear, the time base is not set, FPCTL is 8, STAGGER 0, the prefetchers off, the bank budgets their reset values, and
ports 0 to 7 are drawer ports, 8 to 11 peer ports. Nothing is under way: no thread is live and no core holds a launch (the
model's reading, log entry 22). -/
def Obligations.ResetLeavesWhatTheSpecGives : Prop :=
  let s := State.reset
  s.boot.state = 0 ∧ s.boot.fwlock = 0 ∧ s.boot.ident = none ∧ s.tbSet = false ∧ s.fatal = none ∧
  s.reqs = [] ∧ s.net = [] ∧ s.launches = [] ∧
  (∀ k, (s.thr k).live = false ∧ (s.thr k).fpctl = 8) ∧ (∀ c, (s.ctx c).live = false) ∧
  (∀ t, (s.core t).launch = none ∧ (s.core t).stagger = 0) ∧ (∀ d, (s.die d).pfctl.getLsbD 0 = false) ∧
  (∀ b, (s.bank b).bud = 0x0000_1020_3020_4040) ∧
  ∀ p, p < 12 → (s.port p).role = (if p < 8 then .drawer else .peer) ∧ (s.port p).trained = false

/-! ## Scalar work (spec/12_isa_scalar.md) -/

/-- R256: the register forms of Table 12-2, guard and frame included. -/
def Clauses.AluRegisterFormsWriteTheirResult : Prop := ∀ (d a b : SReg) (g : KReg) (s : State),
  WritesScalar (.add d a b g) s d g (BitVec.ofNat 64 ((s.rs a).toNat + (s.rs b).toNat)) ∧
  WritesScalar (.sub d a b g) s d g (BitVec.ofInt 64 ((s.rs a).toInt - (s.rs b).toInt)) ∧
  WritesScalar (.and d a b g) s d g (s.rs a &&& s.rs b) ∧
  WritesScalar (.or d a b g) s d g (s.rs a ||| s.rs b) ∧
  WritesScalar (.xor d a b g) s d g (s.rs a ^^^ s.rs b) ∧
  WritesScalar (.andn d a b g) s d g (s.rs a &&& ~~~(s.rs b)) ∧
  WritesScalar (.sll d a b g) s d g (BitVec.ofNat 64 ((s.rs a).toNat * 2 ^ ((s.rs b).toNat % 64))) ∧
  WritesScalar (.srl d a b g) s d g (BitVec.ofNat 64 ((s.rs a).toNat / 2 ^ ((s.rs b).toNat % 64))) ∧
  WritesScalar (.sra d a b g) s d g (BitVec.ofInt 64 ((s.rs a).toInt / (2 ^ ((s.rs b).toNat % 64) : Nat))) ∧
  WritesScalar (.min d a b g) s d g (if (s.rs a).toInt ≤ (s.rs b).toInt then s.rs a else s.rs b) ∧
  WritesScalar (.max d a b g) s d g (if (s.rs a).toInt ≤ (s.rs b).toInt then s.rs b else s.rs a) ∧
  WritesScalar (.minu d a b g) s d g (if (s.rs a).toNat ≤ (s.rs b).toNat then s.rs a else s.rs b) ∧
  WritesScalar (.maxu d a b g) s d g (if (s.rs a).toNat ≤ (s.rs b).toNat then s.rs b else s.rs a) ∧
  WritesScalar (.slt d a b g) s d g (if (s.rs a).toInt < (s.rs b).toInt then 1 else 0) ∧
  WritesScalar (.sltu d a b g) s d g (if (s.rs a).toNat < (s.rs b).toNat then 1 else 0)

/-- R257: the immediate forms. They have no guard, which is the guard `k0`. -/
def Clauses.AluImmediateFormsWriteTheirResult : Prop :=
  ∀ (d a : SReg) (imm : BitVec 12) (sh : Fin 64) (s : State),
  WritesScalar (.addi d a imm) s d 0 (BitVec.ofInt 64 ((s.rs a).toInt + imm.toInt)) ∧
  WritesScalar (.andi d a imm) s d 0 (s.rs a &&& BitVec.ofInt 64 imm.toInt) ∧
  WritesScalar (.ori d a imm) s d 0 (s.rs a ||| BitVec.ofInt 64 imm.toInt) ∧
  WritesScalar (.xori d a imm) s d 0 (s.rs a ^^^ BitVec.ofInt 64 imm.toInt) ∧
  WritesScalar (.slli d a sh) s d 0 (BitVec.ofNat 64 ((s.rs a).toNat * 2 ^ sh.val)) ∧
  WritesScalar (.srli d a sh) s d 0 (BitVec.ofNat 64 ((s.rs a).toNat / 2 ^ sh.val)) ∧
  WritesScalar (.srai d a sh) s d 0 (BitVec.ofInt 64 ((s.rs a).toInt / (2 ^ sh.val : Nat))) ∧
  WritesScalar (.slti d a imm) s d 0 (if (s.rs a).toInt < imm.toInt then 1 else 0)

/-- R258: multiply and divide, corner results included. -/
def Clauses.MultiplyDivideWriteTheirResult : Prop := ∀ (d a b : SReg) (g : KReg) (s : State),
  WritesScalar (.mul d a b g) s d g (BitVec.ofNat 64 ((s.rs a).toNat * (s.rs b).toNat)) ∧
  WritesScalar (.mulh d a b g) s d g (BitVec.ofInt 64 ((s.rs a).toInt * (s.rs b).toInt / (2 ^ 64 : Nat))) ∧
  WritesScalar (.mulhu d a b g) s d g (BitVec.ofNat 64 ((s.rs a).toNat * (s.rs b).toNat / 2 ^ 64)) ∧
  WritesScalar (.mulhm d a b g) s d g (BitVec.ofInt 64 ((s.rs a).toInt * ((s.rs b).toNat : Int) / (2 ^ 64 : Nat))) ∧
  WritesScalar (.div d a b g) s d g
    (if s.rs b = 0 then 0xFFFF_FFFF_FFFF_FFFF
     else if (s.rs a).toInt = -(2 ^ 63 : Nat) ∧ (s.rs b).toInt = -1 then s.rs a
     else BitVec.ofInt 64 (Int.tdiv (s.rs a).toInt (s.rs b).toInt)) ∧
  WritesScalar (.divu d a b g) s d g
    (if s.rs b = 0 then 0xFFFF_FFFF_FFFF_FFFF else BitVec.ofNat 64 ((s.rs a).toNat / (s.rs b).toNat)) ∧
  WritesScalar (.rem d a b g) s d g
    (if s.rs b = 0 then s.rs a
     else if (s.rs a).toInt = -(2 ^ 63 : Nat) ∧ (s.rs b).toInt = -1 then 0
     else BitVec.ofInt 64 ((s.rs a).toInt - (s.rs b).toInt * Int.tdiv (s.rs a).toInt (s.rs b).toInt)) ∧
  WritesScalar (.remu d a b g) s d g
    (if s.rs b = 0 then s.rs a
     else BitVec.ofNat 64 ((s.rs a).toNat - (s.rs b).toNat * ((s.rs a).toNat / (s.rs b).toNat)))

/-- R256 to R258: scalar arithmetic, of registers and of immediates. -/
def Obligations.ScalarArithmeticWritesItsResult : Prop :=
  Clauses.AluRegisterFormsWriteTheirResult ∧
  Clauses.AluImmediateFormsWriteTheirResult ∧
  Clauses.MultiplyDivideWriteTheirResult

/-- R259: each count is said by the bits of its operand; extensions at widths 8, 16 and 32. -/
def Clauses.BitManipulationWritesItsResult : Prop := ∀ (d a : SReg) (g : KReg) (s : State),
  (∃ n, n ≤ 64 ∧ WritesScalar (.clz d a g) s d g (BitVec.ofNat 64 n) ∧
    (∀ i, 64 - n ≤ i → i < 64 → (s.rs a).getLsbD i = false) ∧ (n < 64 → (s.rs a).getLsbD (63 - n) = true)) ∧
  (∃ n, n ≤ 64 ∧ WritesScalar (.ctz d a g) s d g (BitVec.ofNat 64 n) ∧
    (∀ i, i < n → (s.rs a).getLsbD i = false) ∧ (n < 64 → (s.rs a).getLsbD n = true)) ∧
  WritesScalar (.popc d a g) s d g
    (BitVec.ofNat 64 ((List.range 64).filter fun i => (s.rs a).getLsbD i).length) ∧
  (∃ x, WritesScalar (.brev d a g) s d g x ∧ ∀ i, i < 64 → x.getLsbD (63 - i) = (s.rs a).getLsbD i) ∧
  WritesScalar (.sextB d a g) s d g (((s.rs a).truncate 8).signExtend 64) ∧
  WritesScalar (.sextH d a g) s d g (((s.rs a).truncate 16).signExtend 64) ∧
  WritesScalar (.sextW d a g) s d g (((s.rs a).truncate 32).signExtend 64) ∧
  WritesScalar (.zextB d a g) s d g (BitVec.ofNat 64 ((s.rs a).toNat % 2 ^ 8)) ∧
  WritesScalar (.zextH d a g) s d g (BitVec.ofNat 64 ((s.rs a).toNat % 2 ^ 16)) ∧
  WritesScalar (.zextW d a g) s d g (BitVec.ofNat 64 ((s.rs a).toNat % 2 ^ 32))

/-- R260: the field operations, bit by bit, for a control word of any position and length (0 stands for 64). -/
def Clauses.BitFieldsMoveTheControlledBits : Prop := ∀ (d a b : SReg) (g : KReg) (s : State) (pos len : Nat),
  pos = (s.rs b).toNat % 64 →
  len = (if (s.rs b).toNat / 2 ^ 8 % 64 = 0 then 64 else (s.rs b).toNat / 2 ^ 8 % 64) →
  (∃ x, WritesScalar (.bfxu d a b g) s d g x ∧
    ∀ i, i < 64 → x.getLsbD i = if i < len then (s.rs a).getLsbD (pos + i) else false) ∧
  (∃ x, WritesScalar (.bfx d a b g) s d g x ∧
    ∀ i, i < 64 → x.getLsbD i = if i < len then (s.rs a).getLsbD (pos + i) else (s.rs a).getLsbD (pos + len - 1)) ∧
  (∃ x, WritesScalar (.bfi d a b g) s d g x ∧
    ∀ i, i < 64 → x.getLsbD i =
      if pos ≤ i ∧ i < pos + len then (s.rs a).getLsbD (i - pos) else (s.rs d).getLsbD i)

/-- R261: `li`, and `lio`, which reads its own destination; no guard. -/
def Clauses.ConstantsWriteTheirResult : Prop := ∀ (d : SReg) (imm : BitVec 20) (s : State),
  WritesScalar (.li d imm) s d 0 (BitVec.ofInt 64 imm.toInt) ∧
  WritesScalar (.lio d imm) s d 0 (BitVec.ofNat 64 ((s.rs d).toNat * 2 ^ 20 + imm.toNat))

/-- R259 to R261: bit manipulation, bit fields and constants. -/
def Obligations.BitsFieldsAndConstantsAreWritten : Prop :=
  Clauses.BitManipulationWritesItsResult ∧
  Clauses.BitFieldsMoveTheControlledBits ∧
  Clauses.ConstantsWriteTheirResult

/-- R262: a pointer moves where its address stays within 48 bits, keeping bits 63:48; otherwise TAG with the pointer in
TRAPVAL and nothing written. A false guard does nothing. -/
def Clauses.PointerMovesWithin48Bits : Prop := ∀ (d a b : SReg) (g : KReg) (s : State) (mk : Instr) (n : Int),
  (mk = .ptrAdd d a b g ∧ n = ((s.rs a).toNat % 2 ^ 48 : Nat) + (s.rs b).toInt) ∨
  (mk = .ptrSub d a b g ∧ n = ((s.rs a).toNat % 2 ^ 48 : Nat) - (s.rs b).toInt) →
  (s.rk g = false → RunsTo mk s s.me) ∧
  (s.rk g = true → 0 ≤ n → n < (2 ^ 48 : Nat) →
    RunsTo mk s { s.me with
      regs := s.me.regs.ws d.val (BitVec.ofNat 64 ((s.rs a).toNat / 2 ^ 48 * 2 ^ 48 + n.toNat)) }) ∧
  (s.rk g = true → n < 0 ∨ (2 ^ 48 : Nat) ≤ n → Traps mk s .tag 0 (s.rs a).toNat)

/-- R263: a field of a pointer is replaced by a value that fits it; a wider value raises TAG and writes nothing. The
fields are FMT (5 bits from 59), BLEN (3 from 56), GEN (8 from 48) and VA (48 from 0). -/
def Clauses.PointerFieldsAreReplaced : Prop :=
  ∀ (d a b : SReg) (g : KReg) (s : State) (mk : Instr) (lo w : Nat),
  (mk = .ptrSetFmt d a b g ∧ lo = 59 ∧ w = 5) ∨ (mk = .ptrSetBlen d a b g ∧ lo = 56 ∧ w = 3) ∨
  (mk = .ptrSetGen d a b g ∧ lo = 48 ∧ w = 8) ∨ (mk = .ptrSetVa d a b g ∧ lo = 0 ∧ w = 48) →
  (s.rk g = false → RunsTo mk s s.me) ∧
  (s.rk g = true → (s.rs b).toNat < 2 ^ w →
    ∃ x : Word, RunsTo mk s { s.me with regs := s.me.regs.ws d.val x } ∧
      ∀ i, i < 64 → x.getLsbD i =
        if lo ≤ i ∧ i < lo + w then (s.rs b).getLsbD (i - lo) else (s.rs a).getLsbD i) ∧
  (s.rk g = true → 2 ^ w ≤ (s.rs b).toNat → Traps mk s .tag 0 (s.rs a).toNat)

/-- R263 and R264: reading the fields of a pointer, and testing its form against a length. -/
def Clauses.PointerFieldsAndFormAreRead : Prop := ∀ (d a b : SReg) (k g : KReg) (s : State),
  WritesScalar (.ptrGetFmt d a g) s d g (BitVec.ofNat 64 ((s.rs a).toNat / 2 ^ 59)) ∧
  WritesScalar (.ptrGetBlen d a g) s d g (BitVec.ofNat 64 ((s.rs a).toNat / 2 ^ 56 % 2 ^ 3)) ∧
  WritesScalar (.ptrGetGen d a g) s d g (BitVec.ofNat 64 ((s.rs a).toNat / 2 ^ 48 % 2 ^ 8)) ∧
  WritesScalar (.ptrGetVa d a g) s d g (BitVec.ofNat 64 ((s.rs a).toNat % 2 ^ 48)) ∧
  (∃ ok : Bool, WritesPredicate (.ptrChk k a b g) s k g ok ∧
    (ok = true ↔
      (s.rs a).toNat / 2 ^ 48 % 2 ^ 8 ≠ 0 ∧
      ((s.rs a).toNat / 2 ^ 59 ≤ 14 ∨ (16 ≤ (s.rs a).toNat / 2 ^ 59 ∧ (s.rs a).toNat / 2 ^ 59 ≤ 20)) ∧
      (s.rs b).toNat ≤ 2 ^ 48 - (s.rs a).toNat % 2 ^ 48 ∧
      (16 ≤ (s.rs a).toNat / 2 ^ 59 → (s.rs a).toNat % 2 ^ 48 % 32 = 0)))

/-- R262 to R264: pointers. -/
def Obligations.PointersMoveAndTheirFieldsAreKept : Prop :=
  Clauses.PointerMovesWithin48Bits ∧
  Clauses.PointerFieldsAreReplaced ∧
  Clauses.PointerFieldsAndFormAreRead

/-- R265: compares of two registers, or of a register and the sign-extended immediate, and the predicate operations. -/
def Clauses.ComparesAndPredicateLogicWriteTheirResult : Prop :=
  (∀ (c : Cond) (d : KReg) (a b : SReg) (g : KReg) (s : State) (x y : Word) (i : Instr) (h : KReg),
    (i = .cmp c d a b g ∧ x = s.rs a ∧ y = s.rs b ∧ h = g) ∨
    (∃ imm : BitVec 12, i = .cmpi c d a imm ∧ x = s.rs a ∧ y = BitVec.ofInt 64 imm.toInt ∧ h = 0) →
    WritesPredicate i s d h
      (match c with
       | .eq => decide (x = y)
       | .ne => decide (x ≠ y)
       | .lt => decide (x.toInt < y.toInt)
       | .ge => decide (y.toInt ≤ x.toInt)
       | .ltu => decide (x.toNat < y.toNat)
       | .geu => decide (y.toNat ≤ x.toNat))) ∧
  (∀ (d a b g : KReg) (v : Bool) (s : State),
    WritesPredicate (.kand d a b g) s d g (s.rk a && s.rk b) ∧
    WritesPredicate (.kor d a b g) s d g (s.rk a || s.rk b) ∧
    WritesPredicate (.kxor d a b g) s d g (xor (s.rk a) (s.rk b)) ∧
    WritesPredicate (.knot d a g) s d g (!(s.rk a)) ∧
    WritesPredicate (.kset d v g) s d g v)

/-- R266 and R267: the transfers of Table 12-13. -/
def Clauses.TransfersMoveBetweenFiles : Prop :=
  (∀ (w : Width) (u : NW) (d : SReg) (v a : VReg) (x b : SReg) (g : KReg) (s : State),
    WritesVector (.vbcast w v x g) s v g w.bits (fun _ => (s.rs x).toNat) ∧
    WritesVector (.vins w v x b g) s v g w.bits
      (fun j => if j = (s.rs b).toNat % (512 / w.bits) then (s.rs x).toNat else elem (s.rv v.val) w.bits j) ∧
    WritesScalar (.vext w d a b g) s d g
      (BitVec.ofInt 64 (sgnN w.bits (elem (s.rv a.val) w.bits ((s.rs b).toNat % (512 / w.bits))))) ∧
    WritesScalar (.vextU u d a b g) s d g
      (BitVec.ofNat 64 (elem (s.rv a.val) u.bits ((s.rs b).toNat % (512 / u.bits))))) ∧
  (∀ (d x y : SReg) (k kd g : KReg) (m : MReg) (s : State),
    WritesScalar (.sel d k x y g) s d g (if s.rk k then s.rs x else s.rs y) ∧
    WritesPredicate (.mtokAny kd m g) s kd g (decide (s.rm m ≠ 0)) ∧
    WritesPredicate (.mtokAll kd m g) s kd g (decide (s.rm m = 0xFFFF)) ∧
    WritesPredicate (.mtokAllD kd m g) s kd g (decide ((s.rm m).toNat % 2 ^ 8 = 0xFF)) ∧
    WritesMask (.ktom m k g) s m g (if s.rk k then 0xFFFF else 0) ∧
    WritesScalar (.mtos d m g) s d g (BitVec.ofNat 64 (s.rm m).toNat) ∧
    WritesMask (.stom m x g) s m g (BitVec.ofNat 16 (s.rs x).toNat))

/-- R265 to R267: compares, predicate logic, selection and transfers between files. -/
def Obligations.PredicatesAndTransfersWriteTheirResult : Prop :=
  Clauses.ComparesAndPredicateLogicWriteTheirResult ∧
  Clauses.TransfersMoveBetweenFiles

/-- R15: how the register files answer. `s0`, `k0` and `m0` read as zero, true and all ones whatever is written; a
write of any other register is what a later read of it gives, and leaves every other register of its file, and the
other files, as they were. -/
def Obligations.RegisterFilesKeepWhatIsWritten : Prop := ∀ (r : Regs),
  (r.rs 0 = 0 ∧ r.rk 0 = true ∧ r.rm 0 = BitVec.allOnes 16) ∧
  (∀ (i j : Nat) (x : Word), i < 32 → j < 32 →
    (r.ws i x).rs j = (if j = 0 then 0 else if j = i then x else r.rs j) ∧
    (r.ws i x).rv = r.rv ∧ (r.ws i x).rk = r.rk ∧ (r.ws i x).rm = r.rm) ∧
  (∀ (i j : Nat) (x : Bool), i < 8 → j < 8 →
    (r.wk i x).rk j = (if j = 0 then true else if j = i then x else r.rk j) ∧
    (r.wk i x).rs = r.rs ∧ (r.wk i x).rv = r.rv ∧ (r.wk i x).rm = r.rm) ∧
  (∀ (i j : Nat) (x : Mask), i < 8 → j < 8 →
    (r.wm i x).rm j = (if j = 0 then BitVec.allOnes 16 else if j = i then x else r.rm j) ∧
    (r.wm i x).rs = r.rs ∧ (r.wm i x).rv = r.rv ∧ (r.wm i x).rk = r.rk) ∧
  (∀ (i j : Nat) (x : Vec), i < 24 → j < 24 →
    (r.wv i x).rv j = (if j = i then x else r.rv j) ∧
    (r.wv i x).rs = r.rs ∧ (r.wv i x).rk = r.rk ∧ (r.wv i x).rm = r.rm)

/-- R269, R270, R272: where a relative transfer goes. A taken transfer leaves its target in `npc` and drops the words
fetched beyond the instruction (R245); one not taken leaves `npc`, which holds NextPC. `call` writes NextPC to `s31`; a
loop writes its counter less one, wrapped, to `d`. -/
def Clauses.RelativeTransfersGoToTheirTarget : Prop :=
  ∀ (s : State) (i : Instr) (taken : Bool) (off : Int) (r : Regs),
  (∃ (k : KReg) (o : BitVec 21), i = .br k o ∧ taken = s.rk k ∧ off = o.toInt ∧ r = s.me.regs) ∨
  (∃ (k : KReg) (o : BitVec 21), i = .brN k o ∧ taken = !(s.rk k) ∧ off = o.toInt ∧ r = s.me.regs) ∨
  (∃ o : BitVec 24, i = .jmp o ∧ taken = true ∧ off = o.toInt ∧ r = s.me.regs) ∨
  (∃ o : BitVec 24, i = .call o ∧ taken = true ∧ off = o.toInt ∧
    r = s.me.regs.ws 31 (BitVec.ofNat 64 s.me.npc.toNat)) ∨
  (∃ (d : SReg) (o : BitVec 12), i = .loop d o ∧ taken = decide (s.rs d - 1 ≠ 0) ∧ off = o.toInt ∧
    r = s.me.regs.ws d.val (s.rs d - 1)) ∨
  (∃ (d : SReg) (o : BitVec 12), i = .loopP d o ∧ taken = decide (0 < (s.rs d - 1).toInt) ∧ off = o.toInt ∧
    r = s.me.regs.ws d.val (s.rs d - 1)) →
  ∃ t, exec i s = .next t ∧
    OnlyThread true s t
      { s.me with
        regs := r
        npc := if taken then BitVec.ofInt 48 ((s.me.pc.toNat : Int) + 4 * off) else s.me.npc
        ibuf := if taken then s.me.ibuf.take ((s.me.npc - s.me.pc).toNat / 4) else s.me.ibuf }

/-- R271: a register jump goes to bits 47:0 of its register where bits 1:0 are zero, `callr` writing NextPC to `s31`
after it has read its target; otherwise ALIGN with the target in TRAPVAL and nothing written. A false guard does
nothing. -/
def Clauses.RegisterJumpsGoToAlignedTargets : Prop :=
  ∀ (s : State) (i : Instr) (g : KReg) (x : Word) (r : Regs),
  (∃ a : SReg, i = .jr a g ∧ x = s.rs a ∧ r = s.me.regs) ∨
  (∃ a : SReg, i = .callr a g ∧ x = s.rs a ∧ r = s.me.regs.ws 31 (BitVec.ofNat 64 s.me.npc.toNat)) ∨
  (i = .ret g ∧ x = s.rs 31 ∧ r = s.me.regs) →
  (s.rk g = false → RunsTo i s s.me) ∧
  (s.rk g = true → x.toNat % 4 = 0 →
    ∃ t, exec i s = .next t ∧
      OnlyThread true s t
        { s.me with
          regs := r
          npc := BitVec.ofNat 48 x.toNat
          ibuf := s.me.ibuf.take ((s.me.npc - s.me.pc).toNat / 4) }) ∧
  (s.rk g = true → x.toNat % 4 ≠ 0 → Traps i s .align 0 (x.toNat % 2 ^ 48))

/-- R269 to R272: branches, jumps, calls and loops. -/
def Obligations.ControlTransfersGoToTheirTarget : Prop :=
  Clauses.RelativeTransfersGoToTheirTarget ∧
  Clauses.RegisterJumpsGoToAlignedTargets

/-! ## Vector work (spec/13_isa_vector.md) -/

/-- R275: the element-wise integer work of Table 13-2. No flag is raised. -/
def Clauses.VectorIntegerWorkIsElementwise : Prop := ∀ w : Width,
  Elementwise2 w.bits (.vadd w) (fun _ x y => (x + y, 0)) ∧
  Elementwise2 w.bits (.vsub w) (fun _ x y => (wrapN w.bits ((x : Int) - y), 0)) ∧
  Elementwise2 w.bits (.vmul w) (fun _ x y => (x * y, 0)) ∧
  Elementwise2 w.bits (.vmulh w)
    (fun _ x y => (wrapN w.bits (sgnN w.bits x * sgnN w.bits y / (2 ^ w.bits : Nat)), 0)) ∧
  Elementwise2 w.bits (.vmulhu w) (fun _ x y => (x * y / 2 ^ w.bits, 0)) ∧
  Elementwise3 w.bits (.vmad w) (fun _ x y z => (z + x * y, 0)) ∧
  Elementwise2 w.bits (.vmin w) (fun _ x y => (if sgnN w.bits x ≤ sgnN w.bits y then x else y, 0)) ∧
  Elementwise2 w.bits (.vmax w) (fun _ x y => (if sgnN w.bits x ≤ sgnN w.bits y then y else x, 0)) ∧
  Elementwise2 w.bits (.vminu w) (fun _ x y => (if x ≤ y then x else y, 0)) ∧
  Elementwise2 w.bits (.vmaxu w) (fun _ x y => (if x ≤ y then y else x, 0)) ∧
  Elementwise1 w.bits (.vabs w) (fun _ x => (if sgnN w.bits x < 0 then 2 ^ w.bits - x else x, 0))

/-- R276: shifts by the low bits of an element of `b` or by a constant, and the immediate forms. A constant amount lies
below the width (WellFormed). -/
def Clauses.VectorShiftsAndImmediatesAreElementwise : Prop := ∀ (w : Width) (sh : Fin 32) (imm : BitVec 5),
  Elementwise2 w.bits (.vshl w) (fun _ x y => (x * 2 ^ (y % w.bits), 0)) ∧
  Elementwise2 w.bits (.vshr w) (fun _ x y => (x / 2 ^ (y % w.bits), 0)) ∧
  Elementwise2 w.bits (.vsra w) (fun _ x y => (wrapN w.bits (sgnN w.bits x / (2 ^ (y % w.bits) : Nat)), 0)) ∧
  Elementwise1 w.bits (fun d a g => .vshlImm w d a sh g) (fun _ x => (x * 2 ^ sh.val, 0)) ∧
  Elementwise1 w.bits (fun d a g => .vshrImm w d a sh g) (fun _ x => (x / 2 ^ sh.val, 0)) ∧
  Elementwise1 w.bits (fun d a g => .vsraImm w d a sh g)
    (fun _ x => (wrapN w.bits (sgnN w.bits x / (2 ^ sh.val : Nat)), 0)) ∧
  Elementwise1 64 (fun d a g => .vshlImmHi d a sh g) (fun _ x => (x * 2 ^ (sh.val + 32), 0)) ∧
  Elementwise1 64 (fun d a g => .vshrImmHi d a sh g) (fun _ x => (x / 2 ^ (sh.val + 32), 0)) ∧
  Elementwise1 64 (fun d a g => .vsraImmHi d a sh g)
    (fun _ x => (wrapN 64 (sgnN 64 x / (2 ^ (sh.val + 32) : Nat)), 0)) ∧
  Elementwise1 w.bits (fun d a g => .vaddi w d a imm g) (fun _ x => (wrapN w.bits ((x : Int) + imm.toInt), 0)) ∧
  (∀ (d : VFld) (g : MReg) (s : State),
    checkBound s [] (some d) = .ok () → checkReady s [] (some d) = .ok () →
    ∃ v : Vec, exec (.vli w d imm g) s = .next (ended (putVec s d v)) ∧
      ∀ i, i < 512 / w.bits → elem v w.bits i =
        if active w.bits (s.rm g) i then wrapN w.bits imm.toInt else elem (oldOf s d) w.bits i)

/-- R277, R278, R279: bitwise logic on lanes, mask logic and counts, and the integer compares. -/
def Clauses.VectorLogicMasksAndComparesWriteTheirResult : Prop :=
  (Elementwise2 32 .vand (fun _ x y => (x &&& y, 0)) ∧
    Elementwise2 32 .vor (fun _ x y => (x ||| y, 0)) ∧
    Elementwise2 32 .vxor (fun _ x y => (x ^^^ y, 0)) ∧
    Elementwise2 32 .vandn (fun _ x y => (x &&& (2 ^ 32 - 1 - y), 0))) ∧
  (∀ (d a b : MReg) (r : SReg) (s : State),
    WritesMask (.mand d a b) s d 0 (s.rm a &&& s.rm b) ∧
    WritesMask (.mor d a b) s d 0 (s.rm a ||| s.rm b) ∧
    WritesMask (.mxor d a b) s d 0 (s.rm a ^^^ s.rm b) ∧
    WritesMask (.mnot d a) s d 0 (~~~(s.rm a)) ∧
    WritesScalar (.mpop r a) s r 0 (BitVec.ofNat 64 ((List.range 16).filter fun i => (s.rm a).getLsbD i).length) ∧
    (∃ n, n ≤ 16 ∧ WritesScalar (.mfirst r a) s r 0 (BitVec.ofNat 64 n) ∧
      (∀ i, i < n → (s.rm a).getLsbD i = false) ∧ (n < 16 → (s.rm a).getLsbD n = true))) ∧
  (∀ (c : Cond) (w : WW), ElementCompare w.bits (.vcmp c w) (fun _ x y =>
    (match c with
     | .eq => decide (x = y)
     | .ne => decide (x ≠ y)
     | .lt => decide (sgnN w.bits x < sgnN w.bits y)
     | .ge => decide (sgnN w.bits y ≤ sgnN w.bits x)
     | .ltu => decide (x < y)
     | .geu => decide (y ≤ x), 0)))

/-- R275 to R279: vector integer work, logic, masks and compares. -/
def Obligations.VectorIntegerWorkWritesItsResult : Prop :=
  Clauses.VectorIntegerWorkIsElementwise ∧
  Clauses.VectorShiftsAndImmediatesAreElementwise ∧
  Clauses.VectorLogicMasksAndComparesWriteTheirResult

/-- R280, R281: `vperm`, `vshuf` and `vrot`. -/
def Clauses.PermutationsReadTheIndexedElement : Prop :=
  ∀ (w : Width) (z : Bool) (d a b : VFld) (e : VReg) (r : SReg) (g : MReg) (s s1 : State) (x y : Vec),
  (sources2 s a b (some d) = .ok (x, y, s1) →
    CrossLane w.bits z (.vperm w z d a b g) s g
      (fun i => elem y w.bits i % (512 / w.bits))
      (fun i => elem x w.bits (elem y w.bits i % (512 / w.bits)))
      (fun i => elem (oldOf s d) w.bits i) (fun v => putVec s1 d v)) ∧
  (sources2 s a b none = .ok (x, y, s1) →
    CrossLane w.bits z (.vshuf w z e a b g) s g
      (fun i => elem (s.rv e.val) w.bits i % (2 * (512 / w.bits)) % (512 / w.bits))
      (fun i =>
        let j := elem (s.rv e.val) w.bits i % (2 * (512 / w.bits))
        if j < 512 / w.bits then elem x w.bits j else elem y w.bits (j - 512 / w.bits))
      (fun i => elem (s.rv e.val) w.bits i) (fun v => s1.wv e.val v)) ∧
  (sources1 s a (some d) = .ok (x, s1) →
    CrossLane w.bits z (.vrot w z d a r g) s g
      (fun i => (((i : Int) - (s.rs r).toNat) % (512 / w.bits : Nat)).toNat)
      (fun i => elem x w.bits (((i : Int) - (s.rs r).toNat) % (512 / w.bits : Nat)).toNat)
      (fun i => elem (oldOf s d) w.bits i) (fun v => putVec s1 d v))

/-- R282: selection by a mask, which raises nothing. -/
def Clauses.CompressAndExpandMoveSelectedElements : Prop :=
  ∀ (w : Width) (d a : VFld) (b g : MReg) (s s1 : State) (x : Vec),
  sources1 s a (some d) = .ok (x, s1) →
  (∃ v : Vec, exec (.vcompress w d a b g) s = .next (ended (putVec s1 d v)) ∧
    ∀ k, k < 512 / w.bits → elem v w.bits k =
      if active w.bits (s.rm g) k then
        match ((List.range (512 / w.bits)).filter fun j => active w.bits (s.rm b) j)[k]? with
        | some j => elem x w.bits j
        | none => 0
      else elem (oldOf s d) w.bits k) ∧
  (∃ v : Vec, exec (.vexpand w d a b g) s = .next (ended (putVec s1 d v)) ∧
    ∀ i, i < 512 / w.bits → elem v w.bits i =
      if active w.bits (s.rm g) i then
        if active w.bits (s.rm b) i then
          elem x w.bits ((List.range i).filter fun j => active w.bits (s.rm b) j).length
        else 0
      else elem (oldOf s d) w.bits i)

/-- R280 to R282: permutations, compression and expansion. -/
def Obligations.CrossLaneMovesReadTheirElements : Prop :=
  Clauses.PermutationsReadTheIndexedElement ∧
  Clauses.CompressAndExpandMoveSelectedElements

/-- R283: integer reductions. A sum wraps; a least or greatest element is one of the elements, and no other is below or
above it. Sums, signed least and greatest are sign-extended, the others zero-extended.
(Log entry 5.) -/
def Clauses.IntegerReductionsReduceAllElements : Prop :=
  ∀ (t : RedTy) (w : WW) (z : Bool) (d : SReg) (a : VFld) (g : MReg) (s : State),
  (t = .i32 ∨ t = .i64 →
    Reduces t.bits z (.vredAdd t z d a g) s d a g (fun l r fl => fl = 0 ∧ r = BitVec.ofInt 64 (sgnN t.bits l.sum)) ∧
    Reduces t.bits z (.vredMin t z d a g) s d a g (fun l r fl => fl = 0 ∧
      ∃ m ∈ l, r = BitVec.ofInt 64 (sgnN t.bits m) ∧ ∀ e ∈ l, sgnN t.bits m ≤ sgnN t.bits e) ∧
    Reduces t.bits z (.vredMax t z d a g) s d a g (fun l r fl => fl = 0 ∧
      ∃ m ∈ l, r = BitVec.ofInt 64 (sgnN t.bits m) ∧ ∀ e ∈ l, sgnN t.bits e ≤ sgnN t.bits m)) ∧
  Reduces w.bits z (.vredMinu w z d a g) s d a g (fun l r fl => fl = 0 ∧
    ∃ m ∈ l, r = BitVec.ofNat 64 m ∧ ∀ e ∈ l, m ≤ e) ∧
  Reduces w.bits z (.vredMaxu w z d a g) s d a g (fun l r fl => fl = 0 ∧
    ∃ m ∈ l, r = BitVec.ofNat 64 m ∧ ∀ e ∈ l, e ≤ m) ∧
  Reduces w.bits z (.vredAnd w z d a g) s d a g (fun l r fl => fl = 0 ∧
    ∀ i, i < 64 → r.getLsbD i = (decide (i < w.bits) && l.all fun e => e.testBit i)) ∧
  Reduces w.bits z (.vredOr w z d a g) s d a g (fun l r fl => fl = 0 ∧
    ∀ i, i < 64 → r.getLsbD i = l.any fun e => e.testBit i) ∧
  Reduces w.bits z (.vredXor w z d a g) s d a g (fun l r fl => fl = 0 ∧
    ∀ i, i < 64 → r.getLsbD i = l.foldl (fun p e => xor p (e.testBit i)) false)

/-- R51, R280, R283: floating-point reductions by the fixed pairwise tree, rounding (or choosing) at each step under the
thread's FPCTL; and `vscan.add`, sequential, which reads up to the highest active element and keeps the destination
elements that are not active; without `.z` an inactive element below the highest active one raises LANE. -/
def Clauses.FloatReductionsAndScansFollowTheirOrder : Prop :=
  (∀ (t : RedTy) (F : Fmt) (z : Bool) (d : SReg) (a : VFld) (g : MReg) (s : State),
    (t = .f32 ∧ F = fp32) ∨ (t = .f64 ∧ F = fp64) →
    Reduces t.bits z (.vredAdd t z d a g) s d a g (fun l r fl =>
      (r, fl) = redTree F (fun p q => addRound F s.env [unpack F s.env.ftz p, unpack F s.env.ftz q]) l) ∧
    Reduces t.bits z (.vredMin t z d a g) s d a g (fun l r fl => (r, fl) = redTree F (minmaxF F s.env.ftz false) l) ∧
    Reduces t.bits z (.vredMax t z d a g) s d a g (fun l r fl => (r, fl) = redTree F (minmaxF F s.env.ftz true) l)) ∧
  (∀ (t : RedTy) (z : Bool) (d a : VFld) (g : MReg) (s s1 : State) (x : Vec) (n : Nat)
      (add : Nat → Nat → Nat × BitVec 8),
    (t = .i32 ∨ t = .i64 → add = fun p q => ((p + q) % 2 ^ t.bits, 0)) →
    (t = .f32 → add = faddCode fp32 s.env) → (t = .f64 → add = faddCode fp64 s.env) →
    sources1 s a (some d) = .ok (x, s1) →
    (∀ e, e < 512 / t.bits → active t.bits (s.rm g) e = true → e < n) → n ≤ 512 / t.bits →
    (n = 0 ∨ active t.bits (s.rm g) (n - 1) = true) →
    (z = true ∨ ∀ e, e < n → active t.bits (s.rm g) e = true) →
    ∃ (v : Vec) (sums : List (Nat × BitVec 8)),
      exec (.vscanAdd t z d a g) s =
        .next (ended ((putVec s1 d v).raise (orFlags n fun i => (sums.getD i (0, 0)).2))) ∧
      sums.length = n ∧
      (∀ i, i < n → sums.getD i (0, 0) =
        if i = 0 then (if active t.bits (s.rm g) 0 then elem x t.bits 0 else 0, 0)
        else add (sums.getD (i - 1) (0, 0)).1 (if active t.bits (s.rm g) i then elem x t.bits i else 0)) ∧
      ∀ i, i < 512 / t.bits → elem v t.bits i =
        if active t.bits (s.rm g) i then (sums.getD i (0, 0)).1 % 2 ^ t.bits else elem (oldOf s d) t.bits i) ∧
  (∀ (t : RedTy) (d a : VFld) (g : MReg) (s s1 : State) (x : Vec) (n : Nat),
    sources1 s a (some d) = .ok (x, s1) →
    (∀ e, e < 512 / t.bits → active t.bits (s.rm g) e = true → e ≤ n) → n < 512 / t.bits → active t.bits (s.rm g) n = true →
    (∃ e, e < n ∧ active t.bits (s.rm g) e = false) →
    ∃ set : Nat, Traps (.vscanAdd t false d a g) s .lane 0 set ∧
      ∀ j, set.testBit j = true ↔ ∃ e, e < n ∧ active t.bits (s.rm g) e = false ∧ maskBit t.bits e = j)

/-- R51, R280, R283: reductions and scans. -/
def Obligations.ReductionsAndScansWriteTheirResult : Prop :=
  Clauses.IntegerReductionsReduceAllElements ∧
  Clauses.FloatReductionsAndScansFollowTheirOrder

/-- R284: clamping, packing and unpacking. A clamp raises ACCSAT. -/
def Clauses.NarrowingAndWideningClampOrExtend : Prop :=
  (∀ x : SatSel,
    Elementwise1 x.src (.vsatSigned x) (fun _ e =>
      let z := sgnN x.src e
      let lo : Int := -(2 ^ (x.dst - 1) : Nat)
      let hi : Int := (2 ^ (x.dst - 1) : Nat) - 1
      (wrapN x.src (if z < lo then lo else if hi < z then hi else z), if z < lo ∨ hi < z then fACCSAT else 0)) ∧
    Elementwise1 x.src (.vsatUnsigned x) (fun _ e =>
      let z := sgnN x.src e
      let hi : Int := (2 ^ x.dst : Nat) - 1
      (wrapN x.src (if z < 0 then 0 else if hi < z then hi else z), if z < 0 ∨ hi < z then fACCSAT else 0))) ∧
  (∀ (p : PW) (d a b : VFld) (g : MReg) (s s1 : State) (x y : Vec) (signed : Bool) (i : Instr),
    (signed = true ∧ i = .vpackI p d a b g) ∨ (signed = false ∧ i = .vpackU p d a b g) →
    sources2 s a b (some d) = .ok (x, y, s1) →
    ∃ v : Vec, exec i s = .next (ended ((putVec s1 d v).raise
        (orFlags (2 * (512 / p.bits)) fun e => if active (p.bits / 2) (s.rm g) e then
          (clampE signed p.bits (p.bits / 2) (p.bits / 2)
            (if e < 512 / p.bits then elem x p.bits e else elem y p.bits (e - 512 / p.bits))).2 else 0))) ∧
      ∀ e, e < 2 * (512 / p.bits) → elem v (p.bits / 2) e =
        if active (p.bits / 2) (s.rm g) e then
          (clampE signed p.bits (p.bits / 2) (p.bits / 2)
            (if e < 512 / p.bits then elem x p.bits e else elem y p.bits (e - 512 / p.bits))).1
        else elem (oldOf s d) (p.bits / 2) e) ∧
  (∀ (n : NW) (d a : VFld) (g : MReg) (s s1 : State) (x : Vec) (i : Instr) (signed : Bool) (first : Nat),
    (i = .vunpackLoI n d a g ∧ signed = true ∧ first = 0) ∨
    (i = .vunpackHiI n d a g ∧ signed = true ∧ first = 512 / (2 * n.bits)) ∨
    (i = .vunpackLoU n d a g ∧ signed = false ∧ first = 0) ∨
    (i = .vunpackHiU n d a g ∧ signed = false ∧ first = 512 / (2 * n.bits)) →
    sources1 s a (some d) = .ok (x, s1) →
    ∃ v : Vec, exec i s = .next (ended (putVec s1 d v)) ∧
      ∀ e, e < 512 / (2 * n.bits) → elem v (2 * n.bits) e =
        if active (2 * n.bits) (s.rm g) e then
          (if signed then wrapN (2 * n.bits) (sgnN n.bits (elem x n.bits (first + e))) else elem x n.bits (first + e))
        else elem (oldOf s d) (2 * n.bits) e)

/-- R285: four byte products summed exactly into each lane, wrapping or saturating. -/
def Clauses.ByteDotProductsAccumulate : Prop := ∀ (ua ub : Bool),
  let byte := fun (u : Bool) (x j : Nat) => if u then ((x / 256 ^ j % 256 : Nat) : Int) else sgnN 8 (x / 256 ^ j)
  let sum := fun (x y : Nat) => byte ua x 0 * byte ub y 0 + byte ua x 1 * byte ub y 1 + byte ua x 2 * byte ub y 2 +
    byte ua x 3 * byte ub y 3
  Elementwise3 32 (.vdot4 ua ub) (fun _ x y z => (wrapN 32 ((z : Int) + sum x y), 0)) ∧
  Elementwise3 32 (.vdot4Sat ua ub) (fun _ x y z =>
    let r := sgnN 32 z + sum x y
    if r < -(2 ^ 31 : Nat) then (2 ^ 31, fACCSAT)
    else if (2 ^ 31 : Nat) - 1 < r then (2 ^ 31 - 1, fACCSAT)
    else (wrapN 32 r, 0))

/-- R284, R285: narrowing, widening and byte dot products. -/
def Obligations.NarrowingAndByteProductsWriteTheirResult : Prop :=
  Clauses.NarrowingAndWideningClampOrExtend ∧
  Clauses.ByteDotProductsAccumulate

/-- R286, R287, R288: floating-point arithmetic, selection, sign operations and compares. Each arithmetic result is the
exact one rounded once under the thread's FPCTL, operands read after FTZ. -/
def Clauses.FloatWorkIsExactThenRounded : Prop := ∀ (t : FTy) (c : FCond),
  let rd := fun (s : State) (x : Nat) => unpack t.fmt s.env.ftz x
  Elementwise2 t.bits (.vfadd t) (fun s x y => addRound t.fmt s.env [rd s x, rd s y]) ∧
  Elementwise2 t.bits (.vfsub t) (fun s x y => addRound t.fmt s.env [rd s x, (rd s y).neg]) ∧
  Elementwise2 t.bits (.vfmul t) (fun s x y => mulRound t.fmt s.env (rd s x) (rd s y)) ∧
  Elementwise2 t.bits (.vfdiv t) (fun s x y => divRound t.fmt s.env (rd s x) (rd s y)) ∧
  Elementwise1 t.bits (.vfsqrt t) (fun s x => sqrtRound t.fmt s.env (rd s x)) ∧
  Elementwise2 t.bits (.vfmin t) (fun s x y => minmaxF t.fmt s.env.ftz false x y) ∧
  Elementwise2 t.bits (.vfmax t) (fun s x y => minmaxF t.fmt s.env.ftz true x y) ∧
  Elementwise1 t.bits (.vfabs t) (fun s x => absF t.fmt s.env.ftz x) ∧
  Elementwise1 t.bits (.vfneg t) (fun s x => negF t.fmt s.env.ftz x) ∧
  ElementCompare t.bits (.vfcmp c t) (fun s x y => fcmp c (rd s x) (rd s y))

/-- R286, R35: the special cases of division and root. -/
def Clauses.DivisionAndRootSpecialCases : Prop := ∀ (F : Fmt) (v : Env) (p q : Bool) (m : Nat) (e f g : Int),
  (0 < m → F.noInf = false → divRound F v (.num p m e) (.num q 0 f) = (F.withSign (xor p q) F.infCode, fDZ)) ∧
  divRound F v (.num p 0 e) (.num q 0 f) = (F.nanCode, fNV) ∧
  divRound F v (.inf p) (.inf q) = (F.nanCode, fNV) ∧
  sqrtRound F v (.num true 0 e) = (F.signBit, 0) ∧
  (0 < m → sqrtRound F v (.num true m g) = (F.nanCode, fNV)) ∧
  sqrtRound F v (.inf true) = (F.nanCode, fNV) ∧
  addRound F v [.inf p, .inf (!p)] = (F.nanCode, fNV) ∧
  mulRound F v (.num p 0 e) (.inf q) = (F.nanCode, fNV) ∧
  addRound F v [.nan false, .num p m e] = (F.nanCode, 0) ∧
  addRound F v [.nan true, .num p m e] = (F.nanCode, fNV)

/-- R289 to R293: the FMA family with one rounding, the BF16 dot product, conversion by parts, classification, and
rounding to an integral value. -/
def Clauses.FusedConvertAndClassifyWriteTheirResult : Prop :=
  (∀ t : FTy,
    let rd := fun (s : State) (x : Nat) => unpack t.fmt s.env.ftz x
    Elementwise3 t.bits (.vfma t) (fun s x y z => fmaRound t.fmt s.env (rd s x) (rd s y) (rd s z)) ∧
    Elementwise3 t.bits (.vfms t) (fun s x y z => fmaRound t.fmt s.env (rd s x) (rd s y) (rd s z).neg) ∧
    Elementwise3 t.bits (.vfnma t) (fun s x y z => fmaRound t.fmt s.env (rd s x).neg (rd s y) (rd s z).neg) ∧
    Elementwise3 t.bits (.vfnms t) (fun s x y z => fmaRound t.fmt s.env (rd s x).neg (rd s y) (rd s z))) ∧
  Elementwise3 32 .vfdot2 (fun s x y z =>
    let h := fun (p : Nat) => unpack bf16 s.env.ftz p
    dot2Round s.env (h (x % 2 ^ 16)) (h (y % 2 ^ 16)) (h (x / 2 ^ 16)) (h (y / 2 ^ 16)) (unpack fp32 s.env.ftz z)) ∧
  (∀ (q : Fin 4) (dest frm : CvFmt) (d a : VFld) (g : MReg) (s s1 : State) (x : Vec),
    sources1 s a (some d) = .ok (x, s1) →
    let n := 512 / max frm.bits dest.bits
    let hit := fun (e : Nat) => (frm.bits ≤ dest.bits ∨ (q.val * n ≤ e ∧ e < q.val * n + n)) ∧
      active dest.bits (s.rm g) e = true
    let src := fun (e : Nat) => if frm.bits ≤ dest.bits then e + q.val * n else e - q.val * n
    let r := fun (e : Nat) => convert s.env (cvtCode frm) (cvtCode dest) (elem x frm.bits (src e))
    ∃ (v : Vec) (fl : BitVec 8), exec (.vfcvt q dest frm d a g) s = .next (ended ((putVec s1 d v).raise fl)) ∧
      (∀ e, e < 512 / dest.bits →
        (hit e → elem v dest.bits e = (r e).1 % 2 ^ dest.bits) ∧
        (¬hit e → elem v dest.bits e = elem (oldOf s d) dest.bits e)) ∧
      (∀ b, b < 8 → (fl.getLsbD b = true ↔ ∃ e, e < 512 / dest.bits ∧ hit e ∧ (r e).2.getLsbD b = true))) ∧
  (∀ f : FFmt, Elementwise1 f.fmt.bits (.vfcls f) (fun _ x => (classOf f.fmt x, 0)) ∧
    Elementwise1 f.fmt.bits (.vfround .fpctl f) (fun s x => roundIntegral f.fmt s.env x) ∧
    Elementwise1 f.fmt.bits (.vfround .rtz f) (fun s x => roundIntegral f.fmt { s.env with rm := .rtz } x) ∧
    Elementwise1 f.fmt.bits (.vfround .rup f) (fun s x => roundIntegral f.fmt { s.env with rm := .rup } x) ∧
    Elementwise1 f.fmt.bits (.vfround .rdn f) (fun s x => roundIntegral f.fmt { s.env with rm := .rdn } x))

/-- R286 to R293: floating-point work. -/
def Obligations.FloatWorkWritesItsResult : Prop :=
  Clauses.FloatWorkIsExactThenRounded ∧
  Clauses.FusedConvertAndClassifyWriteTheirResult

/-- R294, R295: a special function's request joins its quad's queue with the values of the active lanes, computed at
issue, and the times of Table 13-13; inactive lanes keep the destination's old value.
(Log entry 1.) -/
def Obligations.SpecialFunctionsJoinTheirQueue : Prop :=
  ∀ (d a : VFld) (g : MReg) (s s1 : State) (x : Vec) (i : Instr) (fn : Nat) (times : Nat × Nat),
  (i = .vrcp d a g ∧ fn = 0 ∧ times = (4, 16)) ∨ (i = .vrsq d a g ∧ fn = 1 ∧ times = (4, 16)) ∨
  (i = .vexp2 d a g ∧ fn = 2 ∧ times = (4, 16)) ∨ (i = .vlog2 d a g ∧ fn = 3 ∧ times = (4, 16)) ∨
  (i = .vsin d a g ∧ fn = 4 ∧ times = (8, 24)) ∨ (i = .vcos d a g ∧ fn = 5 ∧ times = (8, 24)) ∨
  (i = .vtanh d a g ∧ fn = 6 ∧ times = (8, 24)) ∨ (i = .vsig d a g ∧ fn = 7 ∧ times = (8, 24)) →
  sources1 s a (some d) = .ok (x, s1) →
  ∃ (v : Vec) (fl : BitVec 8), SfuRequest i s s1 d v fl times ∧
    (∀ e, e < 16 → elem v 32 e =
      if active 32 (s.rm g) e then (sfuFn fn s.env.ftz (elem x 32 e)).1 % 2 ^ 32 else elem (oldOf s d) 32 e) ∧
    (∀ b, b < 8 → (fl.getLsbD b = true ↔
      ∃ e, e < 16 ∧ active 32 (s.rm g) e = true ∧ (sfuFn fn s.env.ftz (elem x 32 e)).2.getLsbD b = true))

/-- R294, Table 13-12: the special cases, by FP32 code, and NaN operands of every function. -/
def Clauses.SpecialFunctionSpecialCases : Prop := ∀ ftz : Bool,
  (∀ (fn c : Nat) (quiet : Bool), unpackRaw fp32 c = .nan (!quiet) →
    sfuFn fn ftz c = (0x7FC0_0000, if quiet then 0 else fNV)) ∧
  (sfuFn 0 ftz 0x0000_0000 = (0x7F80_0000, fDZ) ∧ sfuFn 0 ftz 0x8000_0000 = (0xFF80_0000, fDZ) ∧
    sfuFn 0 ftz 0x7F80_0000 = (0, 0) ∧ sfuFn 0 ftz 0xFF80_0000 = (0x8000_0000, 0)) ∧
  (sfuFn 1 ftz 0x0000_0000 = (0x7F80_0000, fDZ) ∧ sfuFn 1 ftz 0x8000_0000 = (0xFF80_0000, fDZ) ∧
    sfuFn 1 ftz 0x7F80_0000 = (0, 0) ∧ sfuFn 1 ftz 0xBF80_0000 = (0x7FC0_0000, fNV)) ∧
  (sfuFn 2 ftz 0xFF80_0000 = (0, 0) ∧ sfuFn 2 ftz 0x7F80_0000 = (0x7F80_0000, 0) ∧
    sfuFn 2 ftz 0x4300_0000 = (0x7F80_0000, fOF ||| fNX)) ∧
  (sfuFn 3 ftz 0x0000_0000 = (0xFF80_0000, fDZ) ∧ sfuFn 3 ftz 0x8000_0000 = (0xFF80_0000, fDZ) ∧
    sfuFn 3 ftz 0xBF80_0000 = (0x7FC0_0000, fNV) ∧ sfuFn 3 ftz 0x7F80_0000 = (0x7F80_0000, 0)) ∧
  (sfuFn 4 ftz 0x7F80_0000 = (0x7FC0_0000, fNV) ∧ sfuFn 4 ftz 0 = (0, 0) ∧
    sfuFn 4 ftz 0x8000_0000 = (0x8000_0000, 0) ∧ sfuFn 5 ftz 0xFF80_0000 = (0x7FC0_0000, fNV)) ∧
  (sfuFn 6 ftz 0x7F80_0000 = (0x3F80_0000, 0) ∧ sfuFn 6 ftz 0xFF80_0000 = (0xBF80_0000, 0) ∧
    sfuFn 6 ftz 0x8000_0000 = (0x8000_0000, 0)) ∧
  (sfuFn 7 ftz 0xFF80_0000 = (0, 0) ∧ sfuFn 7 ftz 0x7F80_0000 = (0x3F80_0000, 0))

/-- R35, R286, R294: the special cases of division, roots and the special functions. -/
def Obligations.FloatSpecialCasesAreAsTabled : Prop :=
  Clauses.DivisionAndRootSpecialCases ∧
  Clauses.SpecialFunctionSpecialCases

/-! ## Exact rationals and blocks (spec/03_rationals.md, spec/14_isa_exact_blocks.md) -/

/-- R298, R299, R61, R62: `qsel` selects a table entry, and the core members compute residues modulo M = p^k of the entry
in force, operands reduced first. -/
def Clauses.RationalCoreMembersComputeResidues : Prop :=
  (∀ (idx : Fin 16) (s : State), RunsTo (.qsel idx) s { s.me with qprime := BitVec.ofNat 4 idx.val }) ∧
  Elementwise2 64 .qadd (fun s x y => ((x + y) % modulus s.prime, 0)) ∧
  Elementwise2 64 .qsub (fun s x y => ((((x : Int) - y) % (modulus s.prime : Nat)).toNat, 0)) ∧
  Elementwise1 64 .qneg (fun s x => ((-(x : Int) % (modulus s.prime : Nat)).toNat, 0)) ∧
  Elementwise2 64 .qmul (fun s x y => (x * y % modulus s.prime, 0)) ∧
  Elementwise1 64 .qval (fun s x =>
    (valuation (primeOf s.prime).1 (primeOf s.prime).2 (x % modulus s.prime), 0)) ∧
  Elementwise2 64 .qdig (fun s x i =>
    (if (primeOf s.prime).2 ≤ i then 0
     else x % modulus s.prime / (primeOf s.prime).1 ^ i % (primeOf s.prime).1, 0)) ∧
  ElementCompare 64 .qcmpEq (fun s x y => (decide (x % modulus s.prime = y % modulus s.prime), 0)) ∧
  ElementCompare 64 .qcmpNe (fun s x y => (decide (x % modulus s.prime ≠ y % modulus s.prime), 0)) ∧
  (∀ p k x : Nat, 1 < p → valuation p k x ≤ k ∧ p ^ valuation p k x ∣ x ∧
    (valuation p k x < k → ¬ p ^ (valuation p k x + 1) ∣ x))

/-- R60, R63, R300: encoding, inversion and division. Where no active element's divisor is a multiple of p, the request
joins the quad's SFU queue with the times of Table 14-3; otherwise QDIV is raised with the mask of those elements, and
nothing is written. -/
def Clauses.RationalDivisionJoinsTheQueueOrRaisesQdiv : Prop :=
  ∀ (d a b : VFld) (g : MReg) (s s1 : State) (x y : Vec) (i : Instr) (M p : Nat) (bad : Nat → Bool) (r : Nat → Nat),
  M = modulus s.prime → p = (primeOf s.prime).1 →
  (i = .qenc d a b g ∧ sources2 s a b (some d) = .ok (x, y, s1) ∧
      bad = (fun j => modI (sgnN 64 (elem y 64 j)) p == 0) ∧
      r = (fun j => modI (sgnN 64 (elem x 64 j)) M * invMod (modI (sgnN 64 (elem y 64 j)) M) M % M)) ∨
    (i = .qinv d a g ∧ sources1 s a (some d) = .ok (x, s1) ∧
      bad = (fun j => elem x 64 j % p == 0) ∧ r = (fun j => invMod (elem x 64 j % M) M)) ∨
    (i = .qdiv d a b g ∧ sources2 s a b (some d) = .ok (x, y, s1) ∧
      bad = (fun j => elem y 64 j % p == 0) ∧ r = (fun j => elem x 64 j % M * invMod (elem y 64 j % M) M % M)) →
  ((∀ j, j < 8 → active 64 (s.rm g) j = true → bad j = false) →
    ∃ v : Vec, SfuRequest i s s1 d v 0 (8, modLog s.prime + 16) ∧
      ∀ j, j < 8 → elem v 64 j = if active 64 (s.rm g) j then r j % 2 ^ 64 else elem (oldOf s d) 64 j) ∧
  ((∃ j, j < 8 ∧ active 64 (s.rm g) j = true ∧ bad j = true) →
    ∃ set : Nat, Traps i s .qdiv 0 set ∧
      ∀ j, set.testBit j = true ↔ j < 8 ∧ active 64 (s.rm g) j = true ∧ bad j = true)

/-- R301, R302: `qdec` writes numerators to `n` and denominators to `m`, by one request to the SFU; QOVF where an active
element finds no pair. -/
def Clauses.RationalDecodeWritesNumeratorAndDenominator : Prop :=
  ∀ (n m : VReg) (a : VFld) (g : MReg) (s s1 : State) (x : Vec), sources1 s a none = .ok (x, s1) →
  let r := fun j => reconstruct s.prime (elem x 64 j % modulus s.prime)
  ∃ (num den : Vec) (fl : BitVec 8),
    exec (.qdec n m a g) s = .next (ended (sfuJoin s1 [(n.val, num), (m.val, den)] none fl
      (stepLimit s.prime / 2, stepLimit s.prime + 8))) ∧
    (∀ j, j < 8 →
      elem num 64 j = (if active 64 (s.rm g) j then wrapN 64 (r j).1 else elem (s.rv n.val) 64 j) ∧
      elem den 64 j = (if active 64 (s.rm g) j then wrapN 64 (r j).2.1 else elem (s.rv m.val) 64 j)) ∧
    fl = if (List.range 8).any (fun j => active 64 (s.rm g) j && (r j).2.2) then fQOVF else 0

/-- R60 to R63, R298 to R302: exact rational work. -/
def Obligations.RationalWorkWritesItsResult : Prop :=
  Clauses.RationalCoreMembersComputeResidues ∧
  Clauses.RationalDivisionJoinsTheQueueOrRaisesQdiv ∧
  Clauses.RationalDecodeWritesNumeratorAndDenominator

/-- R65, R66: what a residue decodes to. A pair found is within the decode bound, coprime, of positive denominator, and
congruent to the residue; where none is found the answer is 0/1. -/
def Obligations.DecodedRationalsAreCongruentToTheirResidue : Prop :=
  ∀ (idx x : Nat) (n d : Int) (failed : Bool), idx < 16 → x < modulus idx → reconstruct idx x = (n, d, failed) →
  (failed = true → n = 0 ∧ d = 1) ∧
  (failed = false → n.natAbs ≤ decodeBound idx ∧ 0 < d ∧ d.natAbs ≤ decodeBound idx ∧
    Nat.gcd n.natAbs d.natAbs = 1 ∧ ((x : Int) * d - n) % (modulus idx : Nat) = 0)

/-- R66: a fraction of coprime integers within the decode bound is what its residue decodes to, so that it is unique; where
no such fraction exists the answer is 0/1, marked as failed; the denominator is never a multiple of p; and 0 decodes to
0/1. -/
def Obligations.EveryBoundedFractionIsRecovered : Prop := ∀ (idx x : Nat), idx < 16 → x < modulus idx →
  (∀ n d : Int, n.natAbs ≤ decodeBound idx → 0 < d → d.natAbs ≤ decodeBound idx → Nat.gcd n.natAbs d.natAbs = 1 →
    ((x : Int) * d - n) % (modulus idx : Nat) = 0 → reconstruct idx x = (n, d, false)) ∧
  ((∀ n d : Int, n.natAbs ≤ decodeBound idx → 0 < d → d.natAbs ≤ decodeBound idx → Nat.gcd n.natAbs d.natAbs = 1 →
    ((x : Int) * d - n) % (modulus idx : Nat) ≠ 0) → reconstruct idx x = (0, 1, true)) ∧
  (reconstruct idx x).2.1 % ((primeOf idx).1 : Int) ≠ 0 ∧ reconstruct idx 0 = (0, 1, false)

/-- R304, R308, R45: the largest magnitude of the active lanes, and a combined scale applied with one rounding. -/
def Clauses.BlockMaximumAndScaleWriteTheirResult : Prop :=
  (∀ (d : SReg) (a : VFld) (g : MReg) (s s1 : State) (x : Vec), sources1 s a none = .ok (x, s1) →
    let lanes := ((List.range 16).filter fun e => active 32 (s.rm g) e).map fun e => elem x 32 e
    ∃ (r : Nat) (fl : BitVec 8),
      exec (.bamax d a g) s = .next (ended ((s1.ws d (BitVec.ofNat 64 r)).raise fl)) ∧
      (fl = if lanes.any (fun c => (unpackRaw fp32 c).isSnan) then fNV else 0) ∧
      ((∃ c ∈ lanes, (unpackRaw fp32 c).isNan = true) → r = 0x7FC0_0000) ∧
      ((∀ c ∈ lanes, (unpackRaw fp32 c).isNan = false) →
        (∀ c ∈ lanes, c % 2 ^ 31 ≤ r) ∧ (r = 0 ∨ ∃ c ∈ lanes, c % 2 ^ 31 = r))) ∧
  Elementwise3 32 .bscaleF32 (fun _ x y z => combinedScale (unpackRaw fp32 x) y z) ∧
  Elementwise3 32 .bscaleI32 (fun _ x y z =>
    combinedScale (.num (decide (sgnN 32 x < 0)) (sgnN 32 x).natAbs 0) y z)

/-- R305, R306, R307: quantising 16 lanes, or the sum of two blocks, to a register block, and a block's elements times
its scale. FPCTL is not read.
(Log entry 28.) -/
def Clauses.BlocksAreQuantisedAndScaledBack : Prop :=
  (∀ (c : BFmt) (d a : VFld) (s s1 : State) (x : Vec), sources1 s a (some d) = .ok (x, s1) →
    let r := quantRule c.fmtCode ((List.range 16).map fun i => unpackRaw fp32 (elem x 32 i))
    ∃ v : Vec, exec (.bquant c d a) s = .next (ended ((putVec s1 d v).raise r.2.2)) ∧
      blockScale v = r.1 % 2 ^ 16 ∧
      ∀ i, i < 16 → blockEl c v i = r.2.1.getD i 0 % 2 ^ blockBits c) ∧
  (∀ (c : BFmt) (d a b : VFld) (s s1 : State) (x y : Vec), sources2 s a b (some d) = .ok (x, y, s1) →
    let r := quantRule c.fmtCode ((List.range 16).map fun i => addX (blockVal c x i) (blockVal c y i))
    let tern := if c = .tern ∧ ((List.range 16).any fun i => blockEl c x i == 2 || blockEl c y i == 2) = true
      then fTERNBAD else 0
    ∃ v : Vec, exec (.baddq c d a b) s = .next (ended ((putVec s1 d v).raise (r.2.2 ||| tern))) ∧
      blockScale v = r.1 % 2 ^ 16 ∧
      ∀ i, i < 16 → blockEl c v i = r.2.1.getD i 0 % 2 ^ blockBits c) ∧
  (∀ (c : BFmt) (d a : VFld) (g : MReg) (s s1 : State) (x : Vec), sources1 s a (some d) = .ok (x, s1) →
    let r := fun (i : Nat) =>
      (if scaleOk (blockScale x) then packX fp32 (envRne true) (blockVal c x i) else (0x7FC0_0000, fNV))
    ∃ (v : Vec) (fl : BitVec 8), exec (.bdeq c d a g) s = .next (ended ((putVec s1 d v).raise fl)) ∧
      (∀ i, i < 16 → elem v 32 i = if active 32 (s.rm g) i then (r i).1 % 2 ^ 32 else elem (oldOf s d) 32 i) ∧
      (∀ b, b < 8 → (fl.getLsbD b = true ↔ ∃ i, i < 16 ∧ active 32 (s.rm g) i = true ∧
        ((r i).2.getLsbD b = true ∨ (b = 6 ∧ c = .tern ∧ blockEl c x i = 2)))))

/-- R304 to R308: block formats. That `bdeq` raises TERNBAD whether or not the scale conforms is the model's reading (log entry
28). -/
def Obligations.BlocksAreScaledQuantisedAndRead : Prop :=
  Clauses.BlockMaximumAndScaleWriteTheirResult ∧
  Clauses.BlocksAreQuantisedAndScaledBack

/-- R15, R16, R17, R255: what a vector-class word reads and changes. Sources without a channel read the registers and
change nothing. Whatever the sources, once the word ends with result `v` and flags `fl`: no scalar, predicate or mask
register changes, and no vector register but a register destination; flags are only added; no other register of the
thread changes, and no other thread, no byte of memory; a core keeps everything but its inbox and its counts of messages
taken from it and of places bespoken in it, and a launch everything but its channels. -/
def Obligations.VectorWordsChangeOnlyTheirDestination : Prop :=
  (∀ (s : State) (a b : VFld) (d : Option VFld), isChan a = false → isChan b = false →
    (∀ e, d = some e → isChan e = false) →
    sources1 s a d = .ok (s.rv a.val, s) ∧ sources2 s a b d = .ok (s.rv a.val, s.rv b.val, s)) ∧
  (∀ (s s1 : State) (a b d : VFld) (x y v : Vec) (fl : BitVec 8),
    sources1 s a (some d) = .ok (x, s1) ∨ sources2 s a b (some d) = .ok (x, y, s1) →
    let t := ended ((putVec s1 d v).raise fl)
    t.did = .ran ∧
    t.thr s.cur = { s.me with
      regs := if isChan d then s.me.regs else s.me.regs.wv d.val v
      fpflags := s.me.fpflags ||| fl
      pops := []
      pushes := [] } ∧
    (∀ k, k ≠ s.cur → t.thr k = s.thr k) ∧
    (∀ p, readByte t.mem p = readByte s.mem p) ∧
    t = { s with threads := t.threads, did := t.did, reqs := t.reqs, launches := t.launches, cores := t.cores } ∧
    (∀ k, t.core k =
      { s.core k with inbox := (t.core k).inbox, inboxDue := (t.core k).inboxDue, spill := (t.core k).spill }) ∧
    (∀ l, t.launch l = { s.launch l with chans := (t.launch l).chans }) ∧
    t.reqs.map (fun r => { r with undo := none }) = s.reqs.map (fun r => { r with undo := none }))

/-- R17, R98, R102: channel operands, a source `a` and a destination `d` of one word, whatever the word does with what it reads. A
word that names a channel its launch did not bind, as either, is stopped with ILLEGAL, DETAIL 2, and pops nothing, and so is a push
to the inbox where nothing is spilled; one whose message is not there yet, or whose destination has no allowance, waits and pops
nothing; otherwise a source channel gives its oldest message, which is then gone from it, and a register what it holds. -/
def Obligations.ChannelSourcesPopTheOldestMessage : Prop :=
  ∀ (s : State) (a : VFld) (d : Option VFld) (go : Vec × State → M State),
  let word := run s (sources1 s a d >>= go)
  let f : FaultRec := ⟨.illegal, 2, curWord s, none, false⟩
  let stops := s.busy s.cur = false → NoReport s → s.me.role ≠ .trailing →
    word = .next { takeFault s s.cur f with did := .trapped f }
  let from' := readEnd s s.cur (a.val - 24)
  let bound := (isChan a = true → from' ≠ none) ∧ ∀ e, d = some e → isChan e = true → writeEnd s s.cur (e.val - 24) ≠ none
  let there := isChan a = true → ∃ n, from' = some n ∧ chanBuf s s.cur n ≠ []
  let allowed := fun (e : VFld) => ∃ n, writeEnd s s.cur (e.val - 24) = some n ∧ canPush s s.cur n = true
  let spilled := ∀ e, d = some e → isChan e = true → writeEnd s s.cur (e.val - 24) = some inboxChan → s.myCore.spill ≠ 0
  (isChan a = true → from' = none → stops) ∧
  (∀ e, d = some e → isChan e = true → writeEnd s s.cur (e.val - 24) = none → stops) ∧
  (bound → there → ¬spilled → stops) ∧
  (bound → ¬there → word = .next (stay s .channel)) ∧
  (∀ e, bound → there → spilled → d = some e → isChan e = true → ¬allowed e → word = .next (stay s .channel)) ∧
  (bound → spilled → (∀ e, d = some e → isChan e = true → allowed e) →
    (isChan a = false → sources1 s a d = .ok (s.rv a.val, s)) ∧
    ∀ (n : Nat) (m : Vec) (r : List Vec), isChan a = true → from' = some n → chanBuf s s.cur n = m :: r →
      ∃ s1, sources1 s a d = .ok (m, s1) ∧ chanBuf s1 s.cur n = r ∧ (s1.thr s.cur).pops = s.me.pops ++ [(n, m)] ∧
        s1.mem = s.mem ∧ (s1.thr s.cur).regs = s.me.regs)

/-! ## Memory (spec/15_isa_memory_sync.md) -/

/-- R309, R311, R317: scalar loads and stores, synchronising loads and granule tags. Where the guard is true, the thread is
free to access memory and the access passes its checks, the access is put in flight with what its home is to do, and a
load with the register its value goes to; where the guard is false, nothing happens. The offset of `ld` and `st` counts
in units of the size. -/
def Obligations.ScalarAccessesAreIssued : Prop :=
  ∀ (g : KReg) (s : State) (i : Instr) (a : Acc) (t : List Part → State),
  (∃ (size : Width) (u rlx : Bool) (d base : SReg) (off : BitVec 8), i = .ld size u rlx d base off g ∧
      a = oneAcc (s.rs base) (off.toInt * (size.bits / 8 : Nat)) (size.bits / 8) (size.bits / 8) needR 1 ∧
      t = loadSent s rlx a .load (size.bits / 8) (.scalar d.val size.bits (!u))) ∨
    (∃ (size : Width) (rlx : Bool) (base d : SReg) (off : BitVec 8), i = .st size rlx base off d g ∧
      a = oneAcc (s.rs base) (off.toInt * (size.bits / 8 : Nat)) (size.bits / 8) (size.bits / 8) needW 2 ∧
      t = (if rlx then relaxedSent s a .store (size.bits / 8) (leBytes (size.bits / 8) (s.rs d).toNat)
        else storeSent s a .store (size.bits / 8) (leBytes (size.bits / 8) (s.rs d).toNat))) ∨
    (∃ (w : Width) (d p q : SReg), i = .ldSync w d p q g ∧
      a = tagAcc (s.rs p) (w.bits / 8) (w.bits / 8) needR 1 ∧
      t = loadSent s false a (.sync ((s.rs q).toNat % 128)) (w.bits / 8) (.scalar d.val w.bits true)) ∨
    (∃ (w : NW) (d p q : SReg), i = .ldSyncU w d p q g ∧
      a = tagAcc (s.rs p) (w.bits / 8) (w.bits / 8) needR 1 ∧
      t = loadSent s false a (.sync ((s.rs q).toNat % 128)) (w.bits / 8) (.scalar d.val w.bits false)) ∨
    (∃ d p : SReg, i = .gtagRd d p g ∧ a = tagAcc (s.rs p) 1 1 needR 1 ∧
      t = loadSent s false a .tagRd 1 (.tagByte d.val)) ∨
    (∃ p q : SReg, i = .gtagSet p q g ∧ a = tagAcc (s.rs p) 1 1 needRW 2 ∧
      t = storeSent s a (.tagSet ((s.rs q).toNat % 128)) 1 [BitVec.ofNat 8 ((s.rs q).toNat % 128)]) ∨
    (∃ p : SReg, i = .gtagClr p g ∧ a = tagAcc (s.rs p) 1 1 needRW 2 ∧ t = storeSent s a .tagClr 1 []) →
  (s.rk g = false → RunsTo i s s.me) ∧
  (s.rk g = true → Clear s → ∀ parts, Passes s a parts → exec i s = .next (ended (t parts)))

/-- R319: reservations and atomics. `rsv` and every atomic first end the reservation the thread holds; the request then
goes to the word's home, and the thread waits. `wrv` writes under the reservation. Where the write would end the launch's
replayability (R211), the request carries that to its home, which performs it. -/
def Obligations.AtomicsAreIssued : Prop :=
  ∀ (w : WW) (d a b : SReg) (g : KReg) (s : State) (parts : List Part),
  let n := w.bits / 8
  let acc := oneAcc (s.rs a) 0 n n needRW 2
  let e := endOwn s s.cur
  let old := Finish.atomicOld d.val w.bits
  (s.rk g = false → RunsTo (.rsv w d a g) s s.me ∧ RunsTo (.wrv w a b g) s s.me) ∧
  (s.rk g = true → Clear s → Unpaired e → Passes e acc parts →
    exec (.rsv w d a g) s = .next (ended (atomicSent e false acc .rsv n old parts))) ∧
  (s.rk g = true → Clear s → Passes s acc parts →
    exec (.wrv w a b g) s = .next (ended
      (let r := (mkReq s false .wrv acc.va n parts (leBytes n (s.rs b).toNat) .none true).endsReplay (wouldEndReplay s parts)
       (issue s r).updMe fun t => { t with wait := some (.load r.id) }))) ∧
  (∀ (i : Instr) (op : AmoOp),
    (i = .amoAdd w d a b g ∧ op = .add) ∨ (i = .amoAnd w d a b g ∧ op = .and) ∨ (i = .amoOr w d a b g ∧ op = .or) ∨
    (i = .amoXor w d a b g ∧ op = .xor) ∨ (i = .amoMin w d a b g ∧ op = .min) ∨ (i = .amoMax w d a b g ∧ op = .max) ∨
    (i = .amoMinu w d a b g ∧ op = .minu) ∨ (i = .amoMaxu w d a b g ∧ op = .maxu) ∨
    (i = .amoSwap w d a b g ∧ op = .swap) ∨ (i = .amoCas w d a b g ∧ op = .cas) →
    (s.rk g = false → RunsTo i s s.me) ∧
    (s.rk g = true → Clear s → Unpaired e → Passes e acc parts →
      exec i s = .next (ended (atomicSent e (wouldEndReplay e parts) acc
        (.amo op ((s.rs b).toNat % 2 ^ w.bits) (if op = .cas then (s.rs d).toNat % 2 ^ w.bits else 0)) n old parts))))

/-- R312 to R316: vector loads. Under a mask with no active element a load accesses nothing; otherwise, where its
destination can take the value and the access passes its checks, it is put in flight with its destination. -/
def Obligations.VectorLoadsAreIssued : Prop :=
  (∀ (rlx : Bool) (v : VFld) (base aux : SReg) (g : MReg) (s s1 : State) (i : Instr) (w : Nat) (a : Acc)
      (kind : ReqKind) (f : Finish) (parts : List Part),
    (∃ e : Width, w = e.bits ∧ kind = .load ∧
      ((i = .vld e rlx v base g ∧
          a = elemAcc (s.rs base) w (s.rm g) (fun j => (j * (w / 8) : Nat)) needR false 1) ∨
        (i = .vldS e rlx v base aux g ∧
          a = elemAcc (s.rs base) w (s.rm g) (fun j => j * (s.rs aux).toInt) needR false 1))) ∨
      (rlx = false ∧ w = 32 ∧ kind = .sync ((s.rs aux).toNat % 128) ∧ i = .vldSync v base aux g ∧
        a = tagAcc (s.rs base) 64 64 needR 1) →
    ((∀ e, e < 512 / w → active w (s.rm g) e = false) → RunsTo i s s.me) ∧
    ((∃ e, e < 512 / w ∧ active w (s.rm g) e = true) → Clear s →
      checkBound s [] (some v) = .ok () → checkReady s [] (some v) = .ok () → lanesTo s v w (s.rm g) = (f, s1) →
      Passes s1 a parts → exec i s = .next (ended (loadSent s1 rlx a kind 64 f parts)))) ∧
  (∀ (rlx : Bool) (v : VFld) (base : SReg) (g : MReg) (s s1 : State) (f : Finish) (parts : List Part),
    let p := s.rs base
    (idle (ptrFmt p) (s.rm g) = true → RunsTo (.vldF rlx v base g) s s.me) ∧
    (idle (ptrFmt p) (s.rm g) = false → Clear s →
      checkBound s [] (some v) = .ok () → checkReady s [] (some v) = .ok () → fmtTo s v (ptrFmt p) (s.rm g) = (f, s1) →
      Passes s1 (fmtAcc p (s.rm g) needR 1) parts →
      exec (.vldF rlx v base g) s =
        .next (ended (loadSent s1 rlx (fmtAcc p (s.rm g) needR 1) .load (fmtSize (ptrFmt p)) f parts)))) ∧
  (∀ (e : WW) (rlx : Bool) (v : VFld) (base : SReg) (aux : VFld) (g : MReg) (s s1 s2 : State) (x : Vec) (f : Finish)
      (parts : List Part), sources1 s aux (some v) = .ok (x, s1) →
    let a := elemAcc (s.rs base) e.bits (s.rm g)
      (fun j => sgnN e.bits (elem x e.bits j) * (e.bits / 8 : Nat)) needR true 1
    ((∀ j, j < 512 / e.bits → active e.bits (s.rm g) j = false) →
      exec (.vgath e rlx v base aux g) s = .next (ended s1)) ∧
    ((∃ j, j < 512 / e.bits ∧ active e.bits (s.rm g) j = true) → Clear s → lanesTo s1 v e.bits (s.rm g) = (f, s2) →
      Passes s2 a parts →
      exec (.vgath e rlx v base aux g) s = .next (ended (loadSent s2 rlx a .load 64 f parts)))) ∧
  (∀ (rlx : Bool) (v : VFld) (base aux : SReg) (s : State) (parts : List Part),
    let a := blkAcc (s.rs base) ((s.rs aux).toNat % 16) needR 1
    let c := if isChan v then takeCredit s v else (none, s)
    Clear s → checkBound s [] (some v) = .ok () → checkReady s [] (some v) = .ok () → Passes c.2 a parts →
    exec (.vldBlk rlx v base aux) s = .next (ended (loadSent c.2 rlx a .load (blockLen (ptrFmt (s.rs base)))
      (.block v.val c.1 (ptrFmt (s.rs base)) (BitVec.allOnes 16)) parts))) ∧
  (∀ (k : KReg) (v : VFld) (base aux : SReg) (s : State) (parts : List Part) (d : List Word),
    let p := s.rs base
    let fmt := ptrFmt p
    let handle := (s.rs aux).toNat % 2 ^ 16
    let a : Acc :=
      { ptr := p, pieces := ldrPieces p, al := max 1 (codeBits fmt / 8), base := true, tagged := false, need := needR,
        fmtBad := false, each := false, kind := 1 }
    fmt = 4 ∨ fmt = 6 ∨ fmt = 7 ∨ fmt = 9 ∨ fmt = 10 → Clear s → isChan v = false → Passes s a parts →
    liveGroup s (ctxOf s (tileOf s.cur)) handle = some d →
    exec (.vldr k v base aux) s = .next (ended
      (loadSent s false a .load (2 * codeBits fmt) (.ldr k.val v.val aux.val handle fmt) parts)))

/-- R312 to R315: vector stores. The source is read first, a popped message whole; under a mask with no active element
nothing is stored. -/
def Obligations.VectorStoresAreIssued : Prop :=
  (∀ (rlx : Bool) (base aux : SReg) (v : VFld) (g : MReg) (s s1 : State) (x : Vec) (i : Instr) (w : Nat) (a : Acc)
      (parts : List Part),
    (∃ e : Width, w = e.bits ∧
      ((i = .vst e rlx base v g ∧
          a = elemAcc (s.rs base) w (s.rm g) (fun j => (j * (w / 8) : Nat)) needW false 2) ∨
        (i = .vstS e rlx base v aux g ∧
          a = elemAcc (s.rs base) w (s.rm g) (fun j => j * (s.rs aux).toInt) needW false 2))) →
    sources1 s v none = .ok (x, s1) →
    ((∀ e, e < 512 / w → active w (s.rm g) e = false) → exec i s = .next (ended s1)) ∧
    ((∃ e, e < 512 / w ∧ active w (s.rm g) e = true) → Clear s → Passes s1 a parts →
      exec i s = .next (ended (if rlx then relaxedSent s1 a .store 64 (vecBytes x) parts
        else storeSent s1 a .store 64 (vecBytes x) parts)))) ∧
  (∀ (rlx : Bool) (base : SReg) (v : VFld) (g : MReg) (s s1 : State) (x : Vec) (parts : List Part),
    sources1 s v none = .ok (x, s1) →
    let p := s.rs base
    let o := fmtOut s.env (ptrFmt p) (s.rm g) x
    let kind := if o.2.1.all (fun b => b == 0xFF || b == 0) then ReqKind.store else ReqKind.storeMask o.2.1
    let a := fmtAcc p (s.rm g) needW 2
    (idle (ptrFmt p) (s.rm g) = true → exec (.vstF rlx base v g) s = .next (ended s1)) ∧
    (idle (ptrFmt p) (s.rm g) = false → Clear s → Passes s1 a parts →
      exec (.vstF rlx base v g) s =
        .next (ended ((if rlx then relaxedSent s1 a kind (fmtSize (ptrFmt p)) o.1 parts
          else storeSent s1 a kind (fmtSize (ptrFmt p)) o.1 parts).raise o.2.2)))) ∧
  (∀ (e : WW) (rlx : Bool) (base : SReg) (aux v : VFld) (g : MReg) (s s1 : State) (x y : Vec) (parts : List Part),
    sources2 s aux v none = .ok (x, y, s1) →
    let a := elemAcc (s.rs base) e.bits (s.rm g)
      (fun j => sgnN e.bits (elem x e.bits j) * (e.bits / 8 : Nat)) needW true 2
    ((∀ j, j < 512 / e.bits → active e.bits (s.rm g) j = false) →
      exec (.vscat e rlx base aux v g) s = .next (ended s1)) ∧
    ((∃ j, j < 512 / e.bits ∧ active e.bits (s.rm g) j = true) → Clear s → Passes s1 a parts →
      exec (.vscat e rlx base aux v g) s = .next (ended (if rlx then relaxedSent s1 a .store 64 (vecBytes y) parts
        else storeSent s1 a .store 64 (vecBytes y) parts)))) ∧
  (∀ (rlx : Bool) (base : SReg) (v : VFld) (aux : SReg) (s s1 : State) (x : Vec) (parts : List Part),
    sources1 s v none = .ok (x, s1) →
    let p := s.rs base
    let a := blkAcc p ((s.rs aux).toNat % 16) needW 2
    let o := fmtOut s.env (ptrFmt p) (BitVec.allOnes 16) x
    Clear s → Passes s1 a parts →
    exec (.vstBlk rlx base v aux) s = .next (ended ((if rlx then relaxedSent s1 a .store (blockLen (ptrFmt p)) o.1 parts
      else storeSent s1 a .store (blockLen (ptrFmt p)) o.1 parts).raise o.2.2)))

/-- R71, R72, R93: an access put in flight changes no register of any thread but the wait and the access number of its
own, and no byte of memory: memory changes only where an access is performed at its home. -/
def Obligations.AnIssuedAccessChangesNothingYet : Prop := ∀ (s : State) (r : Req) (w : Option Wait),
  let t := ended ((issue s r).updMe fun u => { u with wait := w })
  t.thr s.cur = { s.me with seq := s.me.seq + 1, wait := w, pops := [], pushes := [] } ∧
  (∀ k, k ≠ s.cur → t.thr k = s.thr k) ∧
  (∀ p, readByte t.mem p = readByte s.mem p) ∧
  t.reqs.map (fun q => { q with undo := none }) = (s.reqs ++ [r]).map (fun q => { q with undo := none }) ∧
  t = { s with
    threads := t.threads, did := .ran, reqs := t.reqs, nextId := s.nextId + 1, launches := t.launches
    cores := t.cores } ∧
  (∀ k, t.core k = { s.core k with inbox := (t.core k).inbox, inboxDue := (t.core k).inboxDue }) ∧
  (∀ l, t.launch l = { s.launch l with chans := (t.launch l).chans })

/-- R309, R153, R200: what the checks of a scalar access find, in order: a byte outside 48 bits raises TAG with the
pointer, a misaligned address ALIGN, a page the TLBs lack is a miss (a walk's fault being XLATE), then the checks of the
leaf; with none of these and no watch, the access has its bytes at the translated address.
(Log entry 33.) -/
def Obligations.ScalarAccessChecksInOrder : Prop :=
  ∀ (s : State) (p : Word) (off : Int) (n kind : Nat) (need : Need) (va : Int),
  0 < n → n ≤ 8 → (n = 1 ∨ n = 2 ∨ n = 4 ∨ n = 8) → va = (ptrVa p : Int) + off →
  let a := oneAcc p off n n need kind
  (va < 0 ∨ (2 ^ 48 : Nat) < va + n → checkAcc s a = .error (.fault ⟨.tag, 0, p.toNat, none, false⟩)) ∧
  (0 ≤ va → va + n ≤ (2 ^ 48 : Nat) → va.toNat % n ≠ 0 →
    checkAcc s a = .error (.fault ⟨.align, 0, va.toNat, none, false⟩)) ∧
  (0 ≤ va → va + n ≤ (2 ^ 48 : Nat) → va.toNat % n = 0 →
    (∀ q c, s.me.walkFault = some (q, c) → q = va.toNat / 4096 →
      checkAcc s a = .error (.fault ⟨.xlate, c, va.toNat, none, false⟩)) ∧
    (s.me.walkFault = none → tlbLookup s (tileOf s.cur) (ctxOf s (tileOf s.cur)) va.toNat = none →
      checkAcc s a = .error (.miss (va.toNat / 4096))) ∧
    (∀ e f, s.me.walkFault = none → tlbLookup s (tileOf s.cur) (ctxOf s (tileOf s.cur)) va.toNat = some e →
      leafFault s e p va.toNat need = some f → checkAcc s a = .error (.fault f)) ∧
    (∀ e, s.me.walkFault = none → tlbLookup s (tileOf s.cur) (ctxOf s (tileOf s.cur)) va.toNat = some e →
      leafFault s e p va.toNat need = none → s.myCore.dbgctl = 0 →
      ∃ parts, Passes s a parts ∧
        (parts.map (·.moves)).flatten = (List.range n).map fun j => (e.addr va.toNat + j, j)))

/-- R147, R153: the checks of a leaf: the causes of the physical address first, then the permissions, XLATE each; then,
where the page has a generation, TAG for a pointer without one and LAPSED for another one or a lapsed page.
(Log entry 35.) -/
def Obligations.LeafChecksInOrder : Prop := ∀ (s : State) (e : TlbEntry) (p : Word) (va : Nat) (n : Need),
  let pa := e.addr va
  let xlate := fun (c : Nat) => some (⟨.xlate, c, va, none, false⟩ : FaultRec)
  let here := pkgOf pa = s.pkg
  let pod := s.pod.contains (pkgOf pa) = true
  let known := isSram pa = true ∨ (isDrawer pa = true ∧ (here → (windowPort s pa).isSome = true))
  let ok := pod ∧ known ∧ ¬(here ∧ carved s pa = true)
  (¬pod → leafFault s e p va n = xlate 8) ∧
  (pod → ¬known → leafFault s e p va n = xlate 3) ∧
  (pod → known → here → carved s pa = true → leafFault s e p va n = xlate 7) ∧
  (ok → n.r = true → e.r = false → leafFault s e p va n = xlate 4) ∧
  (ok → (n.r = true → e.r = true) → n.w = true → e.w = false → leafFault s e p va n = xlate 5) ∧
  (ok → (n.r = true → e.r = true) → (n.w = true → e.w = true) → n.x = true → e.x = false →
    leafFault s e p va n = xlate 6) ∧
  (ok → (n.r = true → e.r = true) → (n.w = true → e.w = true) → (n.x = true → e.x = true) →
    leafFault s e p va n =
      if e.gen = 0 then none
      else if ptrGen p = 0 then some ⟨.tag, 0, p.toNat, none, false⟩
      else if ptrGen p ≠ e.gen ∨ e.lap = true then some ⟨.lapsed, 0, va, none, false⟩
      else none)

/-- R86, R320: a fence ends once the thread's accesses are performed, no report waits, its messages within the scope are
placed and, for `fence.eng`, its engine commands are complete, or one of them has failed and its report is due, which the
model reads R203 to count as complete (log entry 74, DEDUCED); a prefetch never faults and changes no register and no byte
of memory. -/
def Obligations.FencesEndAndPrefetchIsHarmless : Prop := ∀ (sc : Scope) (a : SReg) (g : KReg) (s : State),
  (s.rk g = false → RunsTo (.fence sc g) s s.me ∧ RunsTo (.fenceEng sc g) s s.me ∧ RunsTo (.pf a g) s s.me) ∧
  (s.rk g = true → s.busy s.cur = false → s.me.failures = [] → s.me.contain = [] → s.me.stalls = [] →
    placedWithin s sc = true →
    RunsTo (.fence sc g) s s.me ∧ (engIdle s = true → RunsTo (.fenceEng sc g) s s.me)) ∧
  (s.rk g = true → s.busy s.cur = true →
    exec (.fence sc g) s = .next (stay (drainAll s.cur s) .accessSlot)) ∧
  (∃ t, exec (.pf a g) s = .next t ∧ t.did = .ran ∧ t.thr s.cur = { s.me with pops := [], pushes := [] } ∧
    (∀ k, k ≠ s.cur → t.thr k = s.thr k) ∧ (∀ p, readByte t.mem p = readByte s.mem p))

/-! ## Holds, system registers, traps (spec/15_isa_memory_sync.md R321 to R326, spec/16_isa_engines_system.md) -/

/-- R321 to R326: an instruction of major 0x28 first sends its request to the keeper (`hold.rt` and `hold.grp` after
they have read their descriptor), and, met again with the answer, writes it and ends. `hold.rng` writes two
registers; `renew` writes none and raises PRIV for handle 0. -/
def Obligations.HoldInstructionsAskAndTakeTheAnswer :
    Prop := ∀ (d a b : SReg) (g : KReg) (s : State) (ws : List Word) (parts : List Part),
  (s.rk g = false → s.me.got = none →
    RunsTo (.holdRng d a b g) s s.me ∧ RunsTo (.holdLk d a b g) s s.me ∧ RunsTo (.holdRt d a b g) s s.me ∧
    RunsTo (.holdGrp d a b g) s s.me ∧ RunsTo (.renew a b g) s s.me ∧ RunsTo (.life d a g) s s.me ∧
    RunsTo (.hinfo d a g) s s.me) ∧
  (s.rk g = true → Unpaired s → s.me.got = some (.words ws) →
    let r := s.me.regs.ws d.val (ws.getD 0 0)
    TakesAnswer (.holdRng d a b g) s (r.ws (d + 1).val (ws.getD 1 0)) ∧
    TakesAnswer (.holdLk d a b g) s r ∧ TakesAnswer (.life d a g) s r ∧ TakesAnswer (.hinfo d a g) s r ∧
    TakesAnswer (.renew a b g) s s.me.regs ∧
    (ws.length ≠ 2 → TakesAnswer (.holdRt d a b g) s r) ∧ (ws.length ≠ 8 → TakesAnswer (.holdGrp d a b g) s r)) ∧
  (s.rk g = true → Clear s → s.me.got = none →
    exec (.holdRng d a b g) s = .next (asked s (keeperReq s 0 d.val (s.rs a) (s.rs b) [] 0)) ∧
    (Passes s (oneAcc (s.rs a) 0 1 1 needRW 2) parts →
      exec (.holdLk d a b g) s = .next (asked s (keeperReq s 1 d.val
        (BitVec.ofNat 64 (ptrVa (s.rs a) / 8 * 8)) (s.rs b) [] (match parts with | [] => 0 | q :: _ => q.pa)))) ∧
    (Passes s (oneAcc (s.rs a) 0 16 8 needR 1) parts →
      exec (.holdRt d a b g) s = .next (readingFirst s (s.rs a) 2 parts)) ∧
    (Passes s (oneAcc (s.rs a) 0 64 8 needR 1) parts →
      exec (.holdGrp d a b g) s = .next (readingFirst s (s.rs a) 8 parts)) ∧
    ((s.rs a).toNat % 2 ^ 16 ≠ 0 →
      exec (.renew a b g) s = .next (asked s (keeperReq s 4 0 (s.rs a) (s.rs b) [] 0))) ∧
    ((s.rs a).toNat % 2 ^ 16 = 0 → Traps (.renew a b g) s .priv 0 (curWord s)) ∧
    exec (.life d a g) s = .next (asked s (keeperReq s 5 d.val (s.rs a) 0 [] 0)) ∧
    exec (.hinfo d a g) s = .next (asked s (keeperReq s 6 d.val (s.rs a) 0 [] 0)))

/-- R19, R353: reading a system register. Every assigned register of Table 1-7 reads as the state holds it, its reserved
bits 0, a privileged one in slots 13 to 15 only; an unassigned number raises ILLEGAL with DETAIL 4, a privileged one elsewhere PRIV. -/
def Clauses.SystemRegistersReadAsTheStateHoldsThem :
    Prop := ∀ (d : SReg) (n : Fin 2048) (g : KReg) (s : State) (x : Word),
  let tile := tileOf s.cur
  let c := s.myCore
  (n.val = 0x000 ∧ x = BitVec.ofNat 64 (s.pkg * 4096 + tile)) ∨
  (n.val = 0x001 ∧ x = BitVec.ofNat 64 (s.cur % 16)) ∨
  (n.val = 0x002 ∧ x = BitVec.ofNat 64 (ctxOf s tile)) ∨
  (n.val = 0x003 ∧ x = BitVec.ofNat 64 (capOf s s.cur)) ∨
  (n.val = 0x010 ∧ x = s.me.fpctl.zeroExtend 64) ∨
  (n.val = 0x011 ∧ x = s.me.fpflags.zeroExtend 64) ∨
  (n.val = 0x012 ∧ x = s.me.qprime.zeroExtend 64) ∨
  (n.val = 0x013 ∧ x = BitVec.ofNat 64 ((if s.me.dlEn then 2 ^ 63 else 0) + s.me.dlLeft.toNat)) ∨
  (n.val = 0x014 ∧ x = c.eseq.zeroExtend 64) ∨
  (n.val = 0x015 ∧ x = BitVec.ofNat 64
    ((if c.mxprog.valid then 2 ^ 48 else 0) + c.mxprog.seq.toNat * 2 ^ 32 + c.mxprog.groups.toNat)) ∨
  (n.val = 0x020 ∧ x = s.me.trapvec) ∨ (n.val = 0x021 ∧ x = s.me.trapcause) ∨
  (n.val = 0x022 ∧ x = s.me.trappc) ∨ (n.val = 0x023 ∧ x = s.me.trapval) ∨
  (privileged s.cur = true ∧
    ((∃ i : Fin 4, n.val = 0x100 + i.val ∧ x = c.shadow[i] &&& 0x8F8F_8F8F_8F8F_8F8F) ∨
      (n.val = 0x104 ∧ x = BitVec.ofNat 64 ((if c.rej then 2 else 0) + (if c.pend then 1 else 0))) ∨
      (n.val = 0x105 ∧ x = c.stagger.zeroExtend 64) ∨
      (n.val = 0x106 ∧ x = (c.dbgctl &&& 0xF5FF00#64) ||| (if haltedNow s tile then 0x20000#64 else 0)))) →
  WritesScalar (.sysrd d n g) s d g x

/-- R19: the numbers and privileges of the system registers, for reads and writes whatever the guard. -/
def Clauses.SystemRegisterAccessesAreChecked : Prop := ∀ (d a : SReg) (n : Fin 2048) (g : KReg) (s : State),
  let assigned := n.val ≤ 0x003 ∨ (0x010 ≤ n.val ∧ n.val ≤ 0x015) ∨ (0x020 ≤ n.val ∧ n.val ≤ 0x023) ∨
    (0x100 ≤ n.val ∧ n.val ≤ 0x106)
  (¬assigned → Traps (.sysrd d n g) s .illegal 4 (curWord s) ∧ Traps (.syswr n a g) s .illegal 4 (curWord s)) ∧
  (0x100 ≤ n.val → n.val ≤ 0x106 → privileged s.cur = false →
    Traps (.sysrd d n g) s .priv 0 (curWord s) ∧ Traps (.syswr n a g) s .priv 0 (curWord s)) ∧
  (n.val ≤ 0x003 ∨ n.val = 0x014 ∨ n.val = 0x015 ∨ (n.val = 0x104 ∧ privileged s.cur = true) →
    Traps (.syswr n a g) s .illegal 4 (curWord s))

/-- R353, R14, R32, R56, R116: writing a system register, reserved bits ignored. A thread's register changes in its
thread; a core's in its core. -/
def Clauses.SystemRegistersTakeWhatIsWritten : Prop := ∀ (n : Fin 2048) (a : SReg) (g : KReg) (s : State),
  let x := s.rs a
  Unpaired s →
  (s.rk g = false → (0x010 ≤ n.val ∧ n.val ≤ 0x013) ∨ (0x020 ≤ n.val ∧ n.val ≤ 0x023) → RunsTo (.syswr n a g) s s.me) ∧
  (s.rk g = true →
    (n.val = 0x010 → RunsTo (.syswr n a g) s { s.me with fpctl := BitVec.ofNat 4 x.toNat }) ∧
    (n.val = 0x011 → RunsTo (.syswr n a g) s { s.me with fpflags := BitVec.ofNat 8 x.toNat }) ∧
    (n.val = 0x012 → RunsTo (.syswr n a g) s { s.me with qprime := BitVec.ofNat 4 x.toNat }) ∧
    (n.val = 0x013 → RunsTo (.syswr n a g) s
      { s.me with dlEn := x.getLsbD 63, dlLeft := BitVec.ofNat 48 x.toNat, dlDue := false }) ∧
    (n.val = 0x020 → RunsTo (.syswr n a g) s { s.me with trapvec := x &&& 0x0000FFFFFFFFFFFC#64 }) ∧
    (n.val = 0x021 → RunsTo (.syswr n a g) s { s.me with trapcause := x &&& 0x0000FFFF0007FFFF#64 }) ∧
    (n.val = 0x022 → RunsTo (.syswr n a g) s { s.me with trappc := x &&& 0x0000FFFFFFFFFFFF#64 }) ∧
    (n.val = 0x023 → RunsTo (.syswr n a g) s { s.me with trapval := x }) ∧
    (∀ i, i < 4 → n.val = 0x100 + i → privileged s.cur = true →
      exec (.syswr n a g) s = .next (ended (s.updMyCore fun c =>
        { c with shadow := c.shadow.setIfInBounds i x, pend := c.pend || i == 3, rej := c.rej && i != 3 }))) ∧
    (n.val = 0x105 → privileged s.cur = true →
      exec (.syswr n a g) s = .next (ended (s.updMyCore fun c => { c with stagger := BitVec.ofNat 6 x.toNat }))) ∧
    (n.val = 0x106 → privileged s.cur = true →
      exec (.syswr n a g) s = .next (ended (writeDbgctl s (tileOf s.cur) x))))

/-- R19, R353: system registers read, checked and written. -/
def Obligations.SystemRegistersFollowTheirTable : Prop :=
  Clauses.SystemRegistersReadAsTheStateHoldsThem ∧
  Clauses.SystemRegisterAccessesAreChecked ∧
  Clauses.SystemRegistersTakeWhatIsWritten

/-- R198, R196: taking a fault that is not terminal: the thread's program counter is saved in TRAPPC, TRAPCAUSE and
TRAPVAL are written, ACT among them, a due DEADLINE, of a leading thread its partner's too (R118), gives way to another fault
(EN clear, DLX set), and the thread goes on at HADDR × 4; its registers, flags and every byte of memory are as they were. -/
def Clauses.TakingAFaultSavesAndGoesToTheHandler : Prop := ∀ (s : State) (key : Nat) (f : FaultRec),
  let t := s.thr key
  let u := (takeFault s key f).thr key
  let h := t.trapvec.toNat % 2 ^ 48 / 4 * 4
  let due := deadlineDue t = true ∨ t.role = .leading ∧ deadlineDue (s.thr (partnerOf key)) = true
  f.terminal = false → h ≠ 0 → (f.impr = none → t.trapcause.getLsbD 18 = false) →
  u.pc = BitVec.ofNat 48 h ∧ u.npc = BitVec.ofNat 48 h ∧
  u.trappc = BitVec.ofNat 64 t.pc.toNat ∧ u.trapval = BitVec.ofNat 64 f.val ∧
  u.trapcause = BitVec.ofNat 64 ((f.impr.getD 0 % 2 ^ 16) * 2 ^ 32 + 2 ^ 18 +
    (if due ∧ f.code ≠ .deadline then 2 ^ 17 else 0) + (if f.impr.isSome then 2 ^ 16 else 0) +
    f.detail % 2 ^ 8 * 2 ^ 8 + f.code.num) ∧
  (due → u.dlEn = false) ∧ (¬due → u.dlEn = t.dlEn) ∧ u.dlDue = false ∧ u.wait = none ∧
  u.regs = t.regs ∧ u.fpctl = t.fpctl ∧ u.fpflags = t.fpflags ∧ u.qprime = t.qprime ∧ u.trapvec = t.trapvec ∧
  u.live = t.live ∧ u.dlLeft = t.dlLeft ∧
  (∀ p, readByte (takeFault s key f).mem p = readByte s.mem p) ∧
  (∀ k, k ≠ key → k ≠ partnerOf key → (takeFault s key f).thr k = s.thr k)

/-- R199: a fault without a handler, or a precise one while ACT is set, is terminal: the thread is live no more, its
core's worst code takes the fault's, and in slot 0 the core's part of its launch ends as by `done` with operand 0, the
helpers, slots 1 to 10, ending too. -/
def Clauses.TerminalFaultsEndTheThread : Prop := ∀ (s : State) (key : Nat) (f : FaultRec),
  f.terminal = true ∨ (s.thr key).trapvec.toNat % 2 ^ 48 / 4 * 4 = 0 ∨
    (f.impr = none ∧ (s.thr key).trapcause.getLsbD 18 = true) →
  let t := takeFault s key f
  (t.thr key).live = false ∧ f.code.num ≤ (t.core (tileOf key)).worst ∧ (t.core (tileOf key)).faulted = true ∧
  (slotOf key = 0 → (t.core (tileOf key)).doneOp = some 0 ∧
    ∀ i, 1 ≤ i → i ≤ 10 → (t.thr (keyOf (tileOf key) i)).live = false)

/-- R196, R198, R199: taking a fault. -/
def Obligations.FaultsAreTakenOrEndTheThread : Prop :=
  Clauses.TakingAFaultSavesAndGoesToTheHandler ∧
  Clauses.TerminalFaultsEndTheThread

/-- R354: `trap` raises the fault its operand names, with the program's DETAIL and TRAPVAL; a code that Table 9-1 does not
assign, or a nonzero field above DETAIL, raises ILLEGAL. -/
def Clauses.TrapRaisesTheNamedFault : Prop := ∀ (d a : SReg) (g : KReg) (s : State),
  let x := (s.rs a).toNat
  (s.rk g = false → RunsTo (.trap d a g) s s.me) ∧
  (∀ c, s.rk g = true → codeOfNum (x % 256) = some c → x / 2 ^ 16 = 0 →
    Traps (.trap d a g) s c (x / 256 % 256) (s.rs d).toNat) ∧
  (s.rk g = true → codeOfNum (x % 256) = none ∨ x / 2 ^ 16 ≠ 0 → Traps (.trap d a g) s .illegal 1 (curWord s)) ∧
  (∀ n c, codeOfNum n = some c ↔ 1 ≤ n ∧ n ≤ 20 ∧ c.num = n)

/-- R355, R210: `eret` goes on at TRAPPC with ACT cleared, and no breakpoint or watch hits the next instruction; a
misaligned TRAPPC raises ALIGN. A leading thread whose partner is parked restores it beside itself.
(Log entry 66.) -/
def Clauses.EretReturnsToTheSavedPc : Prop := ∀ (g : KReg) (s : State),
  let pc : VAddr := BitVec.ofNat 48 s.me.trappc.toNat
  (s.rk g = false → RunsTo (.eret g) s s.me) ∧
  (s.rk g = true → s.me.role ≠ .trailing → s.me.trappc.toNat % 4 ≠ 0 →
    Traps (.eret g) s .align 0 s.me.trappc.toNat) ∧
  (s.rk g = true → s.me.role ≠ .trailing → s.me.trappc.toNat % 4 = 0 →
    ∃ t, exec (.eret g) s = .next t ∧ t.did = .ran ∧
      (t.thr s.cur).npc = pc ∧ (t.thr s.cur).trapcause = s.me.trapcause &&& ~~~(0x40000#64) ∧
      (t.thr s.cur).noHit = true ∧ (t.thr s.cur).regs = s.me.regs ∧ (t.thr s.cur).fpflags = s.me.fpflags ∧
      (t.thr s.cur).pc = s.me.pc ∧ (t.thr s.cur).live = s.me.live ∧
      (∀ p, readByte t.mem p = readByte s.mem p) ∧
      (∀ k, k ≠ s.cur → k ≠ partnerOf s.cur → t.thr k = s.thr k) ∧
      (let p := s.thr (partnerOf s.cur)
       let q := t.thr (partnerOf s.cur)
       if slotOf s.cur % 2 = 1 ∧ p.live = true ∧ p.role = .trailing then
         (t.thr s.cur).role = .leading ∧ q.role = .trailing ∧ q.parked = false ∧ q.pc = pc ∧ q.regs = s.me.regs
       else (t.thr s.cur).role = s.me.role ∧ (partnerOf s.cur ≠ s.cur → q = p)))

/-- R354, R355, R210: `trap` and `eret`; what `eret` does in the handler of a pair is the model's reading (log entry 66). -/
def Obligations.TrapAndEretEnterAndReturn : Prop :=
  Clauses.TrapRaisesTheNamedFault ∧
  Clauses.EretReturnsToTheSavedPc

/-- R356, R357, R358: `hcall` reads its request, queues it for the driver, and takes the answer; `dbg` raises DEBUG where
DBGCTL.ACT is set and halts the core otherwise; `tlbinv` removes the entries its descriptor names from the TLBs of the
named dies, in privileged slots only. -/
def Obligations.HostCallDebugAndInvalidate : Prop := ∀ (d a : SReg) (g : KReg) (s : State) (ws : List Word)
    (parts : List Part),
  (privileged s.cur = true → Traps (.hcall d a g) s .illegal 1 (curWord s)) ∧
  (privileged s.cur = false → s.rk g = true →
    (Clear s → s.me.got = none → Passes s (oneAcc (s.rs a) 0 64 8 needR 1) parts →
      exec (.hcall d a g) s = .next (readingFirst s (s.rs a) 8 parts)) ∧
    (s.me.got = some (.words ws) → ws.length = 8 →
      ∃ t, exec (.hcall d a g) s = .next t ∧ (t.thr s.cur).wait = some .call ∧ (t.thr s.cur).regs = s.me.regs ∧
        (let x := s.ctx (ctxOf s (tileOf s.cur))
         let y := t.ctx (ctxOf s (tileOf s.cur))
         let c : Call := ⟨lidOf s (tileOf s.cur), s.myCore.index, slotOf s.cur, d.val, ws⟩
         y.posted.toList ++ y.calls = x.posted.toList ++ (x.calls ++ [c]))) ∧
    (s.me.got = some (.words ws) → ws.length ≠ 8 → Unpaired s →
      TakesAnswer (.hcall d a g) s (s.me.regs.ws d.val (ws.getD 0 0)))) ∧
  (s.rk g = false → RunsTo (.dbg g) s s.me) ∧
  (s.rk g = true → s.myCore.dbgctl.getLsbD 9 = true → Traps (.dbg g) s .debug 3 s.me.pc.toNat) ∧
  (s.rk g = true → s.myCore.dbgctl.getLsbD 9 = false →
    ∃ t, exec (.dbg g) s = .next t ∧ t.did = .ran ∧ t.myCore.dbgctl = s.myCore.dbgctl ||| 0x10000#64 ∧
      (t.thr s.cur).regs = s.me.regs ∧ ∀ p, readByte t.mem p = readByte s.mem p) ∧
  (privileged s.cur = false → Traps (.tlbinv a g) s .priv 0 (curWord s)) ∧
  (privileged s.cur = true → s.rk g = true → tlbinvBad (s.rs a) = true → Traps (.tlbinv a g) s .illegal 1 (curWord s)) ∧
  (privileged s.cur = true → s.rk g = true → tlbinvBad (s.rs a) = false →
    ∃ t, exec (.tlbinv a g) s = .next t ∧ t.did = .ran ∧ (t.thr s.cur).regs = s.me.regs ∧
      (∀ p, readByte t.mem p = readByte s.mem p) ∧
      (∀ k, (s.rs a).getLsbD 63 = true ∨ dieOf k = dieOf (tileOf s.cur) →
        (t.core k).tlb = (s.core k).tlb.filter fun e => !tlbinvHit (s.rs a) e) ∧
      (∀ q, (s.rs a).getLsbD 63 = true ∨ q / 256 = dieOf (tileOf s.cur) →
        (t.quad q).tlb = (s.quad q).tlb.filter fun e => !tlbinvHit (s.rs a) e))

/-! ## Time, messages, barriers, helpers, engines, launches (spec/15_isa_memory_sync.md R327 to R333, spec/16 R335 to R337) -/

/-- R327: time. -/
def Obligations.TimeInstructionsReadAndSetTheClock : Prop := ∀ (d a : SReg) (g : KReg) (s : State),
  WritesScalar (.tick d g) s d g (BitVec.ofNat 64 s.ptb) ∧
  ((s.rs a).toNat ≤ s.ptb ∨ s.rk g = false → RunsTo (.tickw a g) s s.me) ∧
  (s.ptb < (s.rs a).toNat → s.rk g = true → Waits (.tickw a g) s (.time (s.rs a).toNat)) ∧
  (s.rk g = false → RunsTo (.dline a g) s s.me) ∧
  (s.rk g = true → RunsTo (.dline a g) s
    { s.me with dlLeft := BitVec.ofNat 48 (s.rs a).toNat, dlEn := (s.rs a).toNat % 2 ^ 48 != 0, dlDue := false })

/-- R328, R329, R156: a message leaves with the header the core writes (CAP of the thread, HANDLER and DST of the operand,
all else 0) and 56 bytes of payload; the length of a bound channel is read without popping. -/
def Obligations.MessagesLeaveWithTheirHeader : Prop :=
  (∀ (a : SReg) (b : VFld) (g : KReg) (s s1 : State) (v : Vec), Clear s → s.rk g = true →
    s.me.contain = [] → s.me.stalls = [] → (∀ m ∈ s.net, ¬(m.key = s.cur ∧ m.lid = lidOf s (tileOf s.cur))) →
    sources1 s b none = .ok (v, s1) →
    let h := capOf s s.cur * 2 ^ 48 + (s.rs a).toNat / 2 ^ 40 % 256 * 2 ^ 40 + (s.rs a).toNat % 2 ^ 20
    ∃ (t : State) (m : Msg), exec (.msend a b g) s = .next t ∧ t.did = .ran ∧ t.net = s.net ++ [m] ∧
      m.key = s.cur ∧ m.born = s.me.born ∧ m.lid = lidOf s (tileOf s.cur) ∧ m.ctx = ctxOf s (tileOf s.cur) ∧ m.fwd = false ∧ m.peer = none ∧
      m.dst = (s.rs a).toNat % 2 ^ 20 % 4096 ∧ m.pkg = (s.rs a).toNat % 2 ^ 20 / 4096 ∧
      m.body.toNat = (h + v.toNat % 2 ^ 448 * 2 ^ 64) % 2 ^ 512 ∧
      t.thr s.cur = { s.me with pops := [], pushes := [] } ∧ (∀ k, k ≠ s.cur → t.thr k = s.thr k) ∧
      (∀ p, readByte t.mem p = readByte s.mem p) ∧
      t.myCore.sent = s.myCore.sent +
        (if s.myCore.launch.isSome = true ∧ boundTo s ((s.rs a).toNat % 2 ^ 20 / 4096) ((s.rs a).toNat % 2 ^ 20 % 4096)
          (lidOf s (tileOf s.cur)) = true then 1 else 0)) ∧
  (∀ (d : SReg) (ch : Fin 8) (g : KReg) (s : State),
    (∀ x, chanWord s ch.val = some x → WritesScalar (.chlen d ch g) s d g (BitVec.ofNat 64 x)) ∧
    (chanWord s ch.val = none → Traps (.chlen d ch g) s .illegal 2 (curWord s)))

/-- R330, R132, R141: the arrival at a barrier, the end of a core's part and a probe. Each fences first, then waits, with
what it leaves recorded: the flags and cycle of an arrival, `done`'s operand; the wait ends by the machine's own steps.
In another slot each raises ILLEGAL. `bar.pod` joins the episode of its group and tick, and waits again in one where its
arrival stands (the model's choice, log entry 98). -/
def Obligations.BarriersDoneAndProbeWait : Prop := ∀ (sc : BScope) (a b : SReg) (g : KReg) (s : State),
  let quiet := s.busy s.cur = false ∧ s.me.failures = [] ∧ s.me.contain = [] ∧ s.me.stalls = []
  let scope := match sc with | .core => Scope.core | .quad => .quad | .die => .die | .pkg => .pkg
  let allowed := (sc = .core ∧ slotOf s.cur ≤ 10) ∨ slotOf s.cur = 0
  (¬allowed → Traps (.bar sc g) s .illegal 1 (curWord s)) ∧
  (allowed → s.rk g = false → RunsTo (.bar sc g) s s.me) ∧
  (allowed → s.rk g = true → quiet → placedWithin s scope = true →
    Waits (.bar sc g) s (.barrier sc s.me.fpflags s.cycle)) ∧
  (slotOf s.cur ≠ 0 → Traps (.done a g) s .illegal 1 (curWord s) ∧ Traps (.probe g) s .illegal 1 (curWord s) ∧
    Traps (.barPod a b g) s .illegal 1 (curWord s)) ∧
  (slotOf s.cur = 0 → s.rk g = false →
    RunsTo (.done a g) s s.me ∧ RunsTo (.probe g) s s.me ∧ RunsTo (.barPod a b g) s s.me) ∧
  (slotOf s.cur = 0 → s.rk g = true → quiet →
    exec (.done a g) s = .next (stay (s.updMyCore fun c => { c with doneOp := some (s.rs a) }) .completion) ∧
    Waits (.probe g) s .probe) ∧
  (slotOf s.cur = 0 → s.rk g = true → quiet → placedWithin s .pod = true → s.me.got = none → ∀ d,
    liveGroup s (ctxOf s (tileOf s.cur)) ((s.rs a).toNat % 2 ^ 16) = some d →
    let key := groupKey s (ctxOf s (tileOf s.cur)) ((s.rs a).toNat % 2 ^ 16)
    let here := match s.episode key (s.rs b).toNat with | some e => e.tiles | none => []
    let stands := ∃ x ∈ here, x.1 = tileOf s.cur
    (s.ptb ≤ (s.rs b).toNat → stands → Waits (.barPod a b g) s (.podBarrier key (s.rs b).toNat s.me.fpflags)) ∧
    (s.ptb ≤ (s.rs b).toNat → ¬stands → here.length < myCores s d →
      exec (.barPod a b g) s = .next (stay (arriveEpisode s key (s.rs b).toNat (tileOf s.cur) d s.me.fpflags)
        (.podBarrier key (s.rs b).toNat s.me.fpflags))) ∧
    ((s.rs b).toNat < s.ptb ∨ ¬stands ∧ myCores s d ≤ here.length → Traps (.barPod a b g) s .barlate 0 (s.rs b).toNat))

/-- R331: `hstart` starts the lowest free slot of 1 to 10 and writes its number, or writes 0 where none is free; the helper
begins at the entry with `s1` to `s3`, FPCTL, QPRIME, the deadline and TRAPVEC of its starter, `s4` the argument, and
every other register 0. A misaligned entry raises ALIGN, another slot than 0 ILLEGAL. `hprot` starts a pair. -/
def Clauses.HelpersStartInTheLowestFreeSlot : Prop := ∀ (d a b : SReg) (g : KReg) (s : State),
  let tile := tileOf s.cur
  let entry := s.rs a
  let helper := fun (t : State) (i : Nat) (role : PairRole) =>
    let h := t.thr (keyOf tile i)
    h.live = true ∧ h.parked = false ∧ h.pc = BitVec.ofNat 48 entry.toNat ∧ h.npc = h.pc ∧ h.role = role ∧
    h.regs.rs 1 = s.me.src.rs 1 ∧ h.regs.rs 2 = s.me.src.rs 2 ∧ h.regs.rs 3 = s.me.src.rs 3 ∧ h.regs.rs 4 = s.rs b ∧
    (∀ r, 5 ≤ r → r < 32 → h.regs.rs r = 0) ∧ (∀ r, r < 24 → h.regs.rv r = 0) ∧
    (∀ r, 1 ≤ r → r < 8 → h.regs.rk r = false ∧ h.regs.rm r = 0) ∧
    h.fpctl = s.me.fpctl ∧ h.fpflags = 0 ∧ h.qprime = s.me.qprime ∧ h.dlEn = s.me.dlEn ∧ h.dlLeft = s.me.dlLeft ∧
    h.trapvec = s.me.trapvec ∧ h.trapcause = 0 ∧ h.wait = none
  (slotOf s.cur ≠ 0 → Traps (.hstart d a b g) s .illegal 1 (curWord s) ∧ Traps (.hprot d a b g) s .illegal 1 (curWord s)) ∧
  (slotOf s.cur = 0 → s.rk g = false → RunsTo (.hstart d a b g) s s.me ∧ RunsTo (.hprot d a b g) s s.me) ∧
  (slotOf s.cur = 0 → s.rk g = true → entry.toNat % 4 ≠ 0 →
    Traps (.hstart d a b g) s .align 0 (entry.toNat % 2 ^ 48) ∧ Traps (.hprot d a b g) s .align 0 (entry.toNat % 2 ^ 48)) ∧
  (slotOf s.cur = 0 → s.rk g = true → entry.toNat % 4 = 0 →
    ((∀ i, 1 ≤ i → i ≤ 10 → slotFree s tile i = false) → WritesScalar (.hstart d a b g) s d g 0) ∧
    (∀ i, 1 ≤ i → i ≤ 10 → slotFree s tile i = true → (∀ j, 1 ≤ j → j < i → slotFree s tile j = false) →
      ∃ t, exec (.hstart d a b g) s = .next t ∧ t.did = .ran ∧ helper t i .alone ∧
        t.thr s.cur = { s.me with regs := s.me.regs.ws d.val (BitVec.ofNat 64 i), pops := [], pushes := [] } ∧
        (∀ k, k ≠ s.cur → k ≠ keyOf tile i → t.thr k = s.thr k) ∧ (∀ p, readByte t.mem p = readByte s.mem p)) ∧
    ((∀ j, j < 5 → slotFree s tile (2 * j + 1) = false ∨ slotFree s tile (2 * j + 2) = false) →
      WritesScalar (.hprot d a b g) s d g 0) ∧
    (∀ j, j < 5 → slotFree s tile (2 * j + 1) = true → slotFree s tile (2 * j + 2) = true →
      (∀ m, m < j → slotFree s tile (2 * m + 1) = false ∨ slotFree s tile (2 * m + 2) = false) →
      ∃ t, exec (.hprot d a b g) s = .next t ∧ t.did = .ran ∧
        helper t (2 * j + 1) .leading ∧ helper t (2 * j + 2) .trailing ∧
        t.thr s.cur =
          { s.me with regs := s.me.regs.ws d.val (BitVec.ofNat 64 (2 * j + 1)), pops := [], pushes := [] } ∧
        (∀ k, k ≠ s.cur → k ≠ keyOf tile (2 * j + 1) → k ≠ keyOf tile (2 * j + 2) → t.thr k = s.thr k) ∧
        (∀ p, readByte t.mem p = readByte s.mem p)))

/-- R332, R19, R210: `hjoin` waits for a live slot and ends at once for one that is not; `stop` joins the thread's flags to
slot 0's and ends it, and in the handler of a pair the parked partner too, which is the model's reading (log entry 107); `tid` reads
the launch index and the slot. -/
def Clauses.HelpersJoinAndStop : Prop := ∀ (d a : SReg) (g : KReg) (s : State),
  let i := (s.rs a).toNat
  let done := (s.thr (keyOf (tileOf s.cur) i)).live = false ∧
    ¬(i % 2 = 1 ∧ (s.thr (keyOf (tileOf s.cur) (i + 1))).live = true ∧
      (s.thr (keyOf (tileOf s.cur) (i + 1))).role = .trailing)
  WritesScalar (.tid d g) s d g (BitVec.ofNat 64 (s.myCore.index * 16 + s.cur % 16)) ∧
  (slotOf s.cur ≠ 0 → Traps (.hjoin a g) s .illegal 1 (curWord s)) ∧
  (slotOf s.cur = 0 → s.rk g = false → RunsTo (.hjoin a g) s s.me) ∧
  (slotOf s.cur = 0 → s.rk g = true → i < 1 ∨ 10 < i → Traps (.hjoin a g) s .illegal 1 (curWord s)) ∧
  (slotOf s.cur = 0 → s.rk g = true → 1 ≤ i → i ≤ 10 → done → RunsTo (.hjoin a g) s s.me) ∧
  (slotOf s.cur = 0 → s.rk g = true → 1 ≤ i → i ≤ 10 → ¬done → Waits (.hjoin a g) s .join) ∧
  (slotOf s.cur < 1 ∨ 12 < slotOf s.cur → Traps (.stop g) s .illegal 1 (curWord s)) ∧
  (1 ≤ slotOf s.cur → slotOf s.cur ≤ 12 → s.rk g = false → RunsTo (.stop g) s s.me) ∧
  (1 ≤ slotOf s.cur → slotOf s.cur ≤ 12 → s.rk g = true → Clear s → s.me.wait ≠ some .call →
    ∃ t, exec (.stop g) s = .next t ∧ t.did = .ran ∧ (t.thr s.cur).live = false ∧
      (t.thr (keyOf (tileOf s.cur) 0)).fpflags = (s.thr (keyOf (tileOf s.cur) 0)).fpflags ||| s.me.fpflags ∧
      (t.thr (keyOf (tileOf s.cur) 0)).regs = (s.thr (keyOf (tileOf s.cur) 0)).regs ∧
      (s.me.role = .handling → (t.thr (partnerOf s.cur)).live = false) ∧
      (∀ k, k ≠ s.cur → k ≠ keyOf (tileOf s.cur) 0 → (s.me.role = .handling → k ≠ partnerOf s.cur) → t.thr k = s.thr k) ∧
      (∀ p, readByte t.mem p = readByte s.mem p))

/-- R331, R332: helpers. -/
def Obligations.HelpersStartJoinAndStop : Prop :=
  Clauses.HelpersStartInTheLowestFreeSlot ∧
  Clauses.HelpersJoinAndStop

/-- R335, R336, R337: a command pushed takes ESEQ, a ring entry with STATE 0 and the tail of its engine's queue, and the
thread gets its sequence number; a full queue waits. A ring entry is read whole, all ones where its number is another's;
`ewait` ends once the entry has failed, ended or gone. -/
def Obligations.EngineCommandsArePushedAndAwaited : Prop :=
  (∀ (e : Eng) (d : SReg) (a : VFld) (g : KReg) (s s1 : State) (w : Vec),
    s.rk g = true → Clear s → sources1 s a none = .ok (w, s1) →
    (engineRoom s.myCore e = true →
      ∃ t, exec (.enq e d a g) s = .next t ∧ t.did = .ran ∧
        t.thr s.cur =
          { s.me with regs := s.me.regs.ws d.val (s.myCore.eseq.zeroExtend 64), pops := [], pushes := [] } ∧
        t.myCore.eseq = s.myCore.eseq + 1 ∧
        (t.myCore.eng e).queue = (s.myCore.eng e).queue ++ [⟨s.myCore.eseq, slotOf s.cur, s.me.born, w⟩] ∧
        (∀ f, f ≠ e → t.myCore.eng f = s.myCore.eng f) ∧
        (let r := ringAt t.myCore s.myCore.eseq.toNat
         r.seq = s.myCore.eseq ∧ r.state = 0 ∧ r.slot = slotOf s.cur ∧ r.eng = engCode e ∧ r.taken = false) ∧
        (∀ k, k ≠ s.cur → t.thr k = s.thr k) ∧ (∀ p, readByte t.mem p = readByte s.mem p))) ∧
  (∀ (e : Eng) (d : SReg) (a : VFld) (g : KReg) (s : State),
    checkBound s [a] none = .ok () → s.rk g = true → Clear s → engineRoom s.myCore e = false →
    Waits (.enq e d a g) s .engineQueue) ∧
  (∀ (n : RingWord) (d a : SReg) (g : KReg) (s : State),
    let i := (s.rs a).toNat % 2 ^ 16
    let r := ringAt s.myCore i
    (r.seq.toNat = i → WritesScalar (.eseq n d a g) s d g (ringWord r n)) ∧
    (r.seq.toNat ≠ i → WritesScalar (.eseq n d a g) s d g (BitVec.allOnes 64)) ∧
    (s.rk g = false → RunsTo (.ewait a g) s s.me) ∧
    (s.rk g = true → r.seq.toNat ≠ i ∨ 2 ≤ r.state → RunsTo (.ewait a g) s s.me) ∧
    (s.rk g = true → r.seq.toNat = i → r.state < 2 → Waits (.ewait a g) s .engine))

/-- R333, R134, R135: `launch.grid` and `launch.pipe` read 14 payload words first; met again with them, they place a launch
one deeper than their own at the tail of the context's FIFO; at depth 16 POOL with DETAIL 0 and code 7 in TRAPVAL, POOL at once
where the pool
is exhausted and POOLWAIT is 0, and a wait otherwise.
The reject word that a ring-less launch finds at its DONE is not stated here.
(Log entry 12.) -/
def Obligations.DeviceLaunchesArePlacedOneDeeper : Prop :=
  ∀ (a : SReg) (g : KReg) (s : State) (ws : List Word) (parts : List Part) (i : Instr) (pipe : Bool),
  (i = .launchGrid a g ∧ pipe = false) ∨ (i = .launchPipe a g ∧ pipe = true) →
  let l := s.launch (lidOf s (tileOf s.cur))
  let ctx := ctxOf s (tileOf s.cur)
  (s.rk g = false → RunsTo i s s.me) ∧
  (s.rk g = true → Clear s → s.me.got = none → Passes s (oneAcc (s.rs a) 0 112 8 needR 1) parts →
    exec i s = .next (readingFirst s (s.rs a) 14 parts)) ∧
  (s.rk g = true → Unpaired s → s.me.got = some (.words ws) →
    (16 ≤ l.depth → Traps i s .pool 0 7) ∧
    (l.depth < 16 → 16 ≤ quotaUsed s ctx l.depth → pPoolwait l.payload = 0 → Traps i s .pool 0 0) ∧
    (l.depth < 16 → 16 ≤ quotaUsed s ctx l.depth → pPoolwait l.payload ≠ 0 → Waits i s (.pool s.me.asked)) ∧
    (l.depth < 16 → quotaUsed s ctx l.depth < 16 → rejectCode s ctx pipe false ws = none →
      ∃ t, exec i s = .next t ∧ t.did = .ran ∧ (t.thr s.cur).regs = s.me.regs ∧ (t.thr s.cur).got = none ∧
        (t.launch s.nextId).state = .queued ∧ (t.launch s.nextId).pipe = pipe ∧ (t.launch s.nextId).payload = ws ∧
        (t.launch s.nextId).depth = l.depth + 1 ∧ (t.launch s.nextId).ctx = ctx ∧
        (t.ctx ctx).fifo = (s.ctx ctx).fifo ++ [s.nextId] ∧ quotaUsed t ctx l.depth = quotaUsed s ctx l.depth + 1 ∧
        t.mem = s.mem) ∧
    (∀ c, l.depth < 16 → quotaUsed s ctx l.depth < 16 → rejectCode s ctx pipe false ws = some c →
      ∃ t, exec i s = .next t ∧ t.did = .ran ∧ (t.thr s.cur).regs = s.me.regs ∧ (t.thr s.cur).got = none ∧
        (t.ctx ctx).fifo = (s.ctx ctx).fifo ∧ (pDone ws = 0 → (t.ctx ctx).abandon = (s.ctx ctx).abandon + 1)))

/-! ## Accesses at their homes (spec/04_ordering.md, spec/05_progress_threads.md R105) -/

/-- R69, R71, R72: a load's part is performed at its home: the request's buffer takes the bytes of memory, and nothing
else of the machine changes but one grant of the bank's budget. -/
def Clauses.LoadsArePerformed : Prop := ∀ (s : State) (id i h : Nat) (r : Req) (p : Part),
  s.req id = some r → r.parts[i]? = some p → p.stage = .waiting → homeTile s p.pa = some h →
  (∀ m ∈ p.moves, isDrawer m.1 = false) → isSram p.pa = true → behindEarlier s r i p = false →
  needsGrant s r p h = false ∨ bankTurn s h r i = true → (∀ w ∈ p.words, resvOn s h w = none ∧ waitersOn s w = []) →
  r.kind = .load → loadPoison s r.lid p = false →
  ∃ (t : State) (b : List Byte), Happens (.accessAtHome id i) s t ∧
    t = { s with banks := t.banks, reqs := t.reqs } ∧ t.req id = some { partAt r i .done with buf := b } ∧
    (∀ k, k ≠ id → t.req k = s.req k) ∧ b.length = r.buf.length ∧
    ((p.moves.map (·.2)).Nodup → ∀ m ∈ p.moves, m.2 < b.length → b.getD m.2 0 = readByte s.mem m.1) ∧
    (∀ j, j < b.length → (∀ m ∈ p.moves, m.2 ≠ j) → b.getD j 0 = r.buf.getD j 0)

/-- R69, R71, R75: a store's part is performed at its home: the bytes it moves take the buffer's values, and every other
byte of memory, every register and every tag is as it was. The memory is in its canonical form, which every step keeps
(EveryStepKeepsMemoryCanonical). -/
def Clauses.StoresArePerformed : Prop := ∀ (s : State) (id i h k : Nat) (r : Req) (p : Part), MemOk s →
  s.req id = some r → r.parts[i]? = some p → p.stage = .waiting → homeTile s p.pa = some h →
  (∀ m ∈ p.moves, isDrawer m.1 = false) → isSram p.pa = true → behindEarlier s r i p = false →
  needsGrant s r p h = false ∨ bankTurn s h r i = true → (∀ w ∈ p.words, resvOn s h w = none ∧ waitersOn s w = []) →
  r.kind = .store → r.owner = .thread k → storePoison s r.lid p = false →
  ∃ t : State, Happens (.accessAtHome id i) s t ∧
    t = { s with banks := t.banks, reqs := t.reqs, mem := t.mem, poison := t.poison } ∧
    t.req id = some (partAt r i .done) ∧ (∀ j, j ≠ id → t.req j = s.req j) ∧
    ((p.moves.map (·.1)).Nodup → ∀ m ∈ p.moves, readByte t.mem m.1 = r.buf.getD m.2 0) ∧
    (∀ a, (∀ m ∈ p.moves, m.1 ≠ a) → readByte t.mem a = readByte s.mem a)

/-- R82, R83, R317: what a synchronising load finds at its granule's home. A granule that is not FULL leaves its thread
waiting on it; one FULL with another sequence number fails the access with SCHED; one FULL with its own lets it go on as
a load. -/
def Clauses.SynchronisingLoadsMeetTheTag : Prop := ∀ (s : State) (id i h k q : Nat) (r : Req) (p : Part),
  s.req id = some r → r.parts[i]? = some p → p.stage = .waiting → homeTile s p.pa = some h →
  isSram p.pa = true → behindEarlier s r i p = false → bankTurn s h r i = true →
  r.kind = .sync q → r.owner = .thread k → (∀ w ∈ p.words, resvOn s h w = none ∧ waitersOn s w = []) →
  (∀ x, x < i → ∀ y, r.parts[x]? = some y → y.stage ≠ .failed) →
  let tag := s.tag (p.pa / 64)
  (tag.toNat < 128 → (s.thr k).wait ≠ some .granule →
    Happens (.accessAtHome id i) s (s.updThr k fun t => { t with wait := some .granule })) ∧
  (128 ≤ tag.toNat → tag.toNat % 128 ≠ q → ∃ t, Happens (.accessAtHome id i) s t ∧ t.mem = s.mem ∧
    t.req id = some { partAt r i .failed with fault := some ⟨.sched, tag.toNat, p.va, none, false⟩ }) ∧
  (128 ≤ tag.toNat → tag.toNat % 128 = q → loadPoison s r.lid p = false → ∃ t b, Happens (.accessAtHome id i) s t ∧
    t.mem = s.mem ∧ t.tags = s.tags ∧ t.req id = some { partAt r i .done with buf := b })

/-- R72, R73: the value of a plain scalar load comes back: its register takes it, sign- or zero-extended, the thread goes
on, the request is gone, a STEP of it is over (R223), and nothing else changes. (No scalar load carries the mark of a write
that ends replayability.) A plain access that failed leaves its instruction as if it had not
begun, and the fault is taken (R75, R197). -/
def Clauses.LoadValuesReturn : Prop := ∀ (s : State) (id key d bits : Nat) (sgn : Bool) (r : Req) (u : Undo),
  s.req id = some r → presented s id = false → r.owner = .thread key → r.settled = true → (s.thr key).live = true →
  r.lid = lidOf s (tileOf key) → (s.thr key).born ≤ r.seq → (s.thr key).role = .alone → sfuPending s key = false →
  r.kind = .load → r.fin = .scalar d bits sgn → r.undo = some u → u.pops = [] → u.pushes = [] → u.nrpl = false →
  (r.fault = none →
    Happens (.loadValueReturn id) s
      (endStep ({ s with reqs := s.reqs.filter fun q => q.id != id }.updThr key fun t =>
        { t with
          regs := t.regs.ws d (if sgn then BitVec.ofInt 64 (sgnN bits (leNat r.buf)) else BitVec.ofNat 64 (leNat r.buf % 2 ^ bits))
          wait := none }) key)) ∧
  (∀ f, r.fault = some f → impreciseDue s key = false → stopped s key = false → ∃ t t' : State, Happens (.loadValueReturn id) s t ∧
    t = takeFault t' key f ∧ t'.mem = s.mem ∧ (t'.thr key).pc = u.pc ∧ (t'.thr key).regs = u.regs ∧
    (t'.thr key).fpflags = u.flags ∧ (t'.thr key).qprime = u.qprime)

/-- R72, R75, R310: a store's acknowledgement: its request is gone; a failure is kept for the first instruction that waits
for the access. -/
def Clauses.StoresAreAcknowledged : Prop := ∀ (s : State) (id key : Nat) (r : Req),
  s.req id = some r → r.owner = .thread key → r.kind.acked = true → r.settled = true →
  let t : State := { s with reqs := s.reqs.filter fun q => q.id != id }
  (r.fault = none → Happens (.storeAck id) s t) ∧
  (∀ f, r.fault = some f → r.lid = lidOf s (tileOf key) → (s.thr key).born ≤ r.seq →
    Happens (.storeAck id) s (t.updThr key fun x => { x with failures := x.failures ++ [⟨f, none, r.seq, !r.rlx⟩] }))

/-- R74: 64 cycles after its first store a combining entry leaves as one store of its bytes. -/
def Clauses.CombiningEntriesDrain : Prop := ∀ (s : State) (tile slot : Nat) (c : Comb),
  let key := keyOf tile slot
  (s.thr key).comb = [c] → c.since + 64 ≤ s.cycle →
  Happens (.combiningEntryTimeout tile slot c.granule) s
    { s.updThr key (fun t => { t with comb := [] }) with
      reqs := s.reqs ++ [combReq s key s.nextId c], nextId := s.nextId + 1 }

/-- R81, R82, R89, R90, R317, R319: atomics, conditional writes and tag accesses at their home in SRAM. An `rsv` or `amo` that finds
its word free takes it: the old value is returned, and the reservation and its term begin. The write of a granted `amo` puts the new
value into its word, or nothing where its compare fails, and ends the reservation; a `wrv` of the holder writes and ends it; each
fails with LAPSED, having written nothing, where the reservation has ended. `gtag` reads the granule's tag byte, stamps it, or clears
FULL and keeps SEQ. Every other byte and tag is as it was. -/
def Clauses.AtomicsArePerformed : Prop := ∀ (s : State) (id i h k : Nat) (r : Req) (p : Part), MemOk s →
  s.req id = some r → r.parts[i]? = some p → homeTile s p.pa = some h → isSram p.pa = true →
  (∀ m ∈ p.moves, isDrawer m.1 = false) → bankTurn s h r i = true → (∀ w ∈ p.words, waitersOn s w = []) → r.owner = .thread k →
  let word := p.pa / 8
  let step := fun (t : State) => Happens (.accessAtHome id i) s t
  let arrives := p.stage = .waiting ∧ behindEarlier s r i p = false
  let ended := fun (t : State) => t.req id = some (partAt r i .done) ∧ (∀ j, (t.thr j).regs = (s.thr j).regs) ∧
    (∀ x ∈ (t.bank h).resv, x.word = word → x.lock ≠ none) ∧ (∀ j, (t.thr j).reserved ≠ some word) ∧ t.tags = s.tags
  let writes := fun (t : State) (v : Nat → Byte) =>
    ((p.moves.map (·.1)).Nodup → ∀ (j : Nat) (m : Nat × Nat), p.moves[j]? = some m → readByte t.mem m.1 = v j) ∧
    ∀ a, (∀ m ∈ p.moves, m.1 ≠ a) → readByte t.mem a = readByte s.mem a
  let lapsed := (∀ x, x < i → ∀ y, r.parts[x]? = some y → y.stage ≠ .failed) → ∃ t, step t ∧ t.mem = s.mem ∧ t.tags = s.tags ∧
    t.req id = some { partAt r i .failed with fault := some ⟨.lapsed, 0, p.va, none, false⟩ }
  (arrives → (r.kind = .rsv ∨ ∃ op x c, r.kind = .amo op x c) → (∀ w ∈ p.words, resvOn s h w = none) → resvOn s h word = none →
    loadPoison s r.lid p = false → ∃ (t : State) (b : List Byte), step t ∧
      t = { s with banks := t.banks, threads := t.threads, reqs := t.reqs } ∧
      t.req id = some { partAt r i (if r.kind = .rsv then .done else .granted) with buf := b } ∧ b.length = r.buf.length ∧
      ((p.moves.map (·.2)).Nodup → ∀ m ∈ p.moves, m.2 < b.length → b.getD m.2 0 = readByte s.mem m.1) ∧
      (t.bank h).resv = (s.bank h).resv ++ [⟨word, k, none, s.cycle⟩] ∧
      t.thr k = { s.thr k with reserved := some word } ∧ ∀ j, j ≠ k → t.thr j = s.thr j) ∧
  (∀ (op : AmoOp) (x c : Nat), p.stage = .granted → r.kind = .amo op x c →
    let new := amoValue op (8 * r.size) (leNat r.buf) (x % 2 ^ (8 * r.size)) (c % 2 ^ (8 * r.size))
    (∀ v, atomicOn s h word = some v → v.holder = k →
      (∀ y, new = some y → p.moves.length = r.size → ∃ t, step t ∧ ended t ∧ writes t fun j => (leBytes r.size y).getD j 0) ∧
      (new = none → ∃ t, step t ∧ ended t ∧ t.mem = s.mem)) ∧
    ((∀ v, atomicOn s h word = some v → v.holder ≠ k) → lapsed)) ∧
  (arrives → r.kind = .wrv →
    (∀ v, resvOn s h word = some v → v.holder = k → storePoison s r.lid p = false →
      ∃ t, step t ∧ ended t ∧ writes t fun j => r.buf.getD ((p.moves.getD j (0, 0)).2) 0) ∧
    ((∀ v, resvOn s h word = some v → v.holder ≠ k) → lapsed)) ∧
  (arrives →
    let tagged := fun (t : State) (v : Byte) => step t ∧ t = { s with banks := t.banks, reqs := t.reqs, tags := t.tags } ∧
      t.req id = some (partAt r i .done) ∧ t.tag (p.pa / 64) = v ∧ ∀ g, g ≠ p.pa / 64 → t.tag g = s.tag g
    (r.kind = .tagRd → ∃ t, step t ∧ t = { s with banks := t.banks, reqs := t.reqs } ∧
      t.req id = some { partAt r i .done with buf := [s.tag (p.pa / 64)] }) ∧
    (∀ q, r.kind = .tagSet q → ∃ t, tagged t (BitVec.ofNat 8 (128 + q % 128))) ∧
    (r.kind = .tagClr → ∃ t, tagged t (s.tag (p.pa / 64) &&& 0x7F)))

/-- R90: 256 cycles after its grant an atomic reservation ends; with nothing queued on the word nothing else happens. -/
def Clauses.ReservationTermsEnd : Prop := ∀ (s : State) (word h : Nat) (v : Resv),
  homeTile s (8 * word) = some h → atomicOn s h word = some v → v.granted + 256 ≤ s.cycle →
  waitersOn s word = [] →
  ∃ t : State, Happens (.atomicTermExpiry word) s t ∧ t = { s with banks := t.banks, threads := t.threads } ∧
    (∀ x ∈ (t.bank h).resv, x.word = word → x.lock ≠ none) ∧ (∀ k, (t.thr k).reserved ≠ some word) ∧
    (∀ k, (t.thr k).regs = (s.thr k).regs)

/-- R105: a deferred request presented again after 64 cycles, its word still held by another: stored where the bank has
room, else deferred again. -/
def Clauses.DeferredRequestsComeAgain : Prop := ∀ (s : State) (tile ticket since id i : Nat) (r : Req) (p : Part),
  s.reqs = [r] → r.id = id → r.parts = [p] → i = 0 → p.stage = .deferred ticket since → since + 64 ≤ s.cycle →
  homeTile s p.pa = some tile → heldOff s tile r p = true →
  ∃ t : State, Happens (.deferredRepresent tile ticket) s t ∧ t.mem = s.mem ∧
    t.req id = some (partAt r i (if stored s tile < 64 then .queued ticket else .deferred ticket s.cycle))

/-- R72 to R74, R90, R105, R321, R356: an access's steps one by one, and the instructions that wait for an answer: a load
performed in SRAM, a value that comes back, an acknowledgement, a combining entry that leaves, an atomic reservation that
ends, a deferred request that comes again; and each hold instruction, once its keeper's answer is there, writes it and
ends. -/
def Obligations.AccessStepsAndAnswersTakePlace : Prop := ∀ (s : State),
  (s.fatal = none →
    (∀ (id i h : Nat) (r : Req) (p : Part), s.req id = some r → r.parts[i]? = some p → p.stage = .waiting →
      homeTile s p.pa = some h → isSram p.pa = true → (∀ m ∈ p.moves, isDrawer m.1 = false) → behindEarlier s r i p = false →
      bankTurn s h r i = true → (∀ w ∈ p.words, resvOn s h w = none ∧ waitersOn s w = []) → r.kind = .load →
      loadPoison s r.lid p = false →
      ∃ (t : State) (b : List Byte), exec (.accessAtHome id i) s = .next t ∧
        t.req id = some { partAt r i .done with buf := b } ∧ t.mem = s.mem ∧
        ((p.moves.map (·.2)).Nodup → ∀ m ∈ p.moves, m.2 < b.length → b.getD m.2 0 = readByte s.mem m.1)) ∧
    (∀ (id key d bits : Nat) (r : Req) (u : Undo), s.req id = some r → presented s id = false → r.owner = .thread key →
      r.settled = true → r.fault = none → (s.thr key).live = true → r.lid = lidOf s (tileOf key) → (s.thr key).born ≤ r.seq →
      (s.thr key).role = .alone → sfuPending s key = false → r.kind = .load → r.fin = .scalar d bits false →
      r.undo = some u → u.pops = [] → u.pushes = [] →
      ∃ t, exec (.loadValueReturn id) s = .next t ∧ t.req id = none ∧ (t.thr key).wait = none ∧
        (t.thr key).regs = (s.thr key).regs.ws d (BitVec.ofNat 64 (leNat r.buf % 2 ^ bits)) ∧ t.mem = s.mem) ∧
    (∀ (id key : Nat) (r : Req), s.req id = some r → r.owner = .thread key → r.kind.acked = true → r.settled = true →
      r.fault = none → ∃ t, exec (.storeAck id) s = .next t ∧ t.req id = none ∧ t.threads = s.threads ∧ t.mem = s.mem) ∧
    (∀ (tile slot : Nat) (c : Comb), (s.thr (keyOf tile slot)).comb = [c] → c.since + 64 ≤ s.cycle →
      ∃ t, exec (.combiningEntryTimeout tile slot c.granule) s = .next t ∧ (t.thr (keyOf tile slot)).comb = [] ∧
        t.reqs = s.reqs ++ [combReq s (keyOf tile slot) s.nextId c] ∧ t.mem = s.mem) ∧
    (∀ (word h : Nat) (v : Resv), homeTile s (8 * word) = some h → atomicOn s h word = some v → v.granted + 256 ≤ s.cycle →
      waitersOn s word = [] → ∃ t, exec (.atomicTermExpiry word) s = .next t ∧
        (∀ x ∈ (t.bank h).resv, x.word = word → x.lock ≠ none) ∧ t.mem = s.mem) ∧
    (∀ (tile ticket since : Nat) (r : Req) (p : Part), s.reqs = [r] → r.parts = [p] → p.stage = .deferred ticket since →
      since + 64 ≤ s.cycle → homeTile s p.pa = some tile → heldOff s tile r p = true → stored s tile < 64 →
      ∃ t, exec (.deferredRepresent tile ticket) s = .next t ∧ t.req r.id = some (partAt r 0 (.queued ticket)) ∧
        t.mem = s.mem)) ∧
  (∀ (d a b : SReg) (g : KReg) (ws : List Word), s.rk g = true → Unpaired s → s.me.got = some (.words ws) →
    let writes := fun (i : Instr) (r : Regs) => ∃ t, exec i s = .next t ∧ t.did = .ran ∧ (t.thr s.cur).regs = r ∧
      (t.thr s.cur).got = none ∧ (∀ k, k ≠ s.cur → t.thr k = s.thr k) ∧ ∀ x, readByte t.mem x = readByte s.mem x
    let one := s.me.regs.ws d.val (ws.getD 0 0)
    writes (.holdRng d a b g) (one.ws (d + 1).val (ws.getD 1 0)) ∧ writes (.holdLk d a b g) one ∧
    (ws.length ≠ 2 → writes (.holdRt d a b g) one) ∧ (ws.length ≠ 8 → writes (.holdGrp d a b g) one) ∧
    writes (.renew a b g) s.me.regs ∧ writes (.life d a g) one ∧ writes (.hinfo d a g) one ∧
    (privileged s.cur = false → ws.length ≠ 8 → writes (.hcall d a g) one))

/-- R69 to R75, R81 to R83, R89, R90, R105, R317, R319: accesses at their homes. -/
def Obligations.AccessesArePerformedAtTheirHome : Prop :=
  Clauses.LoadsArePerformed ∧ Clauses.StoresArePerformed ∧ Clauses.SynchronisingLoadsMeetTheTag ∧
  Clauses.LoadValuesReturn ∧ Clauses.StoresAreAcknowledged ∧ Clauses.CombiningEntriesDrain ∧ Clauses.AtomicsArePerformed ∧
  Clauses.ReservationTermsEnd ∧ Clauses.DeferredRequestsComeAgain

/-! ## A core's own steps: the SFU, the rotation table, reports, timed waits -/

/-- R96: the SFU takes the head of its quad's queue once it is free, for its fixed occupancy; its result is due after the
fixed latency. -/
def Clauses.SfuServesItsHead : Prop := ∀ (s : State) (quad : Nat) (r : SfuReq) (rest : List SfuReq),
  let q := s.quad quad
  q.queue = r :: rest → q.freeAt ≤ s.cycle →
  Happens (.sfuServiceStart quad) s
    (s.setQuad quad { q with queue := rest, serving := q.serving ++ [(r, s.cycle + r.latency)], freeAt := s.cycle + r.occ })

/-- R96, R97: a result that is due writes the registers and flags of its thread, whose wait for the SFU ends; no other
thread, no byte of memory and no other register changes. -/
def Clauses.SfuResultsAreWritten : Prop := ∀ (s : State) (quad due : Nat) (r : SfuReq),
  (s.quad quad).serving.head? = some (r, due) → due ≤ s.cycle → r.key ≠ noThread → r.push = none →
  ∃ t : State, Happens (.sfuResult quad) s t ∧ t = { s with quads := t.quads, threads := t.threads } ∧
    (t.quad quad).serving = (s.quad quad).serving.tail ∧
    t.thr r.key = { s.thr r.key with
      regs := r.writes.foldl (fun g w => g.wv w.1 w.2) (s.thr r.key).regs
      fpflags := (s.thr r.key).fpflags ||| r.flags
      wait := if (s.thr r.key).wait = some .sfu then none else (s.thr r.key).wait } ∧
    ∀ k, k ≠ r.key → t.thr k = s.thr k

/-- R14, R170, Table 1-4: the Crown writes the four shadow words and arms them, of a core that no launch holds, or that is
being stopped or has ended its part; otherwise it does not. -/
def Clauses.RotationTablesAreArmed : Prop := ∀ (s : State) (tile : Nat) (w0 w1 w2 w3 : Word),
  let free := (s.core tile).launch = none ∨ (s.core tile).stopping = true ∨ (s.core tile).doneOp ≠ none
  tile < 4096 →
  (free → ∃ t : State, Happens (.rottabArm tile w0 w1 w2 w3) s t ∧
    t.core tile = { s.core tile with shadow := #v[w0, w1, w2, w3], pend := true, rej := false } ∧
    (∀ k, k ≠ tile → t.core k = s.core k) ∧ t = { s with cores := t.cores }) ∧
  (¬free → s.fatal = none → exec (.rottabArm tile w0 w1 w2 w3) s = .refused (.notEnabled "ROTTAB_ARM"))

/-- R12, R14: at the step to entry 0 an armed shadow whose reserved bits are 0, and in which no slot appears twice in any
four consecutive entries, becomes the table; any other is discarded with REJ set and leaves the table as it was. -/
def Clauses.ArmedShadowsAreChecked : Prop := ∀ (s : State) (tile : Nat),
  let c := s.core tile
  let e := fun (i : Nat) => (c.shadow.toArray.getD (i % 32 / 8) 0).toNat / 256 ^ (i % 8) % 256
  let good := ∀ i, i < 32 → e i / 16 % 8 = 0 ∧
    (128 ≤ e i → ∀ k, 1 ≤ k → k ≤ 3 → 128 ≤ e ((i + k) % 32) → e ((i + k) % 32) % 16 ≠ e i % 16)
  c.pend = true → c.rotPos = 31 →
  (good → ∃ v : Vector Byte 32, (∀ i, i < 32 → (v.toArray.getD i 0).toNat = e i) ∧
    Happens (.rottabShadowCheck tile) s (s.setCore tile { c with rottab := v, pend := false, rej := false })) ∧
  (¬good → Happens (.rottabShadowCheck tile) s (s.setCore tile { c with pend := false, rej := true }))

/-- R117, R118, R200: a budget that has run out is taken as DEADLINE at a boundary where no earlier report waits; EN is
clear from then on.
(Log entry 25.) -/
def Clauses.DeadlinesAreTaken : Prop := ∀ (s : State) (tile slot : Nat),
  let key := keyOf tile slot
  let x := s.thr key
  AtBoundary s key → x.role ≠ .trailing → x.dlEn = true → x.dlLeft = 0 → stopped s key = false →
  impreciseDue s key = false → x.failures = [] → x.contain = [] → x.stalls = [] →
  ∃ t' : State, Happens (.deadlineExpiry tile slot) s (takeFault t' key ⟨.deadline, 0, 0, none, false⟩) ∧
    t' = { s with threads := t'.threads } ∧ t'.thr key = { x with dlEn := false, dlDue := true } ∧
    ∀ k, k ≠ key → t'.thr k = s.thr k

/-- R203: at a boundary with ACT 0 the oldest failed command of a thread is taken as an imprecise fault with its code,
DETAIL, sequence number and address, and its ring entry is marked TAKEN. -/
def Clauses.ImpreciseFaultsAreTaken : Prop := ∀ (s : State) (tile slot i : Nat) (e : RingEntry) (c : Code),
  let key := keyOf tile slot
  AtBoundary s key → (s.thr key).role ≠ .trailing → stopped s key = false → tileOf key = tile →
  (s.thr key).act = false → pendingImprecise s key = some (i, e) → codeOfNum e.code = some c →
  Happens (.impreciseFaultTaken tile slot) s
    (takeFault (s.updCore tile fun d =>
        { d with ring := d.ring.map fun x => if x.1 = i then (x.1, { x.2 with taken := true }) else x })
      key ⟨c, e.detail, e.addr.toNat, some e.seq.toNat, false⟩)

/-- R158: the report of a diverted message reaches its sender, which takes CONTAIN; where that thread has ended, slot 0
takes it. -/
def Clauses.DiversionsAreReported : Prop := ∀ (s : State) (idx key lid born : Nat) (h : Word),
  s.reports[idx]? = some (key, lid, born, h) → lidOf s (tileOf key) = lid →
  let rest : State := { s with reports := s.reports.eraseIdx idx }
  let slot0 := keyOf (tileOf key) 0
  ((s.thr key).live = true → (s.thr key).born = born →
    Happens (.containReport idx) s (rest.updThr key fun t => { t with contain := t.contain ++ [h] })) ∧
  ((s.thr key).live = false ∨ (s.thr key).born ≠ born → (s.thr slot0).live = true →
    Happens (.containReport idx) s (rest.updThr slot0 fun t => { t with contain := t.contain ++ [h] }))

/-- R327, R137, R135: the timed waits: of `tickw` at its target, of a released core after its stagger, and of a device
launch, whose POOL is raised, after POOLWAIT. -/
def Clauses.TimedWaitsEnd : Prop := ∀ (s : State) (tile slot n : Nat),
  let key := keyOf tile slot
  let slot0 := keyOf tile 0
  let l := s.launch (lidOf s tile)
  ((s.thr key).wait = some (.time n) → n ≤ s.ptb →
    Happens (.timeWaitEnd tile slot) s (s.updThr key fun x => { x with wait := none })) ∧
  ((s.thr slot0).wait = some (.stagger n) → n ≤ s.cycle →
    Happens (.staggerReady tile) s (s.updThr slot0 fun x => { x with wait := none })) ∧
  ((s.thr key).wait = some (.pool n) → n + pPoolwait l.payload ≤ s.ptb → 16 ≤ quotaUsed s l.ctx l.depth →
    stopped s key = false → impreciseDue s key = false →
    Happens (.poolwaitExpiry tile slot) s (takeFault s key ⟨.pool, 0, 0, none, false⟩))

/-- R12, R14, R96, R97, R117, R118, R135, R137, R158, R203, R327: what a core does of itself. -/
def Obligations.ACoresOwnStepsTakePlace : Prop :=
  Clauses.SfuServesItsHead ∧ Clauses.SfuResultsAreWritten ∧ Clauses.RotationTablesAreArmed ∧
  Clauses.ArmedShadowsAreChecked ∧ Clauses.DeadlinesAreTaken ∧ Clauses.ImpreciseFaultsAreTaken ∧
  Clauses.DiversionsAreReported ∧ Clauses.TimedWaitsEnd

/-! ## Holds and translation (spec/05_progress_threads.md R105 to R114, spec/07_isolation_space.md R149 to R152) -/

/-- The state in which a keeper's request has left it and its thread has the answer. -/
def Clauses.answered (s : State) (die : Nat) (k : KeeperReq) (g : Got) : State :=
  (s.updDie die fun d => { d with keeper := d.keeper.filter fun x => x.id != k.id }).updThr k.key
    fun t => { t with got := some g, wait := none }

/-- R106, R107, R109, R326: what a keeper does with the oldest request that is not the Crown's: `renew`, `life` and `hinfo`
are answered from the hold table, LAPSED where the handle's reuse count is another or, but for `life`, the hold has lapsed;
requests that need a placement go on to the Crown. A lock's renewal is clamped while a request waits on its word, which for
a word of another package is a free value (log entry 75; a renewal draws one). -/
def Clauses.KeepersAnswer : Prop := ∀ (s : State) (die : Nat) (k : KeeperReq),
  (s.die die).keeper.find? (fun x => !x.crown) = some k → (s.thr k.key).live = true →
  (s.thr k.key).wait = some (.keeper k.id) →
  let handle := k.arg.toNat % 2 ^ 16
  let h := holdAt s k.ctx (handle % 4096)
  let same := h.reuse.toNat = handle / 4096
  let lapsed := Got.fault ⟨.lapsed, 0, handle, none, false⟩
  let new := ctxNow s k.ctx + max 1024 (min k.life.toNat (maxLife h.kind))
  let step := fun (t : State) => Happens (.holdRequestAtKeeper die) s t
  (k.kind = 5 → same →
    step (Clauses.answered s die k (.words [if h.live then BitVec.ofNat 64 (h.expiry - ctxNow s k.ctx) else 0]))) ∧
  (k.kind = 6 → same → h.live = true → step (Clauses.answered s die k (.words [holdInfo h]))) ∧
  let renewed := fun (e : Nat) =>
    { (Clauses.answered s die k (.words [])).setHold k.ctx (handle % 4096) { h with expiry := e } with free := s.free + 1 }
  let clamped := min new (max h.expiry (h.granted + 16000000))
  (k.kind = 4 → same → h.live = true → (∀ w va, h.kind ≠ .lock w va) → step (renewed new)) ∧
  (k.kind = 4 → same → h.live = true → ∀ w va home, h.kind = .lock w va → homeTile s (8 * w) = some home →
    (queuedOn s 0 w = false → step (renewed new)) ∧ (queuedOn s 0 w = true → step (renewed clamped))) ∧
  (k.kind = 4 → same → h.live = true → ∀ w va, h.kind = .lock w va → homeTile s (8 * w) = none →
    step (renewed (if (Config.freeWord s.free).getLsbD 0 then clamped else new))) ∧
  (4 ≤ k.kind → k.kind ≤ 6 → ¬same ∨ (k.kind ≠ 5 ∧ h.live = false) → step (Clauses.answered s die k lapsed)) ∧
  (k.kind = 0 ∨ k.kind = 2 ∨ k.kind = 3 → step (s.updDie die fun d =>
    { d with keeper := d.keeper.map fun x => if x.id = k.id then { x with crown := true } else x }))

/-- R323: a lock request takes a free index (which: log entry 102) and joins its word's queue; with no index free it is answered
with STATUS 1.
(Log entry 59.) -/
def Clauses.LocksJoinTheirWordsQueue : Prop := ∀ (s : State) (die : Nat) (k : KeeperReq),
  (s.die die).keeper.find? (fun x => !x.crown) = some k → (s.thr k.key).live = true →
  (s.thr k.key).wait = some (.keeper k.id) → k.kind = 1 →
  ((∀ i, 1 ≤ i → i ≤ 4095 → indexFree s k.ctx i = false) →
    Happens (.holdRequestAtKeeper die) s (Clauses.answered s die k (.words [BitVec.ofNat 64 (1 * 2 ^ 16)]))) ∧
  (∀ i, freeIndex s k.ctx = some i → 1 ≤ i ∧ i ≤ 4095 ∧ indexFree s k.ctx i = true ∧
    ∃ (t : State) (r : Req) (h : Hold), Happens (.holdRequestAtKeeper die) s t ∧ t.mem = s.mem ∧ t.reqs = s.reqs ++ [r] ∧
      r.kind = .lock k.ctx i ∧ r.owner = .thread k.key ∧ r.parts.map (·.pa) = [k.wordPa / 8 * 8] ∧
      t.hold k.ctx i = some h ∧ h.free = false ∧ h.live = false ∧ h.kind = .lock (k.wordPa / 8) k.arg.toNat ∧
      (t.thr k.key).wait = some .reservation ∧ (t.thr k.key).regs = (s.thr k.key).regs)

/-- R321 to R325, Table 15-8: the Crown's answers: a refusal with the status that the request's words decide, or the
free index (which: log entry 102) issued for the place the Crown chose, with the handle's next reuse count and a life of at
least 1,024 ns and at most the kind's.
(Log entry 59.) -/
def Clauses.TheCrownAnswers : Prop := ∀ (s : State) (req die : Nat) (d : Die) (k : KeeperReq),
  s.dies.find? (fun x => x.2.keeper.any fun q => q.id == req && q.crown) = some (die, d) →
  d.keeper.find? (fun q => q.id == req) = some k → (s.thr k.key).live = true → (s.thr k.key).wait = some (.keeper k.id) →
  (∀ st, forcedStatus s k = some st →
    Happens (.crownHoldPlacement req (.refuse st)) s (Clauses.answered s die k
      (.words (BitVec.ofNat 64 (st * 2 ^ 16) :: if k.kind = 0 then [0] else [])))) ∧
  (forcedStatus s k = none → k.kind = 2 → (freeIndex s k.ctx).isSome = true → slotsBefore s k = false →
    rtAway s k.desc = true ∨ (∀ f, f < 2048 → rtPref k.desc ≤ f → rtFree s k.desc f = false) →
    Happens (.crownHoldPlacement req (.refuse 5)) s (Clauses.answered s die k (.words [BitVec.ofNat 64 (5 * 2 ^ 16)]))) ∧
  (forcedStatus s k = none → k.kind = 3 → (freeIndex s k.ctx).isSome = true →
    Happens (.crownHoldPlacement req (.refuse 7)) s (Clauses.answered s die k (.words [BitVec.ofNat 64 (7 * 2 ^ 16)]))) ∧
  (∀ i, forcedStatus s k = none → freeIndex s k.ctx = some i →
    let old := holdAt s k.ctx i
    let reuse := if old.issued then old.reuse + 1 else old.reuse
    let handle := reuse.toNat * 4096 + i
    let granted := fun (p : Placement) (kind : HoldKind) (ws : List Word) =>
      ∃ (t : State) (h : Hold), Happens (.crownHoldPlacement req p) s t ∧ t.hold k.ctx i = some h ∧ h.live = true ∧
        h.free = false ∧ h.reuse = reuse ∧ h.kind = kind ∧
        h.expiry = ctxNow s k.ctx + max 1024 (min k.life.toNat (maxLife kind)) ∧ (t.thr k.key).got = some (.words ws) ∧
        (t.thr k.key).wait = none ∧ (t.thr k.key).regs = (s.thr k.key).regs
    (∀ va frames, k.kind = 0 → rangeOk s k.ctx (tileOf k.key) k.arg va frames = true →
      let g := newGen s k.ctx va (rngPages k.arg * 2 ^ rngLog k.arg)
      granted (.range va frames) (.range va (rngPages k.arg) (rngLog k.arg) g frames)
        [BitVec.ofNat 64 handle, BitVec.ofNat 64 (g * 2 ^ 48 + va)]) ∧
    (∀ first, k.kind = 2 → rtPref k.desc ≤ first → first < 2048 → rtFree s k.desc first = true → slotsBefore s k = false →
      granted (.route first) (.route (rtPort k.desc) first (rtSlots k.desc) k.desc)
        [BitVec.ofNat 64 (first * 2 ^ 24 + handle)]) ∧
    (k.kind = 3 → granted .group (.group k.desc false) [BitVec.ofNat 64 handle]))

/-- R108, R112, R152: a hold whose expiry has come is marked lapsed. A range's pages leave every TLB and its frames wait
for their homes; a lock's index is free at once where its word's home is here, and the home on another package is told by a
packet, whose answer frees it (log entry 75).
A context hold's mark leaves the context for the Crown to end (ContextsEnd).
(Log entry 69.) -/
def Clauses.ExpiredHoldsLapse : Prop := ∀ (s : State) (ctx i : Nat) (h : Hold),
  s.hold ctx i = some h → h.live = true → (s.ctx ctx).frozenAt = none → h.expiry ≤ s.ptb →
  (∀ va pages log gen frames, h.kind = .range va pages log gen frames →
    ∃ t : State, Happens (.holdLapseMark ctx i) s t ∧
      t.hold ctx i = some { h with live := false, lapsing := frames } ∧
      ∀ tile, ∀ e ∈ (t.core tile).tlb, e.ctx = ctx →
        va + pages * 2 ^ log ≤ e.vpn * 4096 ∨ e.vpn * 4096 + 2 ^ e.log ≤ va) ∧
  (∀ w va home, h.kind = .lock w va → homeTile s (8 * w) = some home →
    (∀ v ∈ (s.bank home).resv, v.lock ≠ some (ctx, i)) →
    Happens (.holdLapseMark ctx i) s (s.setHold ctx i { h with live := false, free := true })) ∧
  (∀ w va port, h.kind = .lock w va → homeTile s (8 * w) = none → portFor s (pkgOf (8 * w)) = some port →
    ∃ (t : State) (o : OutPacket), Happens (.holdLapseMark ctx i) s t ∧
      t.hold ctx i = some { h with live := false, lapsing := [8 * w] } ∧ (t.port port).fifo = (s.port port).fifo ++ [o] ∧
      o.pkt.type = 0x05 ∧ o.pkt.dstPkg = pkgOf (8 * w) ∧ o.pkt.addr = 8 * w ∧ t.mem = s.mem) ∧
  (∀ port first n d, h.kind = .route port first n d →
    ∃ t : State, Happens (.holdLapseMark ctx i) s t ∧ t.mem = s.mem ∧ t.hold ctx i = some { h with live := false }) ∧
  (h.kind = .context → Happens (.holdLapseMark ctx i) s (s.setHold ctx i { h with live := false }))

/-- R77, R111, R154: the home of a lapsed range's page, with nothing of it still to be performed, zeroes it, and its shadows
are gone; when the last home has, the hold's part is done and the frame is out of use. (Its index is free once the zeroing's grants
are acknowledged, `indexFree`; frames and indexes reissued are those.) -/
def Clauses.LapsedPagesAreZeroed : Prop := ∀ (s : State) (ctx i pa : Nat) (h : Hold),
  s.hold ctx i = some h → i ≤ 4095 → (∃ va n log gen frames, h.kind = .range va n log gen frames) → h.lapsing.contains pa = true →
  (∀ r ∈ s.reqs, ∀ p ∈ r.parts, inFrame pa (frameLog h) p = false) →
  (∀ x ∈ s.threads, ∀ c ∈ x.2.comb, c.granule * 64 < pa ∨ pa + 2 ^ frameLog h ≤ c.granule * 64) →
  ∃ t : State, Happens (.lapseAtHome ctx i pa) s t ∧ t.reqs = s.reqs ∧ t.threads = s.threads ∧
    (∀ a, readByte t.mem a = if pa ≤ a ∧ a < pa + 2 ^ frameLog h then 0 else readByte s.mem a) ∧
    (∀ l ∈ t.launches, ∀ x ∈ l.2.shadows, x.1 * 4096 < pa ∨ pa + 2 ^ frameLog h ≤ x.1 * 4096) ∧
    t.hold ctx i = some { h with lapsing := h.lapsing.erase pa, free := (h.lapsing.erase pa).isEmpty } ∧
    (∀ f ∈ t.usedFrames, f.1 ≠ pa) ∧ (∀ f ∈ s.usedFrames, f.1 ≠ pa → f ∈ t.usedFrames)

/-- R150: a free walker of 32 takes the oldest waiting page of the next context. -/
def Clauses.WalkersTakeThePagesThatWait : Prop := ∀ (s : State) (die ctx : Nat),
  let d := s.die die
  (d.walks.filter (·.taken)).length < 32 → nextWalkCtx d = some ctx →
  Happens (.tlbMissWalk die ctx) s (s.setDie die { d with
    lastWalkCtx := ctx
    walks := lupd (fun w => w.ctx == ctx && !w.taken) (fun w => { w with taken := true }) d.walks })

/-- R149, R150: a walk's result reaches the thread that waits for it: the entry enters its tile's TLB and the thread meets
its instruction again, or the walk's fault waits for the access that missed. -/
def Clauses.WalkResultsArrive : Prop := ∀ (s : State) (die id key : Nat) (w : Walk),
  (s.die die).walks.find? (fun x => x.id == id && x.taken) = some w → w.stale = false → w.waiters = [key] → w.engs = [] →
  (s.thr key).missPage = some w.vpn → (s.thr key).wait = some .translation →
  let r := walk s w.ctx (w.vpn * 4096)
  ∃ t : State, Happens (.walkComplete die id) s t ∧ t.mem = s.mem ∧
    t.thr key = { s.thr key with
      missPage := none
      wait := none
      walkFault := match r with | .ok _ => none | .error c => some (w.vpn, c) } ∧
    (∀ e, r = .ok e → e ∈ (t.core (tileOf key)).tlb) ∧ (∀ x ∈ (t.die die).walks, x.id ≠ id)

/-- R77, R105 to R115, R149 to R152, R321 to R326: holds and translation. -/
def Obligations.HoldsAndWalksAreServed : Prop :=
  Clauses.KeepersAnswer ∧ Clauses.LocksJoinTheirWordsQueue ∧ Clauses.TheCrownAnswers ∧ Clauses.ExpiredHoldsLapse ∧
  Clauses.LapsedPagesAreZeroed ∧ Clauses.WalkersTakeThePagesThatWait ∧ Clauses.WalkResultsArrive

/-! ## Channels, messages, handlers, barriers (spec/05_progress_threads.md R98 to R103, spec/06_progress_work.md R136 to R141) -/

/-- R98: a message under way reaches its reader's buffer, the oldest first; a credit under way reaches the writer. -/
def Clauses.ChannelsMoveOn : Prop := ∀ (s : State) (l i : Nat) (c : Chan),
  (s.launch l).chans[i]? = some c →
  let becomes := fun (t : State) (d : Chan) =>
    t = { s with launches := t.launches } ∧ (∀ k, k ≠ l → t.launch k = s.launch k) ∧
    (t.launch l).chans[i]? = some d ∧ ∀ j, j ≠ i → (t.launch l).chans[j]? = (s.launch l).chans[j]?
  (∀ m r, c.flight = m :: r →
    ∃ t, Happens (.channelMessageArrival l i) s t ∧ becomes t { c with buf := c.buf ++ [m], flight := r }) ∧
  (∀ n, c.returns = n + 1 →
    ∃ t, Happens (.channelCreditReturn l i) s t ∧ becomes t { c with returns := n, credits := c.credits + 1 })

/-- R88, R100, R157, R158: a message is placed in the inbox of a bound core whose context's key its capability matches, or
any where its capability is 0; otherwise it is diverted to the supervisor queue and its sender told. A message waits
while an earlier one of its thread to the same core does, and while the inbox has no place that is not bespoken.
(Log entry 49.) -/
def Clauses.MessagesArePlacedOrDiverted : Prop := ∀ (s : State) (idx lid : Nat) (m : Msg),
  s.net[idx]? = some m → m.pkg = s.pkg → m.txid = none → m.peer = none →
  (s.core m.dst).launch = some lid →
  let cap := (bodyHeader m.body).toNat / 2 ^ 48
  let key := (s.ctx (s.launch lid).ctx).pkey.toNat
  let c := s.core m.dst
  let first := ∀ x ∈ s.net.take idx, x.key = m.key → x.dst = m.dst → x.pkg = m.pkg → x.peer ≠ none
  (first → cap = 0 ∨ cap = key → c.inbox.length + c.inboxDue < 64 →
    ∃ (t : State) (d : Core), Happens (.messagePlacement m.dst idx) s t ∧ t = { s with net := t.net, cores := t.cores } ∧
      t.net = s.net.eraseIdx idx ∧ t.core m.dst = d ∧ d = { c with inbox := c.inbox ++ [m.body], recv := d.recv, black := d.black } ∧
      d.recv = (if m.lid ≠ 0 ∧ m.lid = lid then c.recv + 1 else c.recv) ∧ ∀ k, k ≠ m.dst → t.core k = s.core k) ∧
  (first → cap ≠ 0 → cap ≠ key → s.sup.length < 4096 →
    ∃ (t : State) (e : SupEntry), Happens (.messagePlacement m.dst idx) s t ∧ t.cores = s.cores ∧ t.threads = s.threads ∧
      t.net = s.net.eraseIdx idx ∧ t.sup = s.sup ++ [e] ∧ e.reason = 1 ∧ e.cap = cap ∧ e.rkey = key ∧
      e.body = vecBytes m.body ∧ e.time = s.ptb ∧ e.dst = s.pkg * 4096 + m.dst ∧
      t.mem = writeBytes s.mem (supAddr s (s.supHead + s.sup.length)) e.bytes ∧
      t.reports = s.reports ++ [(m.key, m.lid, m.born, bodyHeader m.body)] ∧
      (t.ctx m.ctx).contained = (s.ctx m.ctx).contained + 1)

/-- R101, R102, Tables 5-3 and 5-4: slot 11 wakes to spill at 48 messages, and to replay at 16 with some spilled: it
starts at OVFL with `s1` the launch's PARAM and `s4` the inbox status word, every other register 0. (A count of spilled
messages beyond the word's 16 bits reads as a free value, log entry 76.) -/
def Clauses.Slot11Wakes : Prop := ∀ (s : State) (tile : Nat),
  let c := s.core tile
  let l := s.launch (lidOf s tile)
  let key := keyOf tile 11
  let starts := fun (t : State) (bit : Nat) =>
    t = { s with threads := t.threads } ∧ (∀ k, k ≠ key → t.thr k = s.thr k) ∧ (t.thr key).live = true ∧
    (t.thr key).pc = codeAddr (pOvfl l.payload) ∧ (t.thr key).regs.rs 1 = pParam l.payload ∧
    (c.spill < 2 ^ 16 → (t.thr key).regs.rs 4 = BitVec.ofNat 64 (c.spill * 256 + bit * 128 + c.inbox.length)) ∧
    (∀ r, 2 ≤ r → r < 32 → r ≠ 4 → (t.thr key).regs.rs r = 0) ∧ (∀ r, r < 24 → (t.thr key).regs.rv r = 0) ∧
    (t.thr key).trapvec = 0 ∧ (t.thr key).fpflags = 0
  mayWake s tile = true → (s.thr key).live = false → (s.thr key).parked = false → pOvfl l.payload ≠ 0 →
  (48 ≤ c.inbox.length → ∃ t, Happens (.slot11WakeSpill tile) s t ∧ starts t 0) ∧
  (c.inbox.length ≤ 16 → 0 < c.spill → ∃ t, Happens (.slot11WakeReplay tile) s t ∧ starts t 1)

/-- R101, R103, R199: slot 12 wakes with the head message in `v0` and its handler's index in `s4`, at the address of the
handler table's entry; an index beyond the table ends it by ILLEGAL.
(Log entries 13, 50.) -/
def Clauses.Slot12Wakes : Prop := ∀ (s : State) (tile : Nat) (m : Vec) (rest : List Vec),
  let c := s.core tile
  let lid := lidOf s tile
  let l := s.launch lid
  let key := keyOf tile 12
  let h := (bodyHeader m).toNat / 2 ^ 40 % 256
  c.inbox = m :: rest → mayWake s tile = true → asleep s tile 11 = true → asleep s tile 12 = true → wakes11 s tile = false →
  (∀ pa, h < handlerCount l.payload → walkCheck s l.ctx (pHtab l.payload) (ptrVa (pHtab l.payload) + 8 * h) needR = .ok pa →
    ∃ t, Happens (.slot12Wake tile) s t ∧ (t.core tile).inbox = rest ∧ (t.thr key).live = true ∧
      (t.thr key).pc = codeAddr (BitVec.ofNat 64 (leNat ((List.range 8).map fun i => readAt s lid (pa + i)))) ∧
      (t.thr key).regs.rv 0 = m ∧ (t.thr key).regs.rs 1 = pParam l.payload ∧
      (t.thr key).regs.rs 4 = BitVec.ofNat 64 h ∧ (∀ r, 2 ≤ r → r < 32 → r ≠ 4 → (t.thr key).regs.rs r = 0) ∧
      (∀ k, k ≠ key → t.thr k = s.thr k) ∧ t.mem = s.mem) ∧
  (handlerCount l.payload ≤ h → ∃ t, Happens (.slot12Wake tile) s t ∧ (t.core tile).inbox = rest ∧
    (t.thr key).live = false ∧ 8 ≤ (t.core tile).worst ∧ t.mem = s.mem)

/-- The flags and cycle of a thread's arrival at a barrier; one whose core stands halted has not arrived (R222). -/
def Clauses.arrived (s : State) (sc : BScope) (k : Nat) (f : BitVec 8) (c : Nat) : Prop :=
  slotHalted s k = false ∧ (s.thr k).wait = some (.barrier sc f c)

/-- R54, R136, R137: once every current participant has arrived, and the release delay of the scope has passed since the
last arrival, each goes on at the next word with the flags of all joined to its own; above `.core` it is ready after its
stagger. -/
def Clauses.BarriersRelease : Prop := ∀ (s : State) (sc : BScope) (tile : Nat) (f : Nat → BitVec 8) (c : Nat → Nat),
  let ps := participants s sc tile
  (s.core tile).launch.isSome = true → ps ≠ [] → ps.Nodup → (∀ k ∈ ps, Clauses.arrived s sc k (f k) (c k)) →
  (∀ k ∈ ps, c k + (match sc with | .core => 1 | .quad => 4 | .die => 48 | .pkg => 96) ≤ s.cycle) →
  ∃ t, Happens (.barrierRelease sc tile) s t ∧ t = { s with threads := t.threads, cores := t.cores } ∧
    (∀ k, t.core k = { s.core k with step := (t.core k).step }) ∧
    (∀ k ∈ ps,
      let n := (s.core (tileOf k)).stagger.toNat * (pkgCol (tileOf k) + pkgRow (tileOf k))
      (t.thr k).pc = (s.thr k).pc + 4 ∧ (t.thr k).regs = (s.thr k).regs ∧
      (∀ b, (t.thr k).fpflags.getLsbD b = ((s.thr k).fpflags.getLsbD b || ps.any fun j => (f j).getLsbD b)) ∧
      (t.thr k).wait = if sc ≠ .core ∧ n ≠ 0 then some (.stagger (s.cycle + n)) else none) ∧
    ∀ k, k ∉ ps → t.thr k = s.thr k

/-- R139, R222: 2,048 slots before its tick a member's arrival at a pod barrier episode is decided: it is late where cores of it
are missing or stand halted. At its tick the episode ends: with every core and every member in time, and no arrival of this
member still on its way, each thread that waits goes on with the merged flags; otherwise each takes BARLATE, no imprecise report
being due, or keeps it while its core is halted or being saved (R205).
(Log entries 11, 98.) -/
def Clauses.PodBarriersEnd : Prop := ∀ (s : State) (key tick : Nat) (e : Episode) (d : List Word),
  s.episode key tick = some e → groupByKey s key = some d → (waitersAt s key tick).Nodup →
  let there := e.tiles.length = myCores s d
  let halted := ∃ x ∈ e.tiles, slotHalted s (keyOf x.1 0) = true
  let flags := (e.tiles ++ e.remote).foldl (fun f x => f ||| x.2) 0
  let away := arrivalAway s e (fun _ => true) fun f => decide (tick ≤ f.slot + (s.port f.port).flight)
  let all := there ∧ e.late = false ∧ away = false ∧ ∀ m ∈ grpList d, m = s.pkg ∨ ∃ f, (m, f) ∈ e.remote
  let fault : FaultRec := ⟨.barlate, 0, tick, none, false⟩
  (e.closed = false → tick < s.ptb + 2048 → ∃ (t : State) (u : Episode), Happens (.podBarrierTick key tick) s t ∧
    t.mem = s.mem ∧ t.threads = s.threads ∧ t.episode key tick = some u ∧ u.closed = true ∧ u.tiles = e.tiles ∧
    u.remote = e.remote ∧ (u.late = true ↔ e.late = true ∨ ¬there ∨ halted)) ∧
  (e.closed = true → e.late = true ∨ arrivalStalled s e = false → tick ≤ s.ptb →
    (all → ∃ t, Happens (.podBarrierTick key tick) s t ∧ t.episode key tick = none ∧ t.mem = s.mem ∧
      ∀ k ∈ waitersAt s key tick, (t.thr k).pc = (s.thr k).pc + 4 ∧ (t.thr k).fpflags = (s.thr k).fpflags ||| flags ∧
        (t.thr k).regs = (s.thr k).regs) ∧
    (¬all → ∃ t, Happens (.podBarrierTick key tick) s t ∧ t.episode key tick = none ∧
      ∀ k, waitersAt s key tick = [k] → impreciseDue s k = false →
        let s' : State := { s with episodes := s.episodes.filter fun x => !(x.key == key && x.tick == tick) }
        (stopped s k = false → t.thr k = (takeFault s' k fault).thr k) ∧
        (stopped s k = true → t.thr k = { s.thr k with wait := none, got := some (.fault fault) })))

/-- R141: the probe token at a passive core takes the core's count, its colour, and turns it white; a clean pass over the
last core ends the phase: every waiting `probe` goes on.
(Log entry 64.) -/
def Clauses.ProbesPassTheToken : Prop := ∀ (s : State) (lid tile : Nat),
  let l := s.launch lid
  let c := s.core tile
  let sum := l.probeSum + (c.sent : Int) - (c.recv : Int)
  l.tiles[l.probeAt]? = some tile → l.state = .running → c.launch = some lid → passive s tile = true → l.tiles.Nodup →
  (l.probeAt + 1 < l.tiles.length →
    Happens (.probeToken lid) s ((s.setCore tile { c with black := false }).setLaunch lid
      { l with probeAt := l.probeAt + 1, probeSum := sum, probeBlack := l.probeBlack || c.black })) ∧
  (l.probeAt + 1 = l.tiles.length → l.probeBlack = false → c.black = false → sum = 0 →
    ∃ t, Happens (.probeToken lid) s t ∧ t.mem = s.mem ∧ ∀ x ∈ l.tiles, (s.thr (keyOf x 0)).wait = some .probe →
      (t.thr (keyOf x 0)).pc = (s.thr (keyOf x 0)).pc + 4 ∧ (t.thr (keyOf x 0)).wait = none ∧
      (t.thr (keyOf x 0)).regs = (s.thr (keyOf x 0)).regs ∧ (t.core x).sent = 0 ∧ (t.core x).recv = 0) ∧
  (l.probeAt + 1 = l.tiles.length → l.probeBlack = true ∨ c.black = true ∨ sum ≠ 0 →
    Happens (.probeToken lid) s ((s.setCore tile { c with black := false }).setLaunch lid
      { l with probeAt := 0, probeSum := 0, probeBlack := false }))

/-- R54, R88, R98 to R103, R136 to R141, R157, R158: channels, messages, handlers and barriers. -/
def Obligations.MessagesAndBarriersMoveOn : Prop :=
  Clauses.ChannelsMoveOn ∧ Clauses.MessagesArePlacedOrDiverted ∧ Clauses.Slot11Wakes ∧ Clauses.Slot12Wakes ∧
  Clauses.BarriersRelease ∧ Clauses.PodBarriersEnd ∧ Clauses.ProbesPassTheToken

/-! ## Engines (spec/16_isa_engines_system.md R338 to R349, spec/09 R202) -/

/-- R338, R339: the head of an engine's queue starts where the engine is free. A command that passes the start checks
runs, its ring entry in STATE 1; one that does not is refused with its code, DETAIL and ADDR in its entry, STATE 3,
DONE 0, without an access.
(Log entry 43.) -/
def Clauses.CommandsStartOrAreRefused : Prop := ∀ (s : State) (tile : Nat) (k : CmdKind) (q : Cmd) (rest : List Cmd),
  let e := kindEng k
  (s.core tile).eng e = ⟨q :: rest, none⟩ → (s.core tile).launch.isSome = true → (s.core tile).stopping = false →
  kindOf q.word = some k →
  (startCheck s tile e q.word = .ok k → ∃ (t : State) (r : Run), Happens (cmdStep k tile .start) s t ∧
    Running t tile k r ∧ r.cmd = q ∧ r.items = [] ∧ r.next = r.base ∧ r.fault = none ∧ r.flags = 0 ∧ r.frame = s.frame ∧
    ((t.core tile).eng e).queue = rest ∧ (ringAt (t.core tile) q.seq.toNat).state = 1 ∧
    t.mem = s.mem ∧ t.reqs = s.reqs ∧ t.threads = s.threads) ∧
  (∀ (c : Code) (detail addr : Nat), startCheck s tile e q.word = .error (c, detail, addr) →
    (∀ x ∈ rest, x.seq.toNat % 64 ≠ q.seq.toNat % 64) → ∃ t : State, Happens (cmdStep k tile .start) s t ∧
      (t.core tile).eng e = ⟨if e = .mx then [] else rest, none⟩ ∧ t = { s with cores := t.cores } ∧
      let x := ringAt (t.core tile) q.seq.toNat
      x.state = 3 ∧ x.code = c.num ∧ x.detail = detail ∧ x.addr = BitVec.ofNat 64 addr ∧ x.doneN = 0 ∧
        x.parked = false ∧ (t.core tile).engFail = true)

/-- R342: MX.ZERO clears its accumulator tile and no other.
(Log entry 44.) -/
def Clauses.ZeroClearsItsTile : Prop := ∀ (s : State) (tile : Nat) (r : Run),
  Running s tile .zero r → r.next < r.nitems → r.fault = none → (s.core tile).stopping = false →
  ∃ t : State, Happens (.mxZero tile .startItem) s t ∧ ItemMoves s t tile .zero r r.next .performed [] 0 ∧
    ∀ i, (t.core tile).accAt i = if i / 1024 = cAcc r.cmd.word then 0 else (s.core tile).accAt i

/-- R345, R346, R348: a row of a fill, a save or a drain that reads no parameters is formed from the accumulators or the
command's constant, ready to be written. -/
def Clauses.RowsAreFormed : Prop := ∀ (s : State) (tile : Nat) (k : CmdKind) (r : Run),
  let w := r.cmd.word
  let c := s.core tile
  let i := r.next
  let start : List Byte → BitVec 8 → Prop := fun d f =>
    ∃ t : State, Happens (cmdStep k tile .startItem) s t ∧ ItemMoves s t tile k r i .ready d f
  Running s tile k r → i < r.nitems → r.fault = none → c.stopping = false → c.accBad = [] →
  (k = .fill → start (fillRow w) 0) ∧
  (k = .save → start (packBytes 32 64 fun n => c.accAt (accIdx ((maskTiles w).getD (i / 16) 0) (i % 16) n)) 0) ∧
  (k = .drain → cReq w = false ∨ cAux6 w = 0 ∧ cAux7 w = 0 →
    start (drainRow c w i []).1 (drainRow c w i []).2)

/-- R340, R153: an item that reads puts its row's bytes in flight where every page translates and every check passes; it
fails, and the command keeps the failure, where a check does not. -/
def Clauses.RowsAreRead : Prop := ∀ (s : State) (tile : Nat) (k : CmdKind) (r : Run),
  let e := kindEng k
  let i := r.next
  let sp := readSpans k r.cmd.word r.group i
  Running s tile k r → k ∈ [.ldacc, .loadw, .mma, .drain, .restore, .copy, .route] → i < r.nitems → r.fault = none →
  (s.core tile).stopping = false → readyData (s.core tile) k r.cmd.word i = none → (k = .copy → copyMayRead r i = true) →
  (∀ ms, spansMoves s tile r.walkFault needR 0 sp = .ok ms → ∃ t : State, Happens (cmdStep k tile .startItem) s t ∧
    ItemMoves s t tile k r i (.reading s.nextId) [] 0 ∧
    t.reqs = s.reqs ++ [engReq s tile e i .load (blockParts ms) (List.replicate (spansLen sp) 0)
      (match sp with | [] => 0 | x :: _ => x.va.toNat) none]) ∧
  (∀ f, spansMoves s tile r.walkFault needR 0 sp = .error (.fault f) → (∀ x ∈ r.items, x.idx ≠ i ∧ x.stage ≠ .failed ∧ x.bad = false) →
    ∃ t : State, Happens (cmdStep k tile .startItem) s t ∧ ItemMoves s t tile k r i .failed [] 0 ∧
      t.reqs = s.reqs ∧ (runOf t tile e).bind (·.fault) = some f)

/-- R342, R346: the bytes read for MX.LDACC and MX.RESTORE become a row of an accumulator tile.
(Log entry 44.) -/
def Clauses.RowsAreLoaded : Prop := ∀ (s : State) (tile id i : Nat) (k : CmdKind) (r : Run) (q : Req) (data : List Byte) (b : Bool),
  let w := r.cmd.word
  let acc := if k = .ldacc then cAcc w else (maskTiles w).getD (i / 16) 0
  let row := if k = .ldacc then i else i % 16
  Running s tile k r → k = .ldacc ∨ k = .restore → r.item i = some ⟨i, .reading id, data, b⟩ → s.req id = some q →
  q.settled = true → q.fault = none →
  ∃ t : State, Happens (cmdStep k tile (.item i)) s t ∧ ItemMoves s t tile k r i .performed [] 0 ∧
    (∀ n, n < 64 → (t.core tile).accAt (accIdx acc row n) = elemAt q.buf 0 32 n) ∧
    ∀ j, j / 64 ≠ acc * 16 + row → (t.core tile).accAt j = (s.core tile).accAt j

/-- R343: the bytes read for MX.LOADW fill a row of the plane, or a column's elements and scales of a block format. -/
def Clauses.PlanesAreLoaded : Prop := ∀ (s : State) (tile id i : Nat) (r : Run) (q : Req) (data : List Byte) (b : Bool),
  let w := r.cmd.word
  let f := ptrFmt (cSrc w)
  let nb := cK w / blenOf (cSrc w)
  Running s tile .loadw r → r.item i = some ⟨i, .reading id, data, b⟩ → s.req id = some q →
  q.settled = true → q.fault = none →
  ∃ (t : State) (fl : BitVec 8), Happens (.mxLoadw tile (.item i)) s t ∧ ItemMoves s t tile .loadw r i .performed [] fl ∧
    let p := (s.core tile).plane w
    let u := (t.core tile).plane w
    (isBlk f = false →
      (∀ n, n < 64 → tget u.cells (i * 64 + n) 0 = elemAt q.buf 0 (codeBits f) n) ∧
      (∀ j, j / 64 ≠ i → tget u.cells j 0 = tget p.cells j 0) ∧ u.scales = p.scales ∧
      fl = orFlags 64 fun n => ternFlag f (elemAt q.buf 0 (codeBits f) n)) ∧
    (isBlk f = true →
      (∀ n, n < cK w → tget u.cells (n * 64 + i) 0 = elemAt q.buf (2 * nb) (codeBits f) n) ∧
      (∀ j, j < nb → tget u.scales (i * 4 + j) 0 = elemAt q.buf 0 16 j) ∧ fl = 0)

/-- R344, R44 to R48: a group of MX.MMA, once every group before it is added, adds its products to every word of rows 0 to
M − 1 of the tile, and MXPROG counts it.
(Log entry 40.) -/
def Clauses.GroupsAreAdded : Prop := ∀ (s : State) (tile id i : Nat) (r : Run) (q : Req) (data : List Byte) (b : Bool),
  let w := r.cmd.word
  let c := s.core tile
  let cell := fun (m n : Nat) => mmaCell w (c.plane w) r.group i q.buf m n (c.accAt (accIdx (cAcc w) m n))
  Running s tile .mma r → r.item i = some ⟨i, .reading id, data, b⟩ → s.req id = some q →
  q.settled = true → q.fault = none → r.failedBefore i = false → r.prefixDone = i → accPoison c (cAcc w) (cM w) = false →
  ∃ t : State, Happens (.mxMma tile (.item i)) s t ∧
    ItemMoves s t tile .mma r i .performed [] (orFlags (cM w * 64) fun j => (cell (j / 64) (j % 64)).2) ∧
    (∀ m n, m < cM w → n < 64 → (t.core tile).accAt (accIdx (cAcc w) m n) = (cell m n).1) ∧
    (∀ j, j / 1024 ≠ cAcc w ∨ cM w ≤ j % 1024 / 64 → (t.core tile).accAt j = c.accAt j) ∧
    (t.core tile).mxprog.groups = BitVec.ofNat 32 (i + 1)

/-- R345, R347, R349: the bytes read for a drain's parameters, a copied row or a route's packet are made ready to be
written. -/
def Clauses.ReadRowsAreMadeReady : Prop := ∀ (s : State) (tile id i : Nat) (k : CmdKind) (r : Run) (q : Req) (data : List Byte) (b : Bool),
  let w := r.cmd.word
  let c := s.core tile
  let out := fun (d : List Byte) (f : BitVec 8) =>
    ∃ t : State, Happens (cmdStep k tile (.item i)) s t ∧ ItemMoves s t tile k r i .ready d f
  Running s tile k r → r.item i = some ⟨i, .reading id, data, b⟩ → s.req id = some q → q.settled = true → q.fault = none →
  (k = .drain → c.accBad = [] → out (drainRow c w i q.buf).1 (drainRow c w i q.buf).2) ∧
  (k = .copy → out (copyRow w q.buf).1 (copyRow w q.buf).2) ∧ (k = .route → out q.buf 0)

/-- R340, R345 to R348, R352: a row that is ready is put in flight as a store of its bytes; with STEN each granule it
fills is stamped. -/
def Clauses.ReadyRowsAreStored : Prop := ∀ (s : State) (tile i : Nat) (k : CmdKind) (r : Run) (d : List Byte) (b : Bool)
    (ms : List (Nat × Nat × Nat)),
  let e := kindEng k
  let w := r.cmd.word
  let sp := writeSpan k w i
  Running s tile k r → k ∈ [.drain, .save, .copy, .fill, .reduce, .bcast] → r.item i = some ⟨i, .ready, d, b⟩ →
  (k = .copy → copyMayWrite r i = true) → spansMoves s tile r.walkFault needW 0 sp = .ok ms →
  ∃ t : State, Happens (cmdStep k tile (.item i)) s t ∧ ItemMoves s t tile k r i (.writing s.nextId) [] 0 ∧
    t.reqs = s.reqs ++ [engReq s tile e i .store (blockParts ms) d (match sp with | [] => 0 | x :: _ => x.va.toNat)
      (if cSten w then some (cStseq w) else none)]

/-- R202: an item whose store has been performed is performed; one whose access has failed has failed, and the command
keeps the failure of its failed item of lowest index. A row of a copy whose read failed stays failed, whether or not a part of
it had been written (log entry 103). -/
def Clauses.StoredRowsEnd : Prop := ∀ (s : State) (tile id i : Nat) (k : CmdKind) (r : Run) (q : Req) (data : List Byte) (b : Bool),
  Running s tile k r → s.req id = some q → q.settled = true →
  let fails := fun (f : FaultRec) => ∃ t : State, Happens (cmdStep k tile (.item i)) s t ∧
    ItemMoves s t tile k r i .failed [] 0 ∧ (runOf t tile (kindEng k)).bind (·.fault) = some f
  (r.item i = some ⟨i, .writing id, data, b⟩ →
    (b = true → ∃ t : State, Happens (cmdStep k tile (.item i)) s t ∧ ItemMoves s t tile k r i .failed [] 0 ∧
      (runOf t tile (kindEng k)).map (·.fault) = some r.fault) ∧
    (b = false → q.fault = none →
      ∃ t : State, Happens (cmdStep k tile (.item i)) s t ∧ ItemMoves s t tile k r i .performed [] 0) ∧
    (∀ f, b = false → q.fault = some f → (∀ x ∈ r.items, x.idx < i → x.stage ≠ .failed ∧ x.bad = false) → fails f)) ∧
  (∀ f, k ≠ .copy → r.item i = some ⟨i, .reading id, data, b⟩ → q.fault = some f →
    (∀ x ∈ r.items, x.idx < i → x.stage ≠ .failed ∧ x.bad = false) → fails f)

/-- R349, R186: a packet of CP.ROUTE leaves by its route, once every packet before it has left. -/
def Clauses.RoutePacketsLeave : Prop := ∀ (s : State) (tile i : Nat) (r : Run) (d : List Byte) (b : Bool) (desc : List Word)
    (ms : List (Nat × Nat × Nat)),
  let w := r.cmd.word
  Running s tile .route r → r.item i = some ⟨i, .ready, d, b⟩ →
  routeOf s (ctxOf s tile) (cHandle w) = some (true, desc) →
  (∀ x ∈ r.items, x.idx < i → (match x.stage with | .reading _ | .ready => False | _ => True)) →
  spansMoves s tile r.walkFault needW 0 (writeSpan .route w i) = .ok ms →
  ∃ t : State, Happens (.cpRoute tile (.item i)) s t ∧ ItemMoves s t tile .route r i (.sent s.txid (rtPort desc)) [] 0 ∧
    ∃ o ∈ (t.port (rtPort desc)).fifo, o.pkt.type = 0x09 ∧ o.pkt.payload = d ∧ o.pkt.txid = s.txid ∧
      o.pkt.cap = (s.ctx (ctxOf s tile)).pkey.toNat ∧ (i = 0 → (cAux6 w).toNat ≤ o.after)

/-- R350, R351: a round of RL.REDUCE presents the elements that it has read, a round of RL.BCAST presents its core, each
for the frame that its number names, while that frame has not begun. -/
def Clauses.RelayCommandsPresent : Prop := ∀ (s : State) (tile : Nat) (r : Run) (desc : List Word),
  let w := r.cmd.word
  let key := groupKey s (ctxOf s tile) (cHandle w)
  liveGroup s (ctxOf s tile) (cHandle w) = some desc →
  (∀ (id i : Nat) (q : Req) (data : List Byte) (b : Bool), Running s tile .reduce r → r.item i = some ⟨i, .reading id, data, b⟩ →
    s.req id = some q → q.settled = true → q.fault = none → s.frame < r.frame + 1 + i →
    ∃ t : State, Happens (.rlReduce tile (.item i)) s t ∧
      ItemMoves s t tile .reduce r i (.waitingRound (r.frame + 1 + i)) [] 0 ∧
      ∃ p, t.presents = s.presents ++ [p] ∧ p.key = key ∧ p.frame = r.frame + 1 + i ∧ p.tile = tile ∧ p.kind = 1 ∧
        p.fmt = ptrFmt (cSrc w) ∧
        p.elems = (List.range (8 * q.buf.length / codeBits p.fmt)).map fun j => elemAt q.buf 0 (codeBits p.fmt) j) ∧
  (Running s tile .bcast r → (s.ctx (ctxOf s tile)).ending = false → r.next < r.nitems → r.fault = none →
    r.next < relayRounds .bcast w → s.frame < r.frame + 1 + r.next →
    ∃ t : State, Happens (.rlBcast tile .startItem) s t ∧
      ItemMoves s t tile .bcast r r.next (.waitingRound (r.frame + 1 + r.next)) [] 0 ∧
      ∃ p, t.presents = s.presents ++ [p] ∧ p.key = key ∧ p.frame = r.frame + 1 + r.next ∧ p.tile = tile ∧ p.kind = 2 ∧
        p.root = cRoot w)

/-- R80, R202, R33, R203: a command whose items have all ended completes: its entry in STATE 2 or 3 with DONE the items
performed without a gap, its flags to the thread that pushed it, and the engine free. -/
def Clauses.CommandsComplete : Prop := ∀ (s : State) (tile : Nat) (e : Eng) (r : Run),
  runOf s tile e = some r → e ≠ .rl → runEnded r = true → (e ≠ .mx ∨ (s.core tile).mx.queue = [] ∨ r.fault = none) →
  ∃ t : State, Happens (.engineCommandComplete tile e) s t ∧ (t.core tile).eng e = ⟨((s.core tile).eng e).queue, none⟩ ∧
    (let x := ringAt (t.core tile) r.cmd.seq.toNat
    x.state = (if r.fault = none then 2 else 3) ∧ x.doneN = r.prefixDone ∧ x.nitems = r.nitems ∧
      ∀ f, r.fault = some f → x.code = f.code.num ∧ x.detail = f.detail ∧ x.addr = BitVec.ofNat 64 f.val) ∧
    (let key := keyOf tile r.cmd.slot
    (s.thr key).live = true → (s.thr key).born = r.cmd.own → (t.thr key).fpflags = (s.thr key).fpflags ||| r.flags) ∧
    t.mem = s.mem ∧ t.reqs.map (fun q => { q with undo := none }) = s.reqs.map (fun q => { q with undo := none })

/-- R342 to R351, R202: each command's own step: a tile cleared; a row read from memory put into its accumulators; a plane's
row; a group of products added; a drain's row read, a save's or a fill's formed, a copied row read; a row whose store is
performed counted; a route's packet sent; a round joined; and the command's end. -/
def Obligations.EngineStepsTakePlace : Prop := ∀ (s : State) (tile i : Nat) (k : CmdKind) (r : Run), s.fatal = none →
  Running s tile k r → r.fault = none →
  let w := r.cmd.word
  let c := s.core tile
  (k = .zero → i = r.next → i < r.nitems → c.stopping = false → ∃ t, exec (.mxZero tile .startItem) s = .next t ∧
    ∀ j, j / 1024 = cAcc w → (t.core tile).accAt j = 0) ∧
  (k = .save ∨ k = .fill → i = r.next → i < r.nitems → c.stopping = false → c.accBad = [] →
    ∃ (t : State) (d : List Byte), exec (if k = .save then .mxSave tile .startItem else .cpFill tile .startItem) s = .next t ∧
      itemAt t tile (kindEng k) i = some ⟨i, .ready, d, false⟩ ∧ t.mem = s.mem ∧
      d = (if k = .fill then fillRow w
        else packBytes 32 64 fun n => c.accAt (accIdx ((maskTiles w).getD (i / 16) 0) (i % 16) n))) ∧
  (∀ (id : Nat) (q : Req) (data : List Byte) (b : Bool), r.item i = some ⟨i, .reading id, data, b⟩ → s.req id = some q → q.settled = true →
    q.fault = none →
    let step := fun (e : Instr) (stage : ItemStage) (f : State → Prop) =>
      ∃ (t : State) (d : List Byte), exec e s = .next t ∧ itemAt t tile (kindEng k) i = some ⟨i, stage, d, false⟩ ∧ t.mem = s.mem ∧ f t
    (k = .ldacc → step (.mxLdacc tile (.item i)) .performed fun t =>
      ∀ n, n < 64 → (t.core tile).accAt (accIdx (cAcc w) i n) = elemAt q.buf 0 32 n) ∧
    (k = .restore → step (.mxRestore tile (.item i)) .performed fun t =>
      ∀ n, n < 64 → (t.core tile).accAt (accIdx ((maskTiles w).getD (i / 16) 0) (i % 16) n) = elemAt q.buf 0 32 n) ∧
    (k = .loadw → isBlk (ptrFmt (cSrc w)) = false → step (.mxLoadw tile (.item i)) .performed fun t =>
      ∀ n, n < 64 → tget ((t.core tile).plane w).cells (i * 64 + n) 0 = elemAt q.buf 0 (codeBits (ptrFmt (cSrc w))) n) ∧
    (k = .mma → r.prefixDone = i → r.failedBefore i = false → accPoison c (cAcc w) (cM w) = false →
      step (.mxMma tile (.item i)) .performed fun t => ∀ m n, m < cM w → n < 64 →
        (t.core tile).accAt (accIdx (cAcc w) m n) =
          (mmaCell w (c.plane w) r.group i q.buf m n (c.accAt (accIdx (cAcc w) m n))).1) ∧
    (k = .drain → c.accBad = [] → step (.mxDrain tile (.item i)) .ready fun _ => True) ∧
    (k = .copy → step (.cpCopy tile (.item i)) .ready fun _ => True) ∧
    (∀ desc, k = .reduce → liveGroup s (ctxOf s tile) (cHandle w) = some desc → s.frame < r.frame + 1 + i →
      step (.rlReduce tile (.item i)) (.waitingRound (r.frame + 1 + i)) fun t => t.presents.length = s.presents.length + 1)) ∧
  (∀ (id : Nat) (q : Req) (data : List Byte) (e : Instr), r.item i = some ⟨i, .writing id, data, false⟩ → s.req id = some q →
    q.settled = true → q.fault = none →
    (e = .mxDrain tile (.item i) ∧ k = .drain) ∨ (e = .mxSave tile (.item i) ∧ k = .save) ∨
      (e = .cpCopy tile (.item i) ∧ k = .copy) ∨ (e = .cpFill tile (.item i) ∧ k = .fill) →
    ∃ t, exec e s = .next t ∧ itemAt t tile (kindEng k) i = some ⟨i, .performed, [], false⟩ ∧ t.mem = s.mem) ∧
  (∀ (desc : List Word) (d : List Byte) (b : Bool) (ms : List (Nat × Nat × Nat)), k = .route → r.item i = some ⟨i, .ready, d, b⟩ →
    routeOf s (ctxOf s tile) (cHandle w) = some (true, desc) →
    (∀ x ∈ r.items, x.idx < i → (match x.stage with | .reading _ | .ready => False | _ => True)) →
    spansMoves s tile r.walkFault needW 0 (writeSpan .route w i) = .ok ms →
    ∃ (t : State) (o : OutPacket), exec (.cpRoute tile (.item i)) s = .next t ∧ o ∈ (t.port (rtPort desc)).fifo ∧
      o.pkt.type = 0x09 ∧ o.pkt.payload = d) ∧
  (∀ desc, k = .bcast → liveGroup s (ctxOf s tile) (cHandle w) = some desc → (s.ctx (ctxOf s tile)).ending = false →
    i = r.next → i < r.nitems → i < relayRounds .bcast w → s.frame < r.frame + 1 + i →
    ∃ t, exec (.rlBcast tile .startItem) s = .next t ∧ t.presents.length = s.presents.length + 1) ∧
  (k ≠ .reduce → k ≠ .bcast → runEnded r = true → ∃ t, exec (.engineCommandComplete tile (kindEng k)) s = .next t ∧
    (t.core tile).eng (kindEng k) = ⟨((s.core tile).eng (kindEng k)).queue, none⟩ ∧
    (ringAt (t.core tile) r.cmd.seq.toNat).state = 2 ∧ t.mem = s.mem)

/-- R33, R202, R203, R338 to R349: what an engine does with its commands. -/
def Obligations.EnginesCarryOutTheirCommands : Prop :=
  Clauses.CommandsStartOrAreRefused ∧ Clauses.ZeroClearsItsTile ∧ Clauses.RowsAreFormed ∧ Clauses.RowsAreRead ∧
  Clauses.RowsAreLoaded ∧ Clauses.PlanesAreLoaded ∧ Clauses.GroupsAreAdded ∧ Clauses.ReadRowsAreMadeReady ∧
  Clauses.ReadyRowsAreStored ∧ Clauses.StoredRowsEnd ∧ Clauses.RoutePacketsLeave ∧ Clauses.RelayCommandsPresent ∧
  Clauses.CommandsComplete

/-! ## Relay rounds and gateways (spec/02 R52, R53; spec/08 R192, R193; spec/15 R316) -/

/-- R52, R192, R316: at the home of a live group a round ends 4 slots after its last scheduled arrival: it and what was
presented to it are gone, and a `vldr` that waits for it takes the outcome: its predicate, its status word, and where the
sum was formed the sum and its flags. -/
def Clauses.RoundsAreSummedAtTheHome : Prop := ∀ (s : State) (key frame : Nat) (r : Round),
  let here := fun (k f : Nat) => k == key && f == frame
  s.rounds.find? (fun x => here x.key x.frame) = some r → r.live = true → grpHome r.desc = s.pkg →
  frame * 2048 + lastInSlot s key + 4 ≤ s.ptb → (∀ c ∈ s.cores, c.2.rl.run = none) →
  ∃ t : State, Happens (.relayRoundSum key frame (received s r)) s t ∧ t.mem = s.mem ∧
    t.rounds = s.rounds.filter (fun x => !here x.key x.frame) ∧
    t.presents = s.presents.filter (fun x => !here x.key x.frame) ∧
    ∀ (p : Present) (k id kk d aux h f : Nat) (q : Req) (u : Undo), s.presents.filter (fun x => here x.key x.frame) = [p] →
      p.thread = some k → p.req = some id → s.req id = some q → q.fin = .ldr kk d aux h f → q.undo = some u →
      u.pops = [] → u.pushes = [] → (s.thr k).live = true → q.lid = lidOf s (tileOf k) → (s.thr k).born ≤ q.seq →
      (s.thr k).role = .alone → sfuPending s k = false →
      let o := roundOutcome r.desc (received s r ++ (memberPart s key frame r.desc).toList)
      let w := (o.absent * 2 ^ 8 + o.code) % 2 ^ 64
      let g := ((s.thr k).regs.wk kk (w == 0)).ws aux (BitVec.ofNat 64 w)
      (t.thr k).wait = none ∧
        (t.thr k).regs = (if w = 0 then g.wv d (vecOf ((o.bytes ++ List.replicate 64 0).take 64)) else g) ∧
        (t.thr k).fpflags = (s.thr k).fpflags ||| (if w = 0 then o.flags else 0)

/-- R316: where no live hold of the group stood here at the round's boundary, no sum is formed, and the round ends: a `vldr`
that waits for it takes the code and ABSENT, this member being absent with those of which nothing came.
(Log entry 2.) -/
def Clauses.RoundsOfNoHoldEnd : Prop := ∀ (s : State) (key frame : Nat) (r : Round) (remote : List Contribution),
  let here := fun (k f : Nat) => k == key && f == frame
  let o := roundOutcome r.desc remote
  s.rounds.find? (fun x => here x.key x.frame) = some r → r.live = false → groupHold s key = none → o.absent ≠ 0 →
  frame * 2048 ≤ s.ptb →
  ∃ t : State, Happens (.relayRoundSum key frame remote) s t ∧ t.mem = s.mem ∧
    t.rounds = s.rounds.filter (fun x => !here x.key x.frame) ∧
    t.presents = s.presents.filter (fun x => !here x.key x.frame) ∧
    ∀ (p : Present) (k id kk d aux h f : Nat) (q : Req) (u : Undo), s.presents.filter (fun x => here x.key x.frame) = [p] →
      p.thread = some k → p.req = some id → s.req id = some q → q.fin = .ldr kk d aux h f → q.undo = some u →
      u.pops = [] → u.pushes = [] → (s.thr k).live = true → q.lid = lidOf s (tileOf k) → (s.thr k).born ≤ q.seq →
      (s.thr k).role = .alone → sfuPending s k = false →
      let w := (o.absent * 2 ^ 8 + o.code) % 2 ^ 64
      w ≠ 0 → (t.thr k).wait = none ∧
        (t.thr k).regs = ((s.thr k).regs.wk kk false).ws aux (BitVec.ofNat 64 w) ∧ (t.thr k).fpflags = (s.thr k).fpflags

/-- R53, R185, R193: the blocks that a gateway core has received in one in-slot of its port leave as one block, requantised from
their exact sum in the format of the core's program, 4 slots on, and 2 more through the crossbar, in the route's slots of the port
that the slot names, or go on to their home here; the flags of the requantisation are the core's.
(Log entry 46.) -/
def Clauses.GatewaysAddBlocks : Prop := ∀ (s : State) (port : Nat) (g : GateIn),
  let code := gatewayFormat g.core
  let mate := fun (x : GateIn) => x.core == g.core && x.slot == g.slot && x.ctx == g.ctx && x.handle == g.handle
  let blocks := ((s.gate.filter mate).map fun x => payloadBlocks x.pkt.payload).flatten
  let sum := gatewayBlock code blocks
  let p := sealed { g.pkt with payload := vecBytes sum.1, len := 2 }
  s.gate.find? (fun x => x.core / 4 == port && gateDue s x) = some g → blocks ≠ [] →
  (g.fwd ≤ 11 → ∃ t : State, Happens (.gatewayBaddq port code blocks) s t ∧
    t.port g.fwd = { s.port g.fwd with fifo := (s.port g.fwd).fifo ++ [⟨.route g.ctx g.handle 15, p, g.slot + 4 + 2, 3⟩] } ∧
    (∀ q, q ≠ g.fwd → t.port q = s.port q) ∧ t.gate = s.gate.filter (fun x => !mate x) ∧
    tget t.gateFlags g.core 0 = tget s.gateFlags g.core 0 ||| sum.2 ∧
    t = { s with ports := t.ports, gate := t.gate, gateFlags := t.gateFlags }) ∧
  (11 < g.fwd → inCarveOut s p = false →
    (∀ a ∈ pagesTouched p, ∃ c, pageOwner s a = some c ∧ (p.cap = 0 ∨ p.cap = (s.ctx c).pkey.toNat)) →
    ∃ (t : State) (r : Req), Happens (.gatewayBaddq port code blocks) s t ∧ t.reqs = s.reqs ++ [r] ∧ r.kind = .store ∧
      r.va = p.addr ∧ r.buf = vecBytes sum.1 ∧ t.gate = s.gate.filter (fun x => !mate x) ∧
      tget t.gateFlags g.core 0 = tget s.gateFlags g.core 0 ||| sum.2 ∧ t.mem = s.mem)

/-- R157, R192: a contribution that arrives in its group's slot joins each round of its name and frame; one for another
package leaves by the port that the in-slot forwards to, beat by beat (R185); one that the port discards, for its CRC, its
LEN or an unassigned TYPE, is counted there, and is lost to the round of the frame under way (R179, R214).
(Log entry 16.) -/
def Clauses.ContributionsArrive : Prop := ∀ (s : State) (port : Nat) (p : Packet),
  let key := p.cap * 2 ^ 16 + p.txid
  let fmt := p.addr / 2 ^ 8 % 2 ^ 5
  let kind := p.addr / 2 ^ 13 % 4
  let b := if kind = 2 then 8 else codeBits fmt
  let els := (List.range (8 * p.payload.length / b)).map fun i => elemAt p.payload 0 b i
  let good := p.type = 0x0A ∧ badPacket p = false ∧ wholePacket p = true ∧ 1 ≤ p.len
  carries s port = true →
  (good → p.dstPkg = s.pkg → inGroupSlot s port key = true → ∃ t : State, Happens (.relayContribution port p) s t ∧
    t = { s with rounds := t.rounds } ∧ t.rounds.length = s.rounds.length ∧
    ∀ (j : Nat) (r : Round), s.rounds[j]? = some r → t.rounds[j]? = some
      (match grpIndex r.desc p.srcPkg with
      | some i =>
        if r.key = key ∧ r.frame % 2 ^ 36 = p.addr / 2 ^ 16 then
          { r with remote := r.remote ++
            [⟨port, i, kind, fmt, if kind = 2 ∧ bitOf p.addr 15 = false then [] else els, BitVec.ofNat 8 p.addr, false⟩] }
        else r
      | none => r)) ∧
  (good → p.dstPkg = s.pkg → inGroupSlot s port key = false → Happens (.relayContribution port p) s s) ∧
  (∀ c h f, good → p.dstPkg ≠ s.pkg → inOwner s port s.ptb = .route c h f → f ≤ 11 → Happens (.relayContribution port p) s
    (s.updPort f fun q => { q with fifo := q.fifo ++ [⟨.route c h 15, p, s.ptb + 2, p.len % 32 + 1⟩] })) ∧
  (badPacket p = true → p.type = 0x0A ∨ assignedType p.type = false → ∃ t : State, Happens (.relayContribution port p) s t ∧
    (t.port port).crcErr = (s.port port).crcErr + 1 ∧ (t.port port).frameErrs = (s.port port).frameErrs + 1 ∧
    t = { s with ports := t.ports, rounds := t.rounds })

/-- R52, R316: the outcome that the home broadcasts ends the round at a member; one for another package goes on (R192).
(Log entry 16.) -/
def Clauses.BroadcastsArrive : Prop := ∀ (s : State) (port : Nat) (p : Packet) (r : Round),
  let key := p.cap * 2 ^ 16 + p.txid
  p.type = 0x0B → badPacket p = false → wholePacket p = true → 1 ≤ p.len → carries s port = true →
  (p.dstPkg = s.pkg → s.rounds.find? (fun x => x.key == key && x.frame % 2 ^ 20 == p.addr / 2 ^ 32) = some r →
    grpHome r.desc = p.srcPkg → inGroupSlot s port key = true →
    ∃ t : State, Happens (.relayBroadcast ⟨port, p⟩) s t ∧ t.mem = s.mem ∧
      t.rounds = s.rounds.filter (fun x => !(x.key == key && x.frame == r.frame)) ∧
      t.presents = s.presents.filter (fun x => !(x.key == key && x.frame == r.frame))) ∧
  (∀ c h f, p.dstPkg ≠ s.pkg → inOwner s port s.ptb = .route c h f → f ≤ 11 → Happens (.relayBroadcast ⟨port, p⟩) s
    (s.updPort f fun q => { q with fifo := q.fifo ++ [⟨.route c h 15, p, s.ptb + 2, p.len % 32 + 1⟩] }))

/-- R52, R53, R157, R179, R192, R193, R214, R316: rounds, contributions, broadcasts and gateway cores. -/
def Obligations.RelayRoundsAndGatewaysForward : Prop :=
  Clauses.RoundsAreSummedAtTheHome ∧ Clauses.RoundsOfNoHoldEnd ∧ Clauses.GatewaysAddBlocks ∧
  Clauses.ContributionsArrive ∧ Clauses.BroadcastsArrive

/-! ## Frames, slots, departures and retraining (spec/08 R175 to R187, spec/09 R214) -/

/-- R177, R181: a frame begins at a multiple of 2,048 slots: a table armed for it or an earlier frame is in force, and
no such shadow is left. -/
def Clauses.FramesBegin : Prop := ∀ s : State,
  let n := s.ptb / 2048
  s.tbSet = true → s.frame < n → ∃ t : State, Happens .frameBoundary s t ∧ t.frame = n ∧ t.mem = s.mem ∧
    t.threads = s.threads ∧ t.cores = s.cores ∧ t.reqs = s.reqs ∧
    (∀ (i : Nat) (x : Nat × Nat × List (Nat × SlotOwner)), x ∈ (t.port i).shadow → n < x.2.1) ∧
    ∀ (i f : Nat) (tab : List (Nat × SlotOwner)), s.ctxs = [] → f ≤ n →
      ((s.port i).shadow = [(0, f, tab)] → (t.port i).outTab = tab ∧ (t.port i).inTab = (s.port i).inTab) ∧
      ((s.port i).shadow = [(1, f, tab)] → (t.port i).inTab = tab ∧ (t.port i).outTab = (s.port i).outTab)

/-- R180 to R182, R184: the Crown arms a table of a port in use for a later frame, each slot once, at least 64 slots of each
die's pool, and on a peer port 64 of transit; on a drawer port every paired in-slot, D slots on, has the owner of its
out-slot.
(Log entry 46.) -/
def Clauses.SlotTablesAreArmed : Prop := ∀ (s : State) (port frame : Nat) (dir : Dir) (tab : List (Nat × SlotOwner)),
  let p := s.port port
  let count := fun (f : SlotOwner → Bool) => (tab.filter fun e => f e.2).length
  let num := fun (d : Dir) => match d with | .outward => 0 | .inward => 1
  let other : Dir := match dir with | .outward => .inward | .inward => .outward
  let armed := fun (l : List (Nat × Nat × List (Nat × SlotOwner))) (d : Dir) (t : List (Nat × SlotOwner)) =>
    l.filter (fun x => !(x.1 == num d && x.2.1 == frame)) ++ [(num d, frame, t.filter fun e => e.2 != .idle)]
  let paired := tab.map fun e =>
    ((e.1 + (match dir with | .outward => p.delay | .inward => 2048 - p.delay % 2048)) % 2048, e.2)
  port < 12 → p.role ≠ .unused → s.frame < frame → (tab.map (·.1)).Nodup →
  (∀ e ∈ tab, e.1 < 2048 ∧ match e.2 with
    | .pool d => d < 4
    | .route c h f => c ≤ 16 ∧ h < 65536 ∧ f < 32 ∧ (f % 16 ≤ 11 ∨ f % 16 = 15)
    | _ => True) →
  (∀ d, d < 4 → 64 ≤ count (· == .pool d)) → (p.role = .peer → 64 ≤ count (· == .transit)) →
  Happens (.slotTableArm port dir tab frame) s
    (s.setPort port { p with
      shadow := if p.role = .drawer then armed (armed p.shadow dir tab) other paired else armed p.shadow dir tab })

/-- R177, R178, R180: the out-slot under way carries up to 32 beats of its owner's packet, once. A packet that fits has
departed, and one that an answer comes to is in flight.
(Log entry 70.) -/
def Clauses.PacketsDepart : Prop := ∀ (s : State) (port x : Nat) (owner : SlotOwner) (o : OutPacket),
  let p := s.port port
  carries s port = true → p.slotDone ≤ s.ptb → (∀ die, owner = .pool die → (s.die die).pfWant = []) →
  p.outTab.find? (fun e => e.1 == s.slotNow) = some (x, owner) → p.fifo = [o] → o.owner = owner → o.after ≤ s.ptb →
  (o.left ≤ 32 → ∃ t : State, Happens (.outSlotDeparture port) s t ∧
    t.port port = { p with fifo := [], slotDone := s.ptb + 1 } ∧ t = { s with ports := t.ports, flights := t.flights } ∧
    (awaitsAnswer s o.pkt = true → (⟨port, s.ptb, o.pkt⟩ : Flight) ∈ t.flights) ∧
    (awaitsAnswer s o.pkt = false → ∀ f ∈ t.flights, f ∈ s.flights)) ∧
  (32 < o.left → ∃ t : State, Happens (.outSlotDeparture port) s t ∧
    t.port port = { p with fifo := [{ o with left := o.left - 32 }], slotDone := s.ptb + 1 } ∧
    t = { s with ports := t.ports, flights := t.flights } ∧ ∀ f ∈ t.flights, f ∈ s.flights)

/-- R177, R182, R184: a port is trained once, with its flight in slots and, for a drawer, its reply delay of 400 to 1,200, by
which its in-slots are paired with its out-slots from then on; slots that are owned keep their owners (the pools are given theirs of
the free ones, log entry 101). -/
def Clauses.PortsAreTrained : Prop := ∀ (s : State) (port flight delay : Nat),
  let p := s.port port
  port < 12 → p.trained = false → (p.role = .drawer ∧ 400 ≤ delay ∧ delay ≤ 1200 ∨ p.role = .peer ∧ delay = 0) →
  ∃ (t : State) (q : Port), Happens (.portTraining port flight delay) s t ∧ t = s.setPort port q ∧
    q = { p with trained := true, flight := flight, delay := delay, outTab := q.outTab, inTab := q.inTab, shadow := q.shadow } ∧
    (∀ e ∈ p.outTab, e ∈ q.outTab) ∧ (p.role = .peer → ∀ e ∈ p.inTab, e ∈ q.inTab) ∧
    (p.role = .drawer → q.inTab = q.outTab.map fun e => ((e.1 + delay) % 2048, e.2))

/-- R187, R214: a port whose frame errors have reached 16 carries nothing from the start of the next slot until it resumes; an
access that waits for a packet in flight on a peer port fails with STALL (a note to a word's home, log entry 75, is sent again). -/
def Clauses.RetrainingStarts : Prop := ∀ (s : State) (port : Nat),
  let p := s.port port
  p.role ≠ .unused → p.trained = true → p.stalled = none → 16 ≤ p.frameErrs → p.errAt < s.ptb →
  ((∀ f ∈ s.flights, f.port ≠ port) → ∃ t : State, Happens (.retrainStart port) s t ∧
    (t.port port).stalled = some (p.errAt + 1) ∧ (t.port port).retrain = p.retrain + 1 ∧ t = { s with ports := t.ports }) ∧
  (∀ (f : Flight) (r : Req) (i : Nat) (q : Part), s.flights = [f] → f.port = port → p.role = .peer → f.pkt.type ≠ 0x0C →
    toldNumber f.pkt = none → sentPart s port f.pkt.txid = some (r, i, q) → s.req r.id = some r → (∀ y ∈ r.parts, y.stage ≠ .failed) →
    ∃ t : State, Happens (.retrainStart port) s t ∧ (t.port port).stalled = some (p.errAt + 1) ∧ t.flights = [] ∧
      t.req r.id = some { partAt r i .failed with fault := some ⟨.stall, port, q.va, none, false⟩ } ∧ t.mem = s.mem)

/-- R187, R214: at a frame boundary within 20 µs a stalled port goes on. A drawer's write that waited is performed if the
drawer applied it, and fails with STALL if not. -/
def Clauses.PortsResume : Prop := ∀ (s : State) (port t0 : Nat),
  let p := s.port port
  p.stalled = some t0 → s.ptb % 2048 = 0 → s.ptb / 2048 = s.frame → s.ptb ≤ t0 + 20000 →
  ((∀ f ∈ s.flights, f.port ≠ port) → ∃ t : State, Happens (.retrainResume port []) s t ∧
    t.port port = { p with stalled := none, frameErrs := 0 } ∧ t = { s with ports := t.ports, rounds := t.rounds, episodes := t.episodes }) ∧
  (∀ (f : Flight) (r : Req) (i : Nat) (q : Part), s.flights = [f] → f.port = port → p.role = .drawer → f.pkt.type = 0x03 →
    sentPart s port f.pkt.txid = some (r, i, q) → s.req r.id = some r → r.kind = .store → pkgOf q.pa = s.pkg →
    storePoison s r.lid q = false → (∀ y ∈ r.parts, y.stage ≠ .failed) →
    (∃ t : State, Happens (.retrainResume port [f.pkt.txid]) s t ∧ t.port port = { p with stalled := none, frameErrs := 0 } ∧
      t.flights = [] ∧ t.req r.id = some (partAt r i .done)) ∧
    (∃ t : State, Happens (.retrainResume port []) s t ∧ t.port port = { p with stalled := none, frameErrs := 0 } ∧
      t.flights = [] ∧ t.req r.id = some { partAt r i .failed with fault := some ⟨.stall, port, q.va, none, false⟩ } ∧
      t.mem = s.mem))

/-- R187, R219: a port that has not resumed in 20 µs stops the package with cause 3. -/
def Clauses.StalledPortsStopThePackage : Prop := ∀ (s : State) (port t0 : Nat),
  (s.port port).stalled = some t0 → t0 + 20000 < s.ptb →
  ∃ t : State, Happens (.portResumeTimeout port) s t ∧ t.fatal = some 3 ∧ t.pfIrqs = s.pfIrqs + 1 ∧ t.mem = s.mem ∧
    t.threads = s.threads ∧ (s.dump = none → t.hostMem = s.hostMem)

/-- R177 to R187, R214, R219: frames, slots and ports. -/
def Obligations.PortsKeepTheirFramesAndSlots : Prop :=
  Clauses.FramesBegin ∧ Clauses.SlotTablesAreArmed ∧ Clauses.PacketsDepart ∧ Clauses.PortsAreTrained ∧
  Clauses.RetrainingStarts ∧ Clauses.PortsResume ∧ Clauses.StalledPortsStopThePackage

/-! ## Packets (spec/08 R178 to R184, Table 8-3; spec/07 R157, R159) -/

/-- A packet of another package has come, in an in-slot of a pool, to the peer port that the routing table names (R182,
R183); what the port does not discard is whole (R178). -/
def Clauses.comesIn (s : State) (p : Packet) (port : Nat) : Prop :=
  p.srcPkg ≠ s.pkg ∧ portFor s p.srcPkg = some port ∧ (s.port port).role = .peer ∧ carries s port = true ∧
    pooled (inOwner s port (inSlotTime s p)) = true ∧ (badPacket p = true ∨ wholePacket p = true)

/-- What a packet that a port discards leaves (R179, R187): its counts, and the time of the sixteenth of a frame. -/
def Clauses.counted (s : State) (port : Nat) : State :=
  let q := s.port port
  s.setPort port { q with
    crcErr := q.crcErr + 1
    frameErrs := q.frameErrs + 1
    errAt := if q.frameErrs < 16 then s.ptb else q.errAt }

/-- Every page that a packet's access touches is open to its capability, the key of the page's owner or firmware's (R157),
and none of it lies in the locked carve-out (R162). -/
def Clauses.admitted (s : State) (p : Packet) : Prop :=
  inCarveOut s p = false ∧
    ∀ a ∈ pagesTouched p, ∃ c, pageOwner s a = some c ∧ (p.cap = 0 ∨ p.cap = (s.ctx c).pkey.toNat)

/-- R179, R182: a packet that comes in a pool slot is discarded and counted where its CRC fails, its LEN is above 128 or its
TYPE is not assigned, and goes on in the transit slots of the port toward its destination where that is another package.
(Log entry 46.) -/
def Clauses.PacketsAreForwardedOrDiscarded : Prop := ∀ (s : State) (p : Packet) (port : Nat) (i : Instr),
  Clauses.comesIn s p port →
  (i = .readRequest p ∧ (p.type = 0x01 ∨ assignedType p.type = false)) ∨
    (i = .writePacket p ∧ (p.type = 0x03 ∨ assignedType p.type = false)) ∨
    (i = .activeMessagePacket p ∧ (p.type = 0x08 ∨ assignedType p.type = false)) ∨
    (i = .podBarrierPacket p ∧ (p.type = 0x0C ∨ assignedType p.type = false)) ∨
    (i = .reservationPacket p ∧ (p.type = 0x05 ∨ assignedType p.type = false) ∧ (p.dstPkg ≠ s.pkg ∨ s.flights = [])) ∨
    (i = .readReply p ∧ (p.type = 0x02 ∨ assignedType p.type = false) ∧ p.dstPkg ≠ s.pkg) ∨
    (i = .writeStatus p ∧ (p.type = 0x04 ∧ p.len = 0 ∨ assignedType p.type = false) ∧ p.dstPkg ≠ s.pkg) →
  (badPacket p = true → Happens i s (Clauses.counted s port)) ∧
  (badPacket p = false → p.dstPkg ≠ s.pkg → (p.type = 0x01 → p.len = 0) → (p.type = 0x03 → 1 ≤ p.len) →
    (p.type = 0x08 → p.len = 2) → (p.type = 0x0C → p.len = 0) → (p.type = 0x05 → p.len ≤ 1) →
    ∀ out, portFor s p.dstPkg = some out → Happens i s
      { s.setPort out { s.port out with fifo := (s.port out).fifo ++ [⟨.transit, p, s.ptb, 1 + p.len⟩] } with
        nextId := s.nextId + 1 })

/-- R157, R159, R162: an access of another package whose capability is the key of the owner of every page it touches, or
firmware's, goes on to its home here: a read of its aligned 32-byte block, a write of its payload, a reservation of its word
or the write of one; bytes of one packet that lie in one 64-byte granule are performed at one instant (R71, R74, R78). One with a page that its capability does not open is answered with CONTAIN and entered in the supervisor
queue. One in the locked carve-out of the firmware SRAM is blocked: a read is answered with ones, a write dropped, and VIOL
counts it.
(Log entries 30, 36.) -/
def Clauses.PeersAccessesAreChecked : Prop := ∀ (s : State) (p : Packet) (port : Nat) (i : Instr) (kind : ReqKind) (a : Nat)
    (parts : List Part) (buf : List Byte),
  Clauses.comesIn s p port → badPacket p = false → p.dstPkg = s.pkg →
  (i = .readRequest p ∧ p.type = 0x01 ∧ p.len = 0 ∧ kind = .load ∧ a = p.addr / 32 * 32 ∧
      parts = blockParts (bytesFrom a 32) ∧ buf = List.replicate 32 0) ∨
    (i = .writePacket p ∧ p.type = 0x03 ∧ 1 ≤ p.len ∧ p.len ≤ 128 ∧
      kind = packetKind p ∧ a = p.addr ∧ parts = packetParts p ∧ buf = p.payload) ∨
    (i = .reservationPacket p ∧ p.type = 0x05 ∧ p.len = 0 ∧ p.stamp = none ∧ s.flights = [] ∧ kind = .rsv ∧ a = p.addr / 8 * 8 ∧
      parts = blockParts (bytesFrom a 8) ∧ buf = List.replicate 8 0) ∨
    (i = .reservationPacket p ∧ p.type = 0x05 ∧ p.len = 1 ∧ p.stamp = none ∧ s.flights = [] ∧ kind = .wrv ∧ a = p.addr ∧
      parts = packetParts p ∧ buf = p.payload) →
  (Clauses.admitted s p →
    Happens i s { s with reqs := s.reqs ++ [peerReq s p port kind a parts buf], nextId := s.nextId + 1 }) ∧
  (inCarveOut s p = false →
    (∃ b ∈ pagesTouched p, ∀ c, pageOwner s b = some c → p.cap ≠ 0 ∧ p.cap ≠ (s.ctx c).pkey.toNat) → s.sup.length < 4096 →
    ∃ (t : State) (e : SupEntry) (o : OutPacket), Happens i s t ∧ t.reqs = s.reqs ∧
      t.mem = writeBytes s.mem (supAddr s (s.supHead + s.sup.length)) e.bytes ∧
      t.sup = s.sup ++ [e] ∧ e.cap = p.cap ∧ e.time = s.ptb ∧ e.src = p.srcPkg * 4096 + p.srcTile ∧
      (t.port port).fifo = (s.port port).fifo ++ [o] ∧ o.pkt.type = 0x02 ∧ o.pkt.len = 0 ∧ o.pkt.txid = p.txid ∧
      o.pkt.dstPkg = p.srcPkg) ∧
  (inCarveOut s p = true → ∃ (t : State) (o : OutPacket), Happens i s t ∧ t.reqs = s.reqs ∧ t.mem = s.mem ∧
    t.boot.viol.toNat = min (s.boot.viol.toNat + 1) (2 ^ 32 - 1) ∧ t.sup = s.sup ∧
    (t.port port).fifo = (s.port port).fifo ++ [o] ∧ o.pkt.txid = p.txid ∧ o.pkt.dstPkg = p.srcPkg ∧
    (p.type = 0x01 → o.pkt.type = 0x02 ∧ o.pkt.payload = List.replicate 32 0xFF) ∧ (p.type = 0x03 → o.pkt.type = 0x04)) ∧
  (∀ n, p.keep = [] → 0 < n → p.payload.length = n → p.addr / 64 = (p.addr + n - 1) / 64 →
    ∃ x, packetParts p = [x] ∧ x.stage = .waiting ∧ x.moves = (List.range n).map fun j => (p.addr + j, j))

/-- R99, R182: an active message of another package is on its way to its tile here. -/
def Clauses.PeersMessagesComeIn : Prop := ∀ (s : State) (p : Packet) (port : Nat),
  Clauses.comesIn s p port → badPacket p = false → p.dstPkg = s.pkg → p.type = 0x08 → p.len = 2 →
  ∃ m : Msg, Happens (.activeMessagePacket p) s { s with net := s.net ++ [m] } ∧ m.body = vecOf p.payload ∧
    m.dst = p.addr % 4096 ∧ m.peer = some (p.srcPkg, p.srcTile, p.txid)

/-- R139: another member's arrival counts, once, for the episode of its group and tick, whether or not a core here has
arrived in it; one that does not stand any more counts no longer.
(Log entries 11, 98.) -/
def Clauses.PeersArrivalsCount : Prop := ∀ (s : State) (p : Packet) (port tick : Nat) (gone : Bool),
  let key := p.cap * 2 ^ 16 + p.txid
  let it := (p.srcPkg, BitVec.ofNat 8 p.srcTile)
  Clauses.comesIn s p port → badPacket p = false → p.dstPkg = s.pkg → p.type = 0x0C → p.len = 0 → p.stamp = some (tick, gone) →
  (∀ e : Episode, s.episodes = [e] → e.key = key → e.tick = tick →
    let others := e.remote.filter fun x => x.1 != p.srcPkg
    Happens (.podBarrierPacket p) s
      { s with episodes := [{ e with remote := if gone then others else others ++ [it] }] }) ∧
  (gone = false → (∀ e ∈ s.episodes, e.key ≠ key ∨ e.tick ≠ tick) → Happens (.podBarrierPacket p) s
    { s with episodes := s.episodes ++ [⟨key, tick, [], false, false, [it]⟩] })

/-- R185, R186, R192, R193, R349: route data in a slot of KIND 2 that forwards leaves by the slot's port two slots on, beat by
beat; in one whose route names gateway processing the slot's gateway core holds it; in one that does neither it goes on to its
home here, carrying its stamp, over the path from the port (R377). What the port discards is counted there, as is data for
this package in a slot that forwards, and data of another route than the slot's.
(Log entries 46, 99.) -/
def Clauses.RouteDataGoesOn : Prop := ∀ (s : State) (p : Packet) (port c h : Nat),
  let now := inOwner s port s.ptb
  let good := badPacket p = false ∧ wholePacket p = true ∧ 1 ≤ p.len
  p.type = 0x09 → carries s port = true → (s.port port).role = .peer →
  (badPacket p = true → Happens (.routeData ⟨port, p⟩) s (Clauses.counted s port)) ∧
  (∀ f, now = .route c h f → p.route ≠ some (c, h) → (badPacket p = true ∨ wholePacket p = true) →
    (∀ c' h' f', inOwner s port (s.ptb - 18) = .route c' h' f' → p.route ≠ some (c', h')) →
    Happens (.routeData ⟨port, p⟩) s (Clauses.counted s port)) ∧
  (∀ f, now = .route c h f → p.route = some (c, h) →
    (good → f ≤ 11 → p.dstPkg ≠ s.pkg → Happens (.routeData ⟨port, p⟩) s
      (s.updPort f fun q => { q with fifo := q.fifo ++ [⟨.route c h 15, p, s.ptb + 2, p.len % 32 + 1⟩] })) ∧
    (good → f ≤ 11 → p.dstPkg = s.pkg → Happens (.routeData ⟨port, p⟩) s (Clauses.counted s port)) ∧
    (good → 16 ≤ f → Happens (.routeData ⟨port, p⟩) s
      { s with gate := s.gate ++ [⟨4 * port + s.ptb % 2048 % 4, s.ptb, c, h, f % 16, p⟩] })) ∧
  (good → p.route = some (c, h) →
    (match now with | .route c' h' f => c' = c → h' = h → 11 < f ∧ f < 16 | _ => True) →
    inOwner s port (s.ptb - 18) = .route c h 15 → p.dstPkg = s.pkg → Clauses.admitted s p → ∃ r : Req,
      Happens (.routeData ⟨port, p⟩) s { s with reqs := s.reqs ++ [r], nextId := s.nextId + 1 } ∧ r.kind = .store ∧
        r.buf = p.payload ∧ r.va = p.addr ∧ r.stamp = p.stamp.map (·.1))

/-- A packet of this package whose answer `p` is the one that is due (R184), and whole (R178, R179). -/
def Clauses.answers (s : State) (p : Packet) (f : Flight) : Prop :=
  s.flights = [f] ∧ f.pkt.txid = p.txid ∧ f.pkt.dstPkg = p.srcPkg ∧ answerDue s f = true ∧ p.dstPkg = s.pkg ∧
    badPacket p = false ∧ wholePacket p = true

/-- R184, R157: a reply's 32 bytes reach the access that waits for them; a reply of LEN 0 fails it with CONTAIN. -/
def Clauses.RepliesArrive : Prop := ∀ (s : State) (p : Packet) (f : Flight) (r : Req) (i : Nat) (q : Part),
  Clauses.answers s p f → p.type = 0x02 → (s.port f.port).role = .peer → s.dies = [] →
  sentPart s f.port p.txid = some (r, i, q) → s.req r.id = some r →
  (p.len = 0 → (∀ y ∈ r.parts, y.stage ≠ .failed) → ∃ t : State, Happens (.readReply p) s t ∧ t.flights = [] ∧
    t.req r.id = some { partAt r i .failed with fault := some ⟨.contain, 0, q.va, none, false⟩ } ∧ t.mem = s.mem) ∧
  (p.len ≠ 0 → f.pkt.type = 0x01 → p.payload.length = 32 → pkgOf q.pa ≠ s.pkg → ∃ (t : State) (b : List Byte),
    Happens (.readReply p) s t ∧ t.flights = [] ∧ t.req r.id = some { partAt r i .done with buf := b } ∧ t.mem = s.mem ∧
    b.length = r.buf.length ∧ ((q.moves.map (·.2)).Nodup → ∀ m ∈ q.moves, m.2 < b.length →
      b.getD m.2 0 = p.payload.getD (m.1 % 32) 0))

/-- R184, R78: a drawer's or a peer's status of a write performs it. The drawer's bytes are this package's memory,
which is in its canonical form; of a byte that the packet writes in part the other bits stay (R313).
(Log entries 30, 37.) -/
def Clauses.StatusesArrive : Prop := ∀ (s : State) (p : Packet) (f : Flight) (r : Req) (i : Nat) (q : Part), MemOk s →
  Clauses.answers s p f → p.type = 0x04 → p.len = 0 → f.pkt.type = 0x03 →
  sentPart s f.port f.pkt.txid = some (r, i, q) → s.req r.id = some r →
  (pkgOf q.pa ≠ s.pkg → ∃ t : State, Happens (.writeStatus p) s t ∧ t.flights = [] ∧
    t.req r.id = some (partAt r i .done) ∧ t.mem = s.mem) ∧
  (pkgOf q.pa = s.pkg → storePoison s r.lid q = false → (s.launch r.lid).shadows = [] → (s.launch r.lid).rpl = false →
    ∃ t : State, Happens (.writeStatus p) s t ∧ t.flights = [] ∧ t.req r.id = some (partAt r i .done) ∧
      (∀ a, (∀ m ∈ q.moves, m.1 ≠ a) → readByte t.mem a = readByte s.mem a) ∧
      ((q.moves.map (·.1)).Nodup → ∀ (j : Nat) (m : Nat × Nat), q.moves[j]? = some m →
        let at' := m.1 - f.pkt.addr
        let keep : Byte := if f.pkt.keep = [] then 0xFF else f.pkt.keep.getD at' 0
        readByte t.mem m.1 = (readByte s.mem m.1 &&& ~~~keep) ||| (f.pkt.payload.getD at' 0 &&& keep)))

/-- R89, R319: another package's grant of a word reserves it for the thread that asked. -/
def Clauses.GrantsArrive : Prop := ∀ (s : State) (p : Packet) (f : Flight) (r : Req) (i k : Nat) (q : Part),
  Clauses.answers s p f → p.type = 0x05 → f.pkt.type = 0x05 → f.pkt.addr / 32 = p.addr / 32 →
  sentPart s f.port p.txid = some (r, i, q) → s.req r.id = some r → r.kind = .rsv → r.owner = .thread k →
  ∃ (t : State) (b : List Byte), Happens (.reservationPacket p) s t ∧ t.flights = [] ∧ t.mem = s.mem ∧
    t.req r.id = some { partAt r i .done with buf := b } ∧ (t.thr k).reserved = some (q.pa / 8)

/-- R78, R89, R99, R139, R157, R159, R179, R182, R184 to R186, R192, R349: packets of and for other packages. -/
def Obligations.PacketsAreCarriedOut : Prop :=
  Clauses.PacketsAreForwardedOrDiscarded ∧ Clauses.PeersAccessesAreChecked ∧ Clauses.PeersMessagesComeIn ∧
  Clauses.PeersArrivalsCount ∧ Clauses.RouteDataGoesOn ∧ Clauses.RepliesArrive ∧ Clauses.StatusesArrive ∧
  Clauses.GrantsArrive

/-! ## Bank budgets, the carve and soft errors (spec/08 R171 to R173, spec/01 R22, spec/09 R208) -/

/-- R171, R172: every 256 cycles a pending BANKBUD takes effect and each class of the bank has its budget. -/
def Clauses.PeriodsGiveBudgets : Prop := ∀ s : State, s.period < s.cycle / 256 →
  ∃ t : State, Happens .budgetPeriod s t ∧ t = { s with period := s.cycle / 256, banks := t.banks } ∧
    ∀ (i : Nat) (b : Bank), (i, b) ∈ s.banks → s.bank i = b →
      let w := (b.pending.getD b.bud).toNat
      (t.bank i).bud.toNat = w ∧ (t.bank i).pending = none ∧
        ∀ j, j < 6 → (t.bank i).counts.toArray.getD j 0 = w / 256 ^ j % 256

/-- R172: a BANKBUD whose budgets are in their ranges and sum to at most 256 waits for the next period; any other sets REJ
and changes no budget. All tiles of the die hold the same table.
(Log entry 48.) -/
def Clauses.BankbudIsChecked : Prop := ∀ (s : State) (tile : Nat) (w : Word),
  let f := fun (i : Nat) => w.toNat / 256 ^ i % 256
  let ok := 8 ≤ f 0 ∧ 8 ≤ f 1 ∧ 8 ≤ f 2 ∧ 16 ≤ f 3 ∧ (8 ≤ f 4 ∨ f 4 = 0 ∧ (s.die (dieOf tile)).carve = 0) ∧ 8 ≤ f 5 ∧
    f 0 + f 1 + f 2 + f 3 + f 4 + f 5 ≤ 256
  tile < 4096 →
  ∃ t : State, Happens (.bankbudWrite tile w) s t ∧ t = { s with banks := t.banks } ∧
    (∀ i, dieOf i ≠ dieOf tile → t.bank i = s.bank i) ∧
    ∀ i, i < 4096 → dieOf i = dieOf tile →
      (ok → t.bank i = { s.bank i with pending := some (w &&& 0xFFFFFFFFFFFF#64), rej := false }) ∧
      (¬ok → t.bank i = { s.bank i with rej := true })

/-- Table 8-6: a write of PFCTL keeps its fields; one with a bit of 63:8 set is ignored, as a whole in this model (log
entry 79). -/
def Clauses.PfctlIsWritten : Prop := ∀ (s : State) (die : Nat) (w : Word), die < 4 →
  (w.toNat < 256 → Happens (.pfctlWrite die w) s (s.updDie die fun d => { d with pfctl := w &&& 0xF1#64 })) ∧
  (256 ≤ w.toNat → Happens (.pfctlWrite die w) s s)

/-- R22, R154, R171: while no launch holds a core of the die and no line is filling, a carve changes: every line has left the
cache, and the bytes that a smaller carve gives back read as zero, their zeroing owed by each bank in grants of 256 bytes. While a
launch holds a core of the die, or a live page stands in the way of a carve that grows, the change waits; so it does while dirty
lines, which leave the cache, wait for their write-backs. -/
def Clauses.CarvesChange : Prop := ∀ (s : State) (die kib : Nat),
  let d := s.die die
  die < 4 → kib ∈ [0, 128, 256, 512] →
  (d.carve ≠ 0 ∨ kib = 0 ∨ ∀ t, t < 1024 → 8 ≤ (s.bank (die * 1024 + t)).bud.toNat / 256 ^ 4 % 256 ∧
    ∀ w, (s.bank (die * 1024 + t)).pending = some w → 8 ≤ w.toNat / 256 ^ 4 % 256) →
  ((∃ c ∈ s.cores, dieOf c.1 = die ∧ c.2.launch ≠ none) ∨ d.carve < kib ∧ carveBlocked s die kib = true →
    d.carveWant ≠ some kib →
    Happens (.carveChange die kib) s (s.updDie die fun d => { d with carveWant := some kib })) ∧
  (d.fills = [] → (∀ c ∈ s.cores, dieOf c.1 = die → c.2.launch = none) →
  (kib ≤ d.carve ∨ carveBlocked s die kib = false) → (∃ l ∈ d.cache, l.dirty = true) →
    Happens (.carveChange die kib) s (s.updDie die fun d => { d with
      cache := [], backs := d.backs ++ (d.cache.filter (·.dirty)).map (·.addr), carveWant := some kib, pfWant := [] })) ∧
  (d.fills = [] → (∀ c ∈ s.cores, dieOf c.1 = die → c.2.launch = none) →
  (kib ≤ d.carve ∨ carveBlocked s die kib = false) → (∀ l ∈ d.cache, l.dirty = false) → d.backs = [] →
  ∃ t : State, Happens (.carveChange die kib) s t ∧ (t.die die).carve = kib ∧ (t.die die).cache = [] ∧
    (t.die die).carveWant = none ∧
    (d.carve ≤ kib → t.mem = s.mem) ∧
    (kib < d.carve → ∀ i, i < 1024 →
      (t.bank (die * 1024 + i)).owed = (s.bank (die * 1024 + i)).owed + (d.carve - kib) * 4) ∧
    ∀ a, let at' := localOf a % 2 ^ 20
      let out := isSram a = true ∧ pkgOf a = s.pkg ∧ localOf a / 2 ^ 30 = die ∧ 2 ^ 20 - d.carve * 1024 ≤ at' ∧
        at' < 2 ^ 20 - kib * 1024
      (kib < d.carve → out → readByte t.mem a = 0) ∧ (¬out → readByte t.mem a = readByte s.mem a))

/-- R208: a corrected word is rewritten on a grant of the firmware class. -/
def Clauses.CorrectedWordsAreRewritten : Prop := ∀ (s : State) (pa home : Nat),
  homeTile s pa = some home → isSram pa = true → s.corrected.contains (pa / 8) = true → classTurn s home 5 = true →
  ∃ t : State, Happens (.scrubberRewrite pa) s t ∧ t = { s with banks := t.banks, corrected := t.corrected } ∧
    t.corrected = s.corrected.filter (· ≠ pa / 8)

/-- R208, Table 9-6: a soft error of memory counts at its home where it is corrected, and poisons its word where it is
not; of a register counts, or marks its word, which ends the thread that reads it; of an accumulator poisons its word; of
firmware state stops the package.
(Log entries 19, 47.) -/
def Clauses.SoftErrorsStrike : Prop := ∀ (s : State),
  (∀ pa home, homeTile s pa = some home →
    (∃ t : State, Happens (.softError (.memory pa) true) s t ∧ t.poison.contains (pa / 8) = true ∧ t = { s with poison := t.poison }) ∧
    (isSram pa = true → ∃ t : State, Happens (.softError (.memory pa) false) s t ∧ t.corrected.contains (pa / 8) = true ∧
      (t.core home).ce[0] = (s.core home).ce[0] + 1 ∧ t.mem = s.mem)) ∧
  (∀ g home, homeTile s (g * 64) = some home → isSram (g * 64) = true →
    (∃ t : State, Happens (.softError (.tag g) true) s t ∧ t = { s with tags := t.tags, free := s.free + 1 }) ∧
    (∃ t : State, Happens (.softError (.tag g) false) s t ∧ (t.core home).ce[3] = (s.core home).ce[3] + 1 ∧
      t.tags = s.tags)) ∧
  (∀ tile slot word, tile < 4096 → slot < 16 → word < 224 →
    (∃ t : State, Happens (.softError (.register tile slot word) false) s t ∧ (t.core tile).ce[1] = (s.core tile).ce[1] + 1 ∧
      t.threads = s.threads) ∧
    (let key := keyOf tile slot
    ∃ t : State, Happens (.softError (.register tile slot word) true) s t ∧ t = { s with threads := t.threads } ∧
      (t.thr key).regs.lost.contains word = true ∧
      t.thr key = { s.thr key with regs := { (s.thr key).regs with lost := (t.thr key).regs.lost } } ∧
      ∀ k, k ≠ key → t.thr k = s.thr k)) ∧
  (∀ tile acc row col, tile < 4096 → acc < 8 → row < 16 → col < 64 →
    (∃ t : State, Happens (.softError (.accumulator tile acc row col) true) s t ∧
      (t.core tile).accBad.contains (accIdx acc row col) = true ∧ t.threads = s.threads) ∧
    (∃ t : State, Happens (.softError (.accumulator tile acc row col) false) s t ∧
      (t.core tile).ce[2] = (s.core tile).ce[2] + 1)) ∧
  (Happens (.softError .firmware false) s s) ∧
  (∃ t : State, Happens (.softError .firmware true) s t ∧ t.fatal = some 4)

/-- R22, R171, R172, R208, Tables 8-6 and 9-6: budgets, the prefetcher's control, the carve and soft errors. -/
def Obligations.BanksCarvesAndSoftErrors : Prop :=
  Clauses.PeriodsGiveBudgets ∧ Clauses.BankbudIsChecked ∧ Clauses.PfctlIsWritten ∧ Clauses.CarvesChange ∧
  Clauses.CorrectedWordsAreRewritten ∧ Clauses.SoftErrorsStrike

/-! ## Package reset, time, boot, updates and fatal stops (spec/07 R161 to R168, spec/09 R216 to R219, spec/01) -/

/-- R21, R161, R175: package reset leaves every field at its reset value, with the package's number, pod, ports, routing and
shadow reserve as bring-up gives them; host memory and the raised minimum version stay. It takes a package that has stopped,
too (R219).
(Log entries 23, 52, 82.) -/
def Clauses.ResetLeavesTheResetState : Prop := ∀ (s : State) (b : BringUp),
  b.pkg < 256 → b.roles.length ≤ 12 → b.pod.contains b.pkg = true →
  (∀ r ∈ b.routing, ∃ i, r.2 = i ∧ i < 12 ∧ b.roles.getD i (if i < 8 then .drawer else .peer) = .peer) →
  ∃ t : State, exec (.packageReset b) s = .next t ∧ t = { State.reset with
      pkg := b.pkg, pod := b.pod, ports := t.ports, routing := b.routing, hostMem := s.hostMem, reserve := b.reserve,
      boot := { Boot.reset with minSvn := s.boot.minSvn } } ∧
    ∀ i, i < 12 → (t.port i).role = b.roles.getD i (if i < 8 then .drawer else .peer) ∧ (t.port i).trained = false ∧
      (t.port i).fifo = [] ∧ (t.port i).outTab = [] ∧ (t.port i).inTab = []

/-- R29: the time base is set once, to a time that it has not passed, and slews by at most 100 ppm.
(Log entry 24.) -/
def Clauses.TheTimeBaseIsSet : Prop := ∀ (s : State),
  (∀ ns, s.tbSet = false → s.ptb ≤ ns →
    Happens (.timeBaseSet ns) s { s with ptb := ns, sub := 0, tbSet := true, frame := ns / 2048 }) ∧
  (∀ ppm : Int, s.tbSet = true → -100 ≤ ppm → ppm ≤ 100 → Happens (.timeBaseDiscipline ppm) s { s with slew := ppm })

/-- R161 to R166, Tables 7-8 and 7-10: BOOTDB keeps its fields. With GO, while the boot ROM waits, a range beyond the
firmware SRAM leaves FWLOCK clear, STATE 0x10 and GO clear; any other is written to FWLOCK, with STATE 0x01 while the boot
ROM verifies, for as long as it takes. Then an image that fails its checks leaves their state and its bytes zero, while one
that passes runs, its secret hidden and its identities derived.
(Log entries 3, 7, 53.) -/
def Clauses.BootdbStartsTheBoot : Prop := ∀ (s : State) (value : Word),
  let v := value &&& 0x800007FF000007FF#64
  let beyond := 1536 < v.toNat % 2 ^ 11 + v.toNat / 2 ^ 32 % 2 ^ 11
  (v.getLsbD 63 = false ∨ s.boot.state ≠ 0 ∧ s.boot.state ≠ 0x10 →
    Happens (.bootdb value) s { s with boot := { s.boot with bootdb := v } }) ∧
  (v.getLsbD 63 = true → s.boot.state = 0 ∨ s.boot.state = 0x10 →
    (beyond → Happens (.bootdb value) s
      { s with boot := { s.boot with bootdb := v &&& 0x7FFFFFFFFFFFFFFF#64, state := 0x10 } }) ∧
    (¬beyond → ∃ due, s.ptb ≤ due ∧ due ≤ s.ptb + 2 * 10 ^ 9 ∧ Happens (.bootdb value) s { s with
      free := s.free + 1
      boot := { s.boot with
        bootdb := v, fwlock := v, state := 0x01, udsHidden := false, verify := some ⟨0, due, false⟩ } })) ∧
  (∀ x, s.boot.verify = some x →
    let base := carveOff s + x.off
    let st := verifyImage s base (carveLen s - x.off)
    let t := romStep s
    (s.ptb < x.due → t = s) ∧
    (x.due ≤ s.ptb → st ≠ 0x02 → t.boot.state = st ∧ t.boot.fwlock = s.boot.fwlock ∧ t.boot.verify = none ∧
      t.boot.udsHidden = false ∧ t.boot.ident = none ∧
      ∀ a, readByte t.mem a = if fwAddr s (carveOff s) ≤ a ∧ a < fwAddr s (carveOff s) + carveLen s then 0
        else readByte s.mem a) ∧
    (x.due ≤ s.ptb → st = 0x02 → t.boot.state = 0x02 ∧ t.boot.fwlock = s.boot.fwlock ∧ t.boot.verify = none ∧
      t.boot.udsHidden = true ∧ t.mem = s.mem ∧
      t.boot.ident = some (deriveCrown (imgMeasure s base) (imgField s base 0x018 4))))

/-- R163: the fused minimum version rises to the running image's, and never falls. -/
def Clauses.TheMinimumVersionRises : Prop := ∀ (s : State) (id : Identity), s.boot.ident = some id → fwUp s = true →
  Happens .svnRaise s { s with boot := { s.boot with minSvn := max s.boot.minSvn id.svn } }

/-- R217: after 100 ms without service the watchdog's expiry restarts the firmware with its running image, the cores going on;
a second within 10 s stops the package with cause 5.
(Log entry 53.) -/
def Clauses.WatchdogsExpire : Prop := ∀ s : State, fwUp s = true → s.boot.service + 10 ^ 8 ≤ s.ptb →
  ((∀ x ∈ s.boot.watchdog, x + 10 ^ 10 < s.ptb) → ∃ t : State, Happens .watchdogExpiry s t ∧
    t.boot.restarts = s.boot.restarts + 1 ∧ t.boot.state = 0x01 ∧ t.fatal = s.fatal ∧ t.threads = s.threads ∧
    t.cores = s.cores ∧ t.mem = s.mem) ∧
  (∀ x ∈ s.boot.watchdog, s.ptb ≤ x + 10 ^ 10 → ∃ t : State, Happens .watchdogExpiry s t ∧ t.fatal = some 5)

/-- R218, Table 9-8: an activation record with a reserved field is answered 4, one whose staged bytes meet the carve-out 2,
one without room for its copy 5, one whose image fails 1; a good one is copied and waits. It proceeds once no saved
launch's layout is missing from its list, and is answered 3 after 10 s of waiting for that.
(Log entry 53.) -/
def Clauses.ActivationsAreAnswered : Prop := ∀ (s : State) (ws : List Word),
  let answered := fun (t : State) (n : Nat) => tfind t.mail activationOff = some (ws.take 7 ++ [BitVec.ofNat 64 n])
  let meets := actBase ws < carveOff s + carveLen s ∧ carveOff s < actBase ws + actSize ws
  fwUp s = true →
  (ws.length = 8 → s.boot.activation = none →
    (actReserved ws = true → ∃ t, Happens (.activationRecord ws) s t ∧ answered t 4 ∧ t.mem = s.mem) ∧
    (actReserved ws = false → meets → ∃ t, Happens (.activationRecord ws) s t ∧ answered t 2 ∧ t.mem = s.mem) ∧
    (actReserved ws = false → ¬meets → copyPlace s (actSize ws) = none →
      ∃ t, Happens (.activationRecord ws) s t ∧ answered t 5 ∧ t.mem = s.mem) ∧
    (∀ off, actReserved ws = false → ¬meets → copyPlace s (actSize ws) = some off →
      let base := carveOff s + off
      let u := { s with mem := writeBytes s.mem (fwAddr s base) (stagedBytes s ws) }
      (verifyImage u base (actSize ws) ≠ 0x02 → ∃ t, Happens (.activationRecord ws) s t ∧ answered t 1) ∧
      (verifyImage u base (actSize ws) = 0x02 → ∃ t, Happens (.activationRecord ws) s t ∧
        t.boot.activation = some ⟨off, actSize ws, s.ptb, layoutsOf u base⟩ ∧ t.mem = u.mem))) ∧
  (∀ a : Activation, s.boot.activation = some a →
    (layoutsHeld s a.layouts = true → ∃ t, Happens .activationProceed s t ∧ t.boot.activation = none ∧
      t.boot.restarts = s.boot.restarts + 1) ∧
    (layoutsHeld s a.layouts = false → a.since + 10 ^ 10 ≤ s.ptb → tfind s.mail activationOff = some ws →
      ∃ t, Happens .activationDeferralTimeout s t ∧ t.boot.activation = none ∧ answered t 3))

/-- R219: a dump range of whole 4 KiB pages is registered, answer 0; any other is answered 1. -/
def Clauses.DumpsAreRegistered : Prop := ∀ (s : State) (ws : List Word), ws.length = 8 → fwUp s = true →
  let good := wordAt ws 0 % 4096 = 0 ∧ wordAt ws 1 % 4096 = 0
  ∃ t : State, Happens (.dumpRegistration ws) s t ∧ t = { s with mail := t.mail, dump := t.dump } ∧
    (good → t.dump = some ⟨wordAt ws 0, wordAt ws 1⟩ ∧ tfind t.mail dumpOff = some (ws.take 7 ++ [0])) ∧
    (¬good → t.dump = s.dump ∧ tfind t.mail dumpOff = some (ws.take 7 ++ [1]))

/-- R30, R219, Table 9-9: a thermal trip stops the package with cause 1, a supply fault with cause 2: the physical
function's interrupt is raised, and the header of the dump alone is written.
(Log entry 17.) -/
def Clauses.TripsStopThePackage : Prop := ∀ (s : State),
  let stops := fun (i : Instr) (cause : Nat) => ∃ t : State, Happens i s t ∧ t.fatal = some cause ∧
    t.pfIrqs = s.pfIrqs + 1 ∧ t.mem = s.mem ∧ t.threads = s.threads ∧ (s.dump = none → t.hostMem = s.hostMem) ∧
    ∀ d, s.dump = some d → 0x28 ≤ d.size → t.hostMem = writeBytes s.hostMem d.addr
      (leBytes 4 0x504D5544 ++ leBytes 4 cause ++ leBytes 8 s.ptb ++ leBytes 8 0x28 ++ leBytes 8 0 ++ leBytes 8 0)
  stops .thermalTrip 1 ∧ stops .supplyFault 2

/-- R146, R161, R162, R168: a host access through the firmware window. Within the locked carve-out and the page tables a read
gives ones and a write is dropped, and each counts in VIOL, which saturates; elsewhere they read and write firmware SRAM, and
behind it the 512-byte context mailbox block of the physical function.
(Log entry 3.) -/
def Clauses.TheWindowKeepsTheCarveOut : Prop := ∀ (s : State) (off : Nat) (v : Byte),
  let inside := s.boot.fwlock.getLsbD 63 = true ∧ carveOff s ≤ off ∧ off < carveOff s + carveLen s ∨
    Config.supOff - s.tableNext * 4096 ≤ off ∧ off < Config.supOff
  (∃ t : State, Happens (.firmwareWindowAccess (.read bootstOff)) s t ∧ t = { s with mail := t.mail } ∧
    tfind t.mail bootstOff = some [BitVec.ofNat 64 (s.boot.viol.toNat * 2 ^ 32 + s.boot.state % 256)]) ∧
  (off < Config.fwBytes → off ≠ bootstOff →
  (inside → (∃ t : State, Happens (.firmwareWindowAccess (.read off)) s t ∧ tfind t.mail off = some [0xFF] ∧
      t.boot.viol.toNat = min (s.boot.viol.toNat + 1) (2 ^ 32 - 1) ∧ t.mem = s.mem) ∧
    ∃ t : State, Happens (.firmwareWindowAccess (.write off v)) s t ∧ t.mem = s.mem ∧
      t.boot.viol.toNat = min (s.boot.viol.toNat + 1) (2 ^ 32 - 1)) ∧
  (¬inside → (∃ t : State, Happens (.firmwareWindowAccess (.read off)) s t ∧ t = { s with mail := t.mail } ∧
      tfind t.mail off = some [BitVec.ofNat 64 (readByte s.mem (fwAddr s off)).toNat]) ∧
    Happens (.firmwareWindowAccess (.write off v)) s { s with mem := writeByte s.mem (fwAddr s off) v })) ∧
  (∀ i, i < 512 →
    (∃ t : State, Happens (.firmwareWindowAccess (.read (0x06002000 + i))) s t ∧ t = { s with mail := t.mail } ∧
      tfind t.mail (0x06002000 + i) = some [BitVec.ofNat 64 (s.boxByte 0 i).toNat]) ∧
    ∃ t : State, Happens (.firmwareWindowAccess (.write (0x06002000 + i) v)) s t ∧ t = { s with boxes := t.boxes } ∧
      t.boxByte 0 i = v ∧ ∀ k j, k ≠ 0 ∨ j ≠ i ∧ j < 512 → t.boxByte k j = s.boxByte k j)

/-- R168, Table 7-11: a quote holds the context, the time, the nonce, the measurements of Crown and Brim, the context's
configuration and the user's data, signed by the Brim, with the three certificates. The request stands in the context's
attestation mailbox; one that comes while the firmware restarts waits there.
(Log entries 7, 88.) -/
def Clauses.QuotesAreWritten : Prop := ∀ (s : State) (ctx addr : Nat) (nonce user : List Byte),
  (s.ctx ctx).live = true → nonce.length = 48 → user.length = 64 → addr < 2 ^ 64 →
  let asks := fun (due : Bool) (t : State) =>
    t.ctx ctx = { s.ctx ctx with quoteDue := due } ∧ (∀ k, k ≠ ctx → t.ctx k = s.ctx k) ∧
    t.attest ctx = nonce ++ user ++ leBytes 8 addr ++ List.replicate 136 0 ∧ t.obs ctx = s.obs ctx ∧
    t.callBox ctx = s.callBox ctx ∧ ∀ k i, k ≠ ctx → t.boxByte k i = s.boxByte k i
  (fwUp s = false → ∃ t : State, Happens (.attestationQuote ctx nonce user addr) s t ∧ asks true t ∧
    t = { s with ctxs := t.ctxs, boxes := t.boxes }) ∧
  (∀ (id : Identity) (b : BrimId), s.boot.ident = some id → tfind s.boot.brims ctx = some b → fwUp s = true →
    let q := leBytes 4 1 ++ leBytes 4 ctx ++ leBytes 8 s.ptb ++ nonce ++ id.mc ++ b.mb ++ b.cfg ++ user
    let quote := q ++ ecdsaSign b.key (sha384 q) ++ Config.deviceIdCert ++ id.crnCert ++ b.cert
    ∃ t : State, Happens (.attestationQuote ctx nonce user addr) s t ∧ asks false t ∧
      t = { s with ctxs := t.ctxs, boxes := t.boxes, hostMem := writeBytes s.hostMem addr quote })

/-- R21, R29, R30, R161 to R168, R175, R217 to R219: reset, time, boot, updates, attestation and fatal stops. -/
def Obligations.BootAndFirmwareActAsTheirRulesSay : Prop :=
  Clauses.ResetLeavesTheResetState ∧ Clauses.TheTimeBaseIsSet ∧ Clauses.BootdbStartsTheBoot ∧
  Clauses.TheMinimumVersionRises ∧ Clauses.WatchdogsExpire ∧ Clauses.ActivationsAreAnswered ∧
  Clauses.DumpsAreRegistered ∧ Clauses.TripsStopThePackage ∧ Clauses.TheWindowKeepsTheCarveOut ∧
  Clauses.QuotesAreWritten

/-! ## Contexts and host rings (spec/07 R143, R160; spec/06 R119 to R125; spec/09 R215) -/

/-- R143, Table 7-2: a creation record is answered in its word 7, by the first check that fails: 1 the context exists, 2 a
field is wrong, 3 its allotment is not free, 4 its key is not. Answer 0: the context lives with the record's key and
allotment, its context hold granted (R107), its mailboxes empty, and the pages that are asked for with it are mapped (R146). A page
of generation 0 that a live context asks for again is zeroed and mapped anew (R154).
(Log entries 20, 54, 113.) -/
def Clauses.ContextsAreCreated : Prop := ∀ (s : State) (ws : List Word) (pages : List MapPage),
  let c := crCtx ws
  let a := if c ≤ 16 ∧ ctxExists s c = true then 1 else if creationBad ws = true then 2 else if allotOver s ws = true then 3
    else if keyOk s (crKey ws) = false then 4 else 0
  ws.length = 8 → fwUp s = true →
  (∀ p, a = 1 → ctxLasts s c = true → pages = [p] → renewOk s c p = true →
    let u := zeroFrame (shootDown s c p.va (2 ^ p.log)) p.pa (2 ^ p.log)
    (∀ x, p.pa ≤ x → x < p.pa + 2 ^ p.log → readByte u.mem x = 0) ∧
    ∃ t : State, Happens (.contextCreation ⟨ws, pages⟩) s t ∧ tfind t.mail creationOff = some (ws.take 7 ++ [1]) ∧
      t = { mapPage u c p.va p.pa p.log p.gen p.r p.w p.x with mail := t.mail }) ∧
  (pagesFit s pages = true → (a = 1 → pages = [] ∨ pages.all (renewOk s c) = false) →
    ∃ t : State, Happens (.contextCreation ⟨ws, pages⟩) s t ∧
    tfind t.mail creationOff = some (ws.take 7 ++ [BitVec.ofNat 64 a]) ∧
    (a ≠ 0 → t = { s with mail := t.mail }) ∧
    (a = 0 → (t.ctx c).live = true ∧ (t.ctx c).pkey = BitVec.ofNat 16 (crKey ws) ∧ (t.ctx c).cores = crCores ws ∧
      (t.ctx c).sramb = wordAt ws 2 ∧ (t.ctx c).drawb = wordAt ws 3 ∧ (t.ctx c).clife = wordAt ws 4 ∧
      (∀ i, t.boxByte c i = 0) ∧ (∀ k, k ≠ c → t.ctx k = s.ctx k) ∧
      ∃ h, t.hold c 0 = some h ∧ h.live = true ∧ h.kind = .context ∧ h.granted = s.ptb ∧
        h.expiry = s.ptb + max 1024 (min (wordAt ws 4) 60000000000)))

/-- R215: a context's end: what it runs is stopped at once, and once its accesses have completed or failed and its engines stand
between items, every launch of it has ended, nothing of its threads and engines is under way, and neither it nor its ring
lives.
(Log entry 56.) -/
def Clauses.ContextsEnd : Prop := ∀ (s : State) (ctx : Nat),
  let u := if (s.ctx ctx).ending then s else beginEnd s ctx
  let tiles := ((openLaunches u ctx).map (boundTiles u)).flatten
  (s.ctx ctx).live = true → fwUp s = true →
  ((∃ tile ∈ tiles, coreWaitsLate u tile = true) → Happens (.contextEnd ctx) s (tiles.foldl stopWaits u)) ∧
  ((∀ tile ∈ tiles, coreWaitsLate u tile = false) → (s.ctx ctx).ending = false → ctxStands u ctx = false → Happens (.contextEnd ctx) s u ∧ (u.ctx ctx).ending = true ∧
    ∀ lid ∈ openLaunches s ctx, ∀ tile ∈ boundTiles s lid, (u.core tile).stopping = true) ∧
  ((∀ tile ∈ tiles, coreWaitsLate u tile = false) → ctxStands u ctx = true → ∃ t : State, Happens (.contextEnd ctx) s t ∧ (t.ctx ctx).live = false ∧ (t.ctx ctx).ring = none ∧
    (∀ r ∈ t.reqs, r.inCtx ctx = false) ∧ (∀ k, tfind t.boot.brims ctx ≠ some k) ∧
    ∀ lid l, tfind s.launches lid = some l → l.ctx = ctx → (t.launch lid).state = .ended)

/-- R119, Table 6-1: a ring registration is answered in its word 7; answer 0: the ring is read from its record 0 on. -/
def Clauses.RingsAreRegistered : Prop := ∀ (s : State) (ws : List Word),
  let c := wordAt ws 5 % 2 ^ 5
  let bad := wordAt ws 0 % 64 ≠ 0 ∨ wordAt ws 1 % 8 ≠ 0 ∨ wordAt ws 2 % 16 ≠ 0 ∨ wordAt ws 3 < 4 ∨ 16 < wordAt ws 3 ∨
    wordAt ws 4 < 1000 ∨ 10 ^ 9 < wordAt ws 4 ∨ wordAt ws 5 / 2 ^ 5 ≠ 0 ∨ wordAt ws 6 ≠ 0
  let a := if ctxLasts s c = false then 1 else if bad then 2 else if (s.ctx c).ring ≠ none then 3 else 0
  ws.length = 8 → fwUp s = true → ∃ t : State, Happens (.ringRegistration ws) s t ∧
    tfind t.mail ringOff = some (ws.take 7 ++ [BitVec.ofNat 64 a]) ∧ t = { s with mail := t.mail, ctxs := t.ctxs } ∧
    (a ≠ 0 → t.ctxs = s.ctxs) ∧
    (a = 0 → (t.ctx c).ring = some ⟨wordAt ws 0, wordAt ws 1, wordAt ws 2, wordAt ws 3, wordAt ws 4, 0, s.ptb⟩)

/-- What taking `n` records leaves (R119, R122): the read index moved on and published beside ABANDON. -/
def Clauses.taken (s t : State) (ctx n lost : Nat) (r : Ring) : Prop :=
  (t.ctx ctx).ring = some { r with rd := r.rd + n, waitSince := s.ptb } ∧ (t.ctx ctx).abandon = (s.ctx ctx).abandon + lost ∧
    readWord t.hostMem r.rdAddr = BitVec.ofNat 64 (r.rd + n) ∧
    readWord t.hostMem (r.rdAddr + 8) = BitVec.ofNat 64 ((s.ctx ctx).abandon + lost) ∧
    (∀ a, a < r.rdAddr ∨ r.rdAddr + 16 ≤ a → readByte t.hostMem a = readByte s.hostMem a) ∧ t.mem = s.mem ∧
    t.launches = s.launches ∧ t.threads = s.threads

/-- R121, R122, Table 6-3: a no-op's NREC records are passed over; a continuation alone at the head is passed over and
counted in ABANDON, as is a group of an unassigned type, and a reserved record that CTO passes without its commit. (Both
memories are in their canonical form, which every step keeps.)
(Log entry 55.) -/
def Clauses.RecordsArePassedOver : Prop := ∀ (s : State) (ctx : Nat) (r : Ring) (ws : List Word), MemOk s →
  let ty := hType (ws.getD 0 0)
  let n := max 1 (bitsOf (ws.getD 0 0).toNat 23 16)
  (headRecord s ctx = some (r, ws) → ty = 0x04 → ∃ t, Happens (.noOpRecord ctx) s t ∧ Clauses.taken s t ctx n 0 r) ∧
  (headRecord s ctx = some (r, ws) → ty = 0xFF → ∃ t, Happens (.continuationRecord ctx) s t ∧ Clauses.taken s t ctx 1 1 r) ∧
  (headRecord s ctx = some (r, ws) → 5 ≤ ty → ty ≠ 0xFF →
    ∃ t, Happens (.unassignedRecord ctx) s t ∧ Clauses.taken s t ctx n 1 r) ∧
  ((s.ctx ctx).ring = some r → fwUp s = true → committed s r r.rd = false → r.rd < (readWord s.hostMem r.resAddr).toNat →
    r.waitSince + r.cto ≤ s.ptb → ∃ t, Happens (.commitTimeout ctx) s t ∧ Clauses.taken s t ctx 1 1 r)

/-- R123: a heartbeat gives the context hold its new life, within 1,024 ns and 60 s. (Both memories are in their
canonical form.) -/
def Clauses.HeartbeatsRenew : Prop := ∀ (s : State) (ctx : Nat) (r : Ring) (ws : List Word) (h : Hold), MemOk s →
  headRecord s ctx = some (r, ws) → hType (ws.getD 0 0) = 0x03 → s.hold ctx 0 = some h →
  (h.live = true → ∃ t, Happens (.heartbeat ctx) s t ∧ Clauses.taken s t ctx 1 0 r ∧
    t.hold ctx 0 = some { h with expiry := ctxNow s ctx + max 1024 (min (wordAt ws 1) 60000000000) }) ∧
  (h.live = false → ws.getD 2 0 = 0 → ∃ t, Happens (.heartbeat ctx) s t ∧ Clauses.taken s t ctx 1 0 r ∧
    t.hold ctx 0 = some h)

/-- R121, R122, R124, R125: a launch record is taken with its continuation, once both are committed. A launch that passes the checks stands last in its
context's FIFO; one that does not is reported with the code of the first check that fails, its word and TAG at DONE, or
is counted in ABANDON where it names no DONE. (Both memories are in their canonical form.)
(Log entry 55.) -/
def Clauses.LaunchRecordsAreChecked : Prop := ∀ (s : State) (ctx : Nat) (r : Ring) (ws : List Word) (i : Instr) (pipe : Bool),
  MemOk s →
  let h := ws.getD 0 0
  let h1 := (recordWords s r (r.rd + 1)).getD 0 0
  let p := ringPayload s r
  let code := rejectCode s ctx pipe (hReserved h || hReserved h1 || hNrec h != 2 || hType h1 != 0xFF) p
  headRecord s ctx = some (r, ws) →
  (i = .gridLaunchRecord ctx ∧ pipe = false ∧ hType h = 0x01) ∨ (i = .pipelineLaunchRecord ctx ∧ pipe = true ∧ hType h = 0x02) →
  (code = none → ∃ t, Happens i s t ∧ (t.ctx ctx).fifo = (s.ctx ctx).fifo ++ [s.nextId] ∧
    (t.ctx ctx).ring = some { r with rd := r.rd + 2, waitSince := s.ptb } ∧ (t.launch s.nextId).state = .queued ∧
    (t.launch s.nextId).ctx = ctx ∧ (t.launch s.nextId).pipe = pipe ∧ (t.launch s.nextId).payload = p ∧
    (t.launch s.nextId).tag = hTag h ∧ (t.launch s.nextId).depth = 0 ∧ t.mem = s.mem) ∧
  (∀ c, code = some c → pDone p = 0 → bitOf (pDctl p) 19 = false → ∃ t, Happens i s t ∧ Clauses.taken s t ctx 2 1 r ∧
    (t.ctx ctx).fifo = (s.ctx ctx).fifo) ∧
  (∀ c pa, code = some c → pDone p ≠ 0 → ptrVa (pDone p) % 16 = 0 → walkCheck s ctx (pDone p) (ptrVa (pDone p)) needW = .ok pa →
    pkgOf pa = s.pkg → ∃ t, Happens i s t ∧ (t.ctx ctx).fifo = (s.ctx ctx).fifo ∧ t.launches = s.launches ∧
      readWord t.mem pa = BitVec.ofNat 64 (2 ^ 57 + c * 2 ^ 48) ∧ readWord t.mem (pa + 8) = BitVec.ofNat 64 (hTag h) ∧
      ∀ a, a < pa ∨ pa + 16 ≤ a → readByte t.mem a = readByte s.mem a)

/-- R356: the driver's answer reaches the thread that waits for its call, and the next queued call is posted. -/
def Clauses.CallsAreAnswered : Prop := ∀ (s : State) (ctx tile : Nat) (answer : Word) (c : Call),
  let key := keyOf tile c.slot
  (s.ctx ctx).posted = some c → (s.ctx ctx).orphan = false → (s.launch c.lid).tiles[c.index]? = some tile →
  (s.core tile).launch = some c.lid → (s.thr key).live = true → (s.thr key).wait = some .call →
  ∃ t, Happens (.callDone ctx answer) s t ∧ t.thr key = { s.thr key with got := some (.words [answer]), wait := none } ∧
    (∀ k, k ≠ key → t.thr k = s.thr k) ∧ (t.ctx ctx).posted = (s.ctx ctx).calls.head? ∧
    (t.ctx ctx).calls = (s.ctx ctx).calls.tail ∧ t.mem = s.mem

/-- R119 to R125, R143, R215, R356: contexts, rings, records and calls. -/
def Obligations.ContextsAndRingsAreServed : Prop :=
  Clauses.ContextsAreCreated ∧ Clauses.ContextsEnd ∧ Clauses.RingsAreRegistered ∧ Clauses.RecordsArePassedOver ∧
  Clauses.HeartbeatsRenew ∧ Clauses.LaunchRecordsAreChecked ∧ Clauses.CallsAreAnswered

/-! ## Dispatch, completion, pre-emption and migration (spec/06 R126 to R133; spec/09 R205 to R207) -/

/-- R126, R127, Table 1-6: the head of a context's FIFO, in its turn, is bound to free cores that its PLACE and the
context's allotment admit: each core holds it at its index, with slot 0 live at its entry, PARAM, its index and NCORE in s1 to
s3, and no other slot live. Its rotation table has the entries of slots 13 to 15 that every launch has (R170).
(Log entry 13.) -/
def Clauses.LaunchesAreDispatched : Prop := ∀ (s : State) (ctx id : Nat) (rest cores : List Nat) (rot : List Word),
  let l := s.launch id
  (s.ctx ctx).fifo = id :: rest → fwUp s = true → s.tbSet = true → (s.ctx ctx).live = true →
  (s.ctx ctx).ending = false → l.state = .queued → fwEntriesOk s (Vector.ofFn fun i => rot.getD i.val 0) = true →
  cores.length = l.ncores → cores.Nodup → (∀ t ∈ cores, t < 4096 ∧ coreFree s t = true) →
  placeOk (shPlace l.payload) cores = true → coresUsed s ctx + l.ncores ≤ (s.ctx ctx).cores →
  rottabOk (Vector.ofFn fun i => rot.getD i.val 0) = true → turnOf s ctx = true →
  ∃ t : State, Happens (.launchDispatch ctx cores rot) s t ∧ t.mem = s.mem ∧ (t.ctx ctx).fifo = rest ∧ t.served = ctx ∧
    (t.launch id).state = .running ∧ (t.launch id).tiles = cores ∧
    (∃ w, t.fwRot = some w ∧ ∀ v, s.fwRot = some v → w = v) ∧
    ∀ (i tile : Nat), cores[i]? = some tile →
      (t.core tile).launch = some id ∧ (t.core tile).index = i ∧ (∀ k, 0 < k → k < 16 → t.thr (keyOf tile k) = Thread.reset) ∧
      let x := t.thr (keyOf tile 0)
      x.live = true ∧ x.pc = codeAddr (stageOf l.stages i) ∧ x.regs.rs 1 = pParam l.payload ∧
        x.regs.rs 2 = BitVec.ofNat 64 i ∧ x.regs.rs 3 = BitVec.ofNat 64 l.ncores ∧
        x.dlEn = (pDeadline l.payload).getLsbD 63 ∧ x.fpctl = BitVec.ofNat 4 (pCtl l.payload)

/-- R132, R133: a core whose `done` has ended, with its children's words in, is freed: its word, combined with theirs,
goes to its parent, and at the root ends the launch, which is reported or replayed (R213).
(Log entry 60.) -/
def Clauses.CoresComplete : Prop := ∀ (s : State) (tile lid : Nat),
  let l := s.launch lid
  let i := (s.core tile).index
  let own := coreWord (s.core tile)
  let w := match tfind l.words i with | some x => combine x own | none => own
  (s.core tile).launch = some lid → coreEnded s tile = true → slotHalted s (keyOf tile 0) = false →
  (∀ k, k < 4 → 4 * i + 1 + k < l.ncores → l.joined.contains (4 * i + 1 + k) = true) →
  (i ≠ 0 → ∃ t, Happens (.coreCompletion tile) s t ∧ (t.core tile).launch = none ∧ (t.thr (keyOf tile 0)).live = false ∧
    t.launch lid = { l with inFlight := l.inFlight ++ [(i, w)], chans := (t.launch lid).chans } ∧
    ((∀ c ∈ l.chans, c.wTile ≠ tile ∧ c.rTile ≠ tile) → (t.launch lid).chans = l.chans) ∧ t.mem = s.mem) ∧
  (i = 0 → replayable l (combine w (launchWord l)) = false → ∃ t, Happens (.coreCompletion tile) s t ∧
    (t.core tile).launch = none ∧ (t.launch lid).state = .ended ∧
    (t.launch lid).finalWord = some (combine w (launchWord l)) ∧ (t.launch lid).tiles = []) ∧
  (i = 0 → replayable l (combine w (launchWord l)) = true → ∃ t, Happens (.coreCompletion tile) s t ∧
    (t.core tile).launch = none ∧ (t.launch lid).state = .queued ∧ (t.launch lid).replays = l.replays + 1 ∧
    (t.launch lid).shadows = [] ∧ (t.ctx l.ctx).fifo = lid :: (s.ctx l.ctx).fifo)

/-- R133: a child's word is combined at its parent: ERR bits ored, WORST the greater, LOST and the count summed and
saturated. -/
def Clauses.WordsAreCombined : Prop := ∀ (s : State) (lid child : Nat) (x : Word),
  let l := s.launch lid
  l.inFlight.find? (fun y => y.1 == child) = some (child, x) →
  ∃ (t : State) (w : Word), Happens (.statusWordFromChild lid child) s t ∧ t = { s with launches := t.launches } ∧
    t.launch lid = { l with
      inFlight := l.inFlight.filter fun y => y.1 != child
      words := tset l.words ((child - 1) / 4) w
      joined := l.joined ++ [child] } ∧
    (tfind l.words ((child - 1) / 4) = none → w = x) ∧
    ∀ y, tfind l.words ((child - 1) / 4) = some y →
      w.toNat / 2 ^ 56 = (x ||| y).toNat / 2 ^ 56 ∧
      w.toNat / 2 ^ 48 % 2 ^ 8 = max (x.toNat / 2 ^ 48 % 2 ^ 8) (y.toNat / 2 ^ 48 % 2 ^ 8) ∧
      w.toNat / 2 ^ 32 % 2 ^ 16 = min (x.toNat / 2 ^ 32 % 2 ^ 16 + y.toNat / 2 ^ 32 % 2 ^ 16) (2 ^ 16 - 1) ∧
      w.toNat % 2 ^ 32 = min (x.toNat % 2 ^ 32 + y.toNat % 2 ^ 32) (2 ^ 32 - 1)

/-- R205: pre-emption: the Crown stops every core of a running launch; what a thread has come to wait for since is taken back; once
all stand still their state is saved, and the cores are free.
(Log entry 57.) -/
def Clauses.LaunchesArePreempted : Prop := ∀ (s : State) (lid : Nat),
  let tiles := boundTiles s lid
  fwUp s = true → (s.launch lid).state = .running → tiles ≠ [] →
  ((∃ k ∈ tiles, (s.core k).stopping = false) → ∃ t, Happens (.preempt lid) s t ∧
    ∀ k ∈ tiles, (t.core k).stopping = true ∧ (t.core k).launch = (s.core k).launch) ∧
  ((∀ k ∈ tiles, (s.core k).stopping = true) → (∃ k ∈ tiles, coreWaitsLate s k = true) →
    Happens (.preempt lid) s (tiles.foldl stopWaits s)) ∧
  ((∀ k ∈ tiles, stands s k = true ∧ coreWaitsLate s k = false) → ∃ t, Happens (.preempt lid) s t ∧ (t.launch lid).state = .saved ∧
    (t.launch lid).saved = tiles.map (imageOf s) ∧ (∀ k ∈ tiles, (t.core k).launch = none))

/-- R206, R220: a saved launch restored to free cores: each of them holds the launch at its index, and its threads are as
they were saved, their counters at 0.
(Log entry 57.) -/
def Clauses.SavedLaunchesResume : Prop := ∀ (s : State) (lid : Nat) (cores : List Nat) (rot : List Word),
  let l := s.launch lid
  let used := l.saved.map fun x => cores.getD x.index 4096
  fwUp s = true → s.tbSet = true → l.state = .saved → ctxLasts s l.ctx = true →
  fwEntriesOk s (Vector.ofFn fun i => rot.getD i.val 0) = true →
  (∀ t ∈ used, t < 4096 ∧ coreFree s t = true) → used.Nodup → placeOk (shPlace l.payload) used = true →
  coresUsed s l.ctx + used.length ≤ (s.ctx l.ctx).cores → rottabOk (Vector.ofFn fun i => rot.getD i.val 0) = true →
  ∃ t : State, Happens (.resumeLaunch lid cores rot) s t ∧ t.mem = s.mem ∧ (t.launch lid).state = .running ∧
    (t.launch lid).saved = [] ∧
    ∀ x ∈ l.saved, let tile := cores.getD x.index 4096
      (t.core tile).launch = some lid ∧ (t.core tile).index = x.index ∧ (t.core tile).acc = x.core.acc ∧
      ((∀ y ∈ l.saved, (y.threads.map (·.1)).Nodup ∧ ∀ z ∈ y.threads, z.1 < 13) → ∀ k th, (k, th) ∈ x.threads →
        t.thr (keyOf tile k) = { th with counters := .replicate 4 0 })

/-- R207: migration: the Crown stops a core of a running launch; once it stands still its state is that of a free core,
and the old tile forwards for the given time; atomic reservations of its threads have ended (R90).
(Log entries 51, 57.) -/
def Clauses.CoresMigrate : Prop := ∀ (s : State) (src dst life lid : Nat),
  (s.core src).launch = some lid → fwUp s = true → (s.launch lid).state = .running → src ≠ dst → dst < 4096 →
  coreFree s dst = true →
  ((s.core src).stopping = false → ∃ t, Happens (.migrate src dst life) s t ∧ (t.core src).stopping = true ∧
    (t.core src).launch = some lid) ∧
  (stands s src = true → coreWaitsLate s src = false → ∃ t, Happens (.migrate src dst life) s t ∧ (t.core src).launch = none ∧
    (t.core dst).launch = some lid ∧ (t.core dst).index = (s.core src).index ∧ (t.core dst).acc = (s.core src).acc ∧
    (src, dst, s.ptb + life) ∈ t.forwards ∧
    ∀ k, k < 13 → t.thr (keyOf dst k) = { s.thr (keyOf src k) with counters := .replicate 4 0, reserved := none })

/-- R126, R127, R132, R133, R205 to R207, R213: dispatch, completion, pre-emption, resume and migration. -/
def Obligations.LaunchesRunAndMove : Prop :=
  Clauses.LaunchesAreDispatched ∧ Clauses.CoresComplete ∧ Clauses.WordsAreCombined ∧ Clauses.LaunchesArePreempted ∧
  Clauses.SavedLaunchesResume ∧ Clauses.CoresMigrate

/-! ## Observation (spec/10_observation.md) -/

/-- R222, R223, Table 10-1: HALT written 1 stops the core, HALT written 0 lets it go on, and STEP with SSLOT while the core
stands halted releases that slot for one instruction. -/
def Clauses.DebugHaltsAndSteps : Prop := ∀ (s : State) (tile slot : Nat),
  let d := (s.core tile).dbgctl
  tile < 4096 → slot < 16 →
  (∃ t : State, Happens (.debugHalt tile) s t ∧ (t.core tile).dbgctl = (d ||| 0x10000#64) &&& 0xF5FF00#64 ∧
    (t.core tile).halt = true ∧ t.mem = s.mem) ∧
  (∃ t : State, Happens (.debugResume tile) s t ∧ (t.core tile).dbgctl = d &&& 0xF4FF00#64 ∧ (t.core tile).halt = false ∧
    (t.core tile).step = none ∧ t.mem = s.mem ∧ t.threads = s.threads) ∧
  (haltedNow s tile = true → ∃ t : State, Happens (.debugStep tile slot) s t ∧ (t.core tile).step = some slot ∧
    (t.core tile).halt = true ∧ t.mem = s.mem)

/-- R229: a record that the Brim takes, whose reserved fields are 0. -/
def Clauses.asked (s : State) (ctx : Nat) (ws : List Word) (type : Nat) : Prop :=
  fwUp s = true ∧ (s.ctx ctx).live = true ∧ ws.length = 16 ∧ obType ws = type ∧ obReserved ws = false

/-- R227, R229: a sampler started for a context runs with the record's ring and selectors, status 0; a status other than
0, the first of 3, 4, 5, 2 and 6 that applies, starts none.
(Log entry 21.) -/
def Clauses.SamplersStart : Prop := ∀ (s : State) (ctx : Nat) (ws : List Word),
  let die := obDie ws
  let st := startStatus s ctx ws
  Clauses.asked s ctx ws 1 → ∃ t : State, Happens (.samplerStart ctx ws) s t ∧
    t.obs ctx = ws.set 8 (BitVec.ofNat 64 st) ∧ t.mem = s.mem ∧ (st ≠ 0 → t.dies = s.dies) ∧
    (st = 0 → ∃ x, (t.die die).sampler = some x ∧ x.ctx = ctx ∧ x.ring = ws.getD 1 0 ∧ x.interval = wordAt ws 3 ∧
      x.running = true ∧ x.row = 0 ∧ x.pos = 0 ∧ x.missed = 0 ∧ x.latched = s.ptb / x.interval)

/-- R227: at each multiple of INTERVAL a running sampler writes its row of 192 bytes, counts the intervals it has missed,
and goes on to its next row; where its ring has lapsed it stops with status 2.
(Log entry 61.) -/
def Clauses.SamplersLatch : Prop := ∀ (s : State) (die : Nat) (x : Sampler),
  let k := s.ptb / x.interval
  let y := { x with missed := x.missed + (k - x.latched - 1), latched := k }
  let p := ptrOn x.ring (x.pos * 192)
  let good := ringRoom s x.ctx x.handle x.ring ≠ none ∧ spanOk s x.ctx p 192 needW = true
  (s.die die).sampler = some x → x.running = true → x.latched < k →
  (good → ∃ t : State, Happens (.samplerLatch die) s t ∧ t.mem = (fwWrite s x.ctx (ptrVa p) (samplerRow s die y)).mem ∧
    (t.die die).sampler = some { y with row := (x.row + 1) % 2 ^ 32, pos := (x.pos + 1) % max 1 x.rows, missed := 0 } ∧ t.threads = s.threads) ∧
  (¬good → ∃ t : State, Happens (.samplerLatch die) s t ∧ t.mem = s.mem ∧
    (t.die die).sampler = some { y with running := false, status := 2 } ∧
    t.obs x.ctx = (s.obs x.ctx).set 8 2)

/-- R229: a sampler stops on request with status 1.
(Log entry 61.) -/
def Clauses.SamplersStop : Prop := ∀ (s : State) (ctx : Nat) (ws : List Word) (x : Sampler),
  Clauses.asked s ctx ws 2 → (s.die (obDie ws)).sampler = some x → x.ctx = ctx →
  ∃ t : State, Happens (.samplerStop ctx ws) s t ∧ t.obs ctx = ws.set 8 1 ∧ t.mem = s.mem ∧
    (t.die (obDie ws)).sampler = some { x with running := false, status := 1 }

/-- R226, R229: a trace starts on a tile that the context holds, into a live range with room for its rows, and TREN is
set; it stops with status 1, TREN cleared.
(Log entry 61.) -/
def Clauses.TracesStartAndStop : Prop := ∀ (s : State) (ctx room : Nat) (ws : List Word),
  let tile := obTile ws
  let size := 64 * obRows ws
  (Clauses.asked s ctx ws 3 → tileHeld s ctx tile = true → ringRoom s ctx (obHandle ws) (obRing ws) = some room →
    size ≤ room → ∃ t : State, Happens (.traceStart ctx ws) s t ∧ t.obs ctx = ws.set 8 0 ∧ t.mem = s.mem ∧
      (t.core tile).dbgctl = (s.core tile).dbgctl ||| 0x100#64 ∧
      (t.core tile).trace = some ⟨obRing ws, obHandle ws, ctx, size, 0, [], 0⟩) ∧
  (Clauses.asked s ctx ws 4 → tileHeld s ctx tile = true → (∀ x, (s.core tile).trace = some x → x.buf = []) →
    ∃ t : State, Happens (.traceStop ctx ws) s t ∧ t.obs ctx = ws.set 8 1 ∧ t.mem = s.mem ∧
      (t.core tile).trace = none ∧ (t.core tile).dbgctl = (s.core tile).dbgctl &&& ~~~0x100#64)

/-- R229, R220, R221, Tables 10-1, 10-2: a debug record writes the breakpoints, the watches, but for a watch of reserved size,
and DBGCTL of a tile that the context holds; one of TYPE 6 reads them. The Crown writes them in any tile's debug block. -/
def Clauses.DebugRecordsWriteAndRead : Prop := ∀ (s : State) (ctx : Nat) (ws : List Word),
  let tile := obTile ws
  let c := s.core tile
  (ctx = crownId ∧ fwUp s = true ∧ ws.length = 16 ∨ ctx ≠ crownId ∧ Clauses.asked s ctx ws 5 ∧ tileHeld s ctx tile = true →
    ∃ t : State, Happens (.debugWrite ctx ws) s t ∧ (ctx ≠ crownId → t.obs ctx = ws.set 8 0) ∧
    (ctx = crownId → ∀ k, t.obs k = s.obs k) ∧ t.mem = s.mem ∧ (t.core tile).dbgctl = ws.getD 3 0 &&& 0xF5FF00#64 ∧
    (∀ i, i < 4 → (t.core tile).bps.toArray.getD i 0 = ws.getD (4 + i) 0 &&& 0xFFFFFFFFFFFC#64) ∧
    ∀ i, i < 2 → (t.core tile).watchAddr.toArray.getD i 0 = ws.getD (9 + 2 * i) 0 &&& 0xFFFFFFFFFFFF#64 ∧
      (t.core tile).watchCtl.toArray.getD i 0 =
        if 12 < (ws.getD (10 + 2 * i) 0).toNat % 2 ^ 6 then c.watchCtl.toArray.getD i 0
        else ws.getD (10 + 2 * i) 0 &&& 0xC00000000000003F#64) ∧
  (Clauses.asked s ctx ws 6 → tileHeld s ctx tile = true → ∃ (t : State) (o : List Word), Happens (.debugRead ctx ws) s t ∧
    t = { s with boxes := t.boxes } ∧ t.obs ctx = o ∧ o.length = 16 ∧ o.getD 8 1 = 0 ∧ o.getD 3 0 = readDbgctl s tile ∧
    (∀ i, i < 4 → o.getD (4 + i) 0 = c.bps.toArray.getD i 0) ∧
    ∀ i, i < 2 → o.getD (9 + 2 * i) 0 = c.watchAddr.toArray.getD i 0 ∧ o.getD (10 + 2 * i) 0 = c.watchCtl.toArray.getD i 0)

/-- R229, Table 10-6: a record with a reserved field set is answered 3, one of a tile that the context does not hold 8, and
neither does anything else.
(Log entry 21.) -/
def Clauses.RecordsAreRefused : Prop := ∀ (s : State) (ctx : Nat) (ws : List Word) (i : Instr) (type : Nat),
  (i = .samplerStart ctx ws ∧ type = 1) ∨ (i = .samplerStop ctx ws ∧ type = 2) ∨ (i = .traceStart ctx ws ∧ type = 3) ∨
    (i = .traceStop ctx ws ∧ type = 4) ∨ (i = .debugWrite ctx ws ∧ type = 5) ∨ (i = .debugRead ctx ws ∧ type = 6) →
  fwUp s = true → ctx ≠ crownId → (s.ctx ctx).live = true → ws.length = 16 → obType ws = type →
  (obReserved ws = true → Happens i s (s.putObs ctx (ws.set 8 3))) ∧
  (obReserved ws = false → 3 ≤ type → tileHeld s ctx (obTile ws) = false →
    Happens i s (s.putObs ctx (ws.set 8 8)))

/-- R221 to R223, R226, R227, R229: debug modules, samplers and traces. -/
def Obligations.ObservationFollowsItsRecords : Prop :=
  Clauses.DebugHaltsAndSteps ∧ Clauses.SamplersStart ∧ Clauses.SamplersLatch ∧ Clauses.SamplersStop ∧
  Clauses.TracesStartAndStop ∧ Clauses.DebugRecordsWriteAndRead ∧ Clauses.RecordsAreRefused
end

