-- ==== Sys2Proof/Laws/Memory.lean ====
section
/-! SUPPORT. Memory: a read after a write, and that every write keeps the canonical form. -/

namespace Sys2Proof.Machine

theorem wfFrom_mono {m : List Host.Cell} {lo hi : Nat} (h : wfFrom hi m = true) (hl : lo ≤ hi) :
    wfFrom lo m = true := by
  cases m with
  | nil => rfl
  | cons p r =>
    obtain ⟨a, b⟩ := p
    simp only [wfFrom, Bool.and_eq_true, decide_eq_true_eq] at h ⊢
    exact ⟨⟨by omega, h.1.2⟩, h.2⟩

theorem readByte_cons (k : Nat) (x : Byte) (r : List Host.Cell) (c : Nat) :
    readByte ((k, x) :: r) c = if c = k then x else readByte r c := by
  simp only [readByte, eq_comm]

/-- Below the first address of a canonical memory every byte is blank. -/
theorem readByte_below {m : List Host.Cell} {lo a : Nat} (h : wfFrom lo m = true) (ha : a < lo) :
    readByte m a = blankByte := by
  induction m generalizing lo with
  | nil => rfl
  | cons p r ih =>
    obtain ⟨c, b⟩ := p
    simp only [wfFrom, Bool.and_eq_true, decide_eq_true_eq] at h
    have hne : c ≠ a := by omega
    simp only [readByte, hne, if_false]
    exact ih h.2 (by omega)

/-- Writing a byte keeps the canonical form. -/
theorem wfFrom_writeByte {m : List Host.Cell} {lo a : Nat} (b : Byte) (h : wfFrom lo m = true) (ha : lo ≤ a) :
    wfFrom lo (writeByte m a b) = true := by
  induction m generalizing lo with
  | nil =>
    simp only [writeByte]
    split
    · rfl
    · simp_all [wfFrom]
  | cons p r ih =>
    obtain ⟨c, x⟩ := p
    have h0 := h
    simp only [wfFrom, Bool.and_eq_true, decide_eq_true_eq] at h
    simp only [writeByte]
    split
    · split
      · exact wfFrom_mono h.2 (by omega)
      · simp_all [wfFrom]
    · split
      · split
        · exact h0
        · simp_all [wfFrom] <;> omega
      · simp only [wfFrom, Bool.and_eq_true, decide_eq_true_eq]
        exact ⟨h.1, ih h.2 (by omega)⟩

theorem wf_writeByte {m : List Host.Cell} (a : Nat) (b : Byte) (h : Memory.wf m = true) :
    Memory.wf (writeByte m a b) = true := wfFrom_writeByte b h (Nat.zero_le a)

/-- A byte read after a byte written. -/
theorem readByte_writeByte {m : List Host.Cell} {lo : Nat} (h : wfFrom lo m = true) (a : Nat) (b : Byte) (c : Nat) :
    readByte (writeByte m a b) c = if c = a then b else readByte m c := by
  induction m generalizing lo with
  | nil =>
    simp only [writeByte]
    split
    · split <;> simp_all [readByte]
    · rw [readByte_cons]
  | cons p r ih =>
    obtain ⟨k, x⟩ := p
    have hcan : wfFrom k ((k, x) :: r) = true := by simp_all [wfFrom]
    simp only [wfFrom, Bool.and_eq_true, decide_eq_true_eq] at h
    simp only [writeByte]
    split
    · subst_vars
      split
      · rw [readByte_cons]
        split
        · subst_vars; exact readByte_below h.2 (Nat.lt_succ_self _)
        · rfl
      · simp only [readByte_cons]; split <;> rfl
    · split
      · split
        · split
          · subst_vars; exact readByte_below hcan ‹_›
          · rfl
        · simp only [readByte_cons]
      · simp only [readByte_cons, ih h.2]
        by_cases hc : c = k
        · subst hc; simp [*]
        · simp [hc]

/-- Writing a run of bytes keeps the canonical form. -/
theorem wf_writeBytes {m : List Host.Cell} (a : Nat) (bs : List Byte) (h : Memory.wf m = true) :
    Memory.wf (writeBytes m a bs) = true := by
  induction bs generalizing m a with
  | nil => exact h
  | cons b r ih => exact ih (a + 1) (wf_writeByte a b h)

/-- A byte read after a run of bytes written: the run's byte inside it, the old byte outside. -/
theorem readByte_writeBytes {m : List Host.Cell} (h : Memory.wf m = true) (a : Nat) (bs : List Byte) (c : Nat) :
    readByte (writeBytes m a bs) c =
      if a ≤ c ∧ c < a + bs.length then bs.getD (c - a) blankByte else readByte m c := by
  induction bs generalizing m a with
  | nil => simp [writeBytes] <;> omega
  | cons b r ih =>
    simp only [writeBytes]
    rw [ih (wf_writeByte a b h), readByte_writeByte h]
    by_cases h1 : c = a
    · subst h1
      rw [if_neg (by omega), if_pos rfl, if_pos (by simp only [List.length_cons]; omega)]
      simp
    · by_cases h2 : a + 1 ≤ c ∧ c < a + 1 + r.length
      · have e : c - a = (c - (a + 1)) + 1 := by omega
        rw [if_pos h2, if_pos (by simp only [List.length_cons]; omega), e, List.getD_cons_succ]
      · rw [if_neg h2, if_neg h1, if_neg (by simp only [List.length_cons]; omega)]

theorem wf_writeWord {m : List Host.Cell} (a : Nat) (w : Word) (h : Memory.wf m = true) :
    Memory.wf (writeWord m a w) = true := wf_writeBytes a _ h

end Sys2Proof.Machine
end

