-- ==== Sys2Proof/Laws/PerInstr.lean ====
section
/-! SUPPORT. Per instruction: an instruction's word leaves P clear and fits in 31 bits (R232, R242); a step of the machine
has no word. -/

namespace Sys2Proof.Laws.Encoding

/-- The word of instruction `i`, where it has one, has P (bit 31) clear, and no bit above. -/
def Statement (i : Instr) : Prop := ∀ n, encodeNat i = some n → n < 2 ^ 31

theorem ite_le (b : Bool) : (if b then 1 else 0) ≤ 1 := by cases b <;> decide
theorem Width_code (x : Width) : x.code ≤ 3 := by cases x <;> decide
theorem WW_code (x : WW) : x.code ≤ 1 := by cases x <;> decide
theorem NW_code (x : NW) : x.code ≤ 2 := by cases x <;> decide
theorem PW_code (x : PW) : x.code ≤ 2 := by cases x <;> decide
theorem FTy_code (x : FTy) : x.code ≤ 1 := by cases x <;> decide
theorem RedTy_code (x : RedTy) : x.code ≤ 3 := by cases x <;> decide
theorem SatSel_code (x : SatSel) : x.code ≤ 3 := by cases x <;> decide
theorem RndSel_code (x : RndSel) : x.code ≤ 3 := by cases x <;> decide
theorem Cond_code (x : Cond) : x.code ≤ 5 := by cases x <;> decide
theorem FCond_code (x : FCond) : x.code ≤ 6 := by cases x <;> decide
theorem CvFmt_code (x : CvFmt) : x.code ≤ 11 := by cases x <;> decide
theorem FFmt_code (x : FFmt) : x.code ≤ 11 := by cases x <;> decide
theorem BFmt_code (x : BFmt) : x.code ≤ 4 := by cases x <;> decide
theorem Scope_code (x : Scope) : x.code ≤ 4 := by cases x <;> decide
theorem BScope_code (x : BScope) : x.code ≤ 3 := by cases x <;> decide
theorem Eng_code (x : Eng) : x.code ≤ 2 := by cases x <;> decide
theorem RingWord_code (x : RingWord) : x.code ≤ 2 := by cases x <;> decide

theorem add (d : SReg) (a : SReg) (b : SReg) (g : KReg) : Statement (.add d a b g) := by
  intro n h
  cases h
  simp only [encA]
  omega
theorem sub (d : SReg) (a : SReg) (b : SReg) (g : KReg) : Statement (.sub d a b g) := by
  intro n h
  cases h
  simp only [encA]
  omega
theorem and (d : SReg) (a : SReg) (b : SReg) (g : KReg) : Statement (.and d a b g) := by
  intro n h
  cases h
  simp only [encA]
  omega
theorem or (d : SReg) (a : SReg) (b : SReg) (g : KReg) : Statement (.or d a b g) := by
  intro n h
  cases h
  simp only [encA]
  omega
theorem xor (d : SReg) (a : SReg) (b : SReg) (g : KReg) : Statement (.xor d a b g) := by
  intro n h
  cases h
  simp only [encA]
  omega
theorem andn (d : SReg) (a : SReg) (b : SReg) (g : KReg) : Statement (.andn d a b g) := by
  intro n h
  cases h
  simp only [encA]
  omega
theorem sll (d : SReg) (a : SReg) (b : SReg) (g : KReg) : Statement (.sll d a b g) := by
  intro n h
  cases h
  simp only [encA]
  omega
theorem srl (d : SReg) (a : SReg) (b : SReg) (g : KReg) : Statement (.srl d a b g) := by
  intro n h
  cases h
  simp only [encA]
  omega
theorem sra (d : SReg) (a : SReg) (b : SReg) (g : KReg) : Statement (.sra d a b g) := by
  intro n h
  cases h
  simp only [encA]
  omega
theorem min (d : SReg) (a : SReg) (b : SReg) (g : KReg) : Statement (.min d a b g) := by
  intro n h
  cases h
  simp only [encA]
  omega
theorem max (d : SReg) (a : SReg) (b : SReg) (g : KReg) : Statement (.max d a b g) := by
  intro n h
  cases h
  simp only [encA]
  omega
theorem minu (d : SReg) (a : SReg) (b : SReg) (g : KReg) : Statement (.minu d a b g) := by
  intro n h
  cases h
  simp only [encA]
  omega
theorem maxu (d : SReg) (a : SReg) (b : SReg) (g : KReg) : Statement (.maxu d a b g) := by
  intro n h
  cases h
  simp only [encA]
  omega
theorem slt (d : SReg) (a : SReg) (b : SReg) (g : KReg) : Statement (.slt d a b g) := by
  intro n h
  cases h
  simp only [encA]
  omega
theorem sltu (d : SReg) (a : SReg) (b : SReg) (g : KReg) : Statement (.sltu d a b g) := by
  intro n h
  cases h
  simp only [encA]
  omega
theorem addi (d : SReg) (a : SReg) (imm : BitVec 12) : Statement (.addi d a imm) := by
  intro n h
  cases h
  simp only [encB]
  omega
theorem andi (d : SReg) (a : SReg) (imm : BitVec 12) : Statement (.andi d a imm) := by
  intro n h
  cases h
  simp only [encB]
  omega
theorem ori (d : SReg) (a : SReg) (imm : BitVec 12) : Statement (.ori d a imm) := by
  intro n h
  cases h
  simp only [encB]
  omega
theorem xori (d : SReg) (a : SReg) (imm : BitVec 12) : Statement (.xori d a imm) := by
  intro n h
  cases h
  simp only [encB]
  omega
theorem slli (d : SReg) (a : SReg) (sh : Fin 64) : Statement (.slli d a sh) := by
  intro n h
  cases h
  simp only [encB]
  omega
theorem srli (d : SReg) (a : SReg) (sh : Fin 64) : Statement (.srli d a sh) := by
  intro n h
  cases h
  simp only [encB]
  omega
theorem srai (d : SReg) (a : SReg) (sh : Fin 64) : Statement (.srai d a sh) := by
  intro n h
  cases h
  simp only [encB]
  omega
theorem slti (d : SReg) (a : SReg) (imm : BitVec 12) : Statement (.slti d a imm) := by
  intro n h
  cases h
  simp only [encB]
  omega
theorem mul (d : SReg) (a : SReg) (b : SReg) (g : KReg) : Statement (.mul d a b g) := by
  intro n h
  cases h
  simp only [encA]
  omega
theorem mulh (d : SReg) (a : SReg) (b : SReg) (g : KReg) : Statement (.mulh d a b g) := by
  intro n h
  cases h
  simp only [encA]
  omega
theorem mulhu (d : SReg) (a : SReg) (b : SReg) (g : KReg) : Statement (.mulhu d a b g) := by
  intro n h
  cases h
  simp only [encA]
  omega
theorem mulhm (d : SReg) (a : SReg) (b : SReg) (g : KReg) : Statement (.mulhm d a b g) := by
  intro n h
  cases h
  simp only [encA]
  omega
theorem div (d : SReg) (a : SReg) (b : SReg) (g : KReg) : Statement (.div d a b g) := by
  intro n h
  cases h
  simp only [encA]
  omega
theorem divu (d : SReg) (a : SReg) (b : SReg) (g : KReg) : Statement (.divu d a b g) := by
  intro n h
  cases h
  simp only [encA]
  omega
theorem rem (d : SReg) (a : SReg) (b : SReg) (g : KReg) : Statement (.rem d a b g) := by
  intro n h
  cases h
  simp only [encA]
  omega
theorem remu (d : SReg) (a : SReg) (b : SReg) (g : KReg) : Statement (.remu d a b g) := by
  intro n h
  cases h
  simp only [encA]
  omega
theorem clz (d : SReg) (a : SReg) (g : KReg) : Statement (.clz d a g) := by
  intro n h
  cases h
  simp only [encA]
  omega
theorem ctz (d : SReg) (a : SReg) (g : KReg) : Statement (.ctz d a g) := by
  intro n h
  cases h
  simp only [encA]
  omega
theorem popc (d : SReg) (a : SReg) (g : KReg) : Statement (.popc d a g) := by
  intro n h
  cases h
  simp only [encA]
  omega
theorem brev (d : SReg) (a : SReg) (g : KReg) : Statement (.brev d a g) := by
  intro n h
  cases h
  simp only [encA]
  omega
theorem sextB (d : SReg) (a : SReg) (g : KReg) : Statement (.sextB d a g) := by
  intro n h
  cases h
  simp only [encA]
  omega
theorem sextH (d : SReg) (a : SReg) (g : KReg) : Statement (.sextH d a g) := by
  intro n h
  cases h
  simp only [encA]
  omega
theorem sextW (d : SReg) (a : SReg) (g : KReg) : Statement (.sextW d a g) := by
  intro n h
  cases h
  simp only [encA]
  omega
theorem zextB (d : SReg) (a : SReg) (g : KReg) : Statement (.zextB d a g) := by
  intro n h
  cases h
  simp only [encA]
  omega
theorem zextH (d : SReg) (a : SReg) (g : KReg) : Statement (.zextH d a g) := by
  intro n h
  cases h
  simp only [encA]
  omega
theorem zextW (d : SReg) (a : SReg) (g : KReg) : Statement (.zextW d a g) := by
  intro n h
  cases h
  simp only [encA]
  omega
theorem bfx (d : SReg) (a : SReg) (b : SReg) (g : KReg) : Statement (.bfx d a b g) := by
  intro n h
  cases h
  simp only [encA]
  omega
theorem bfxu (d : SReg) (a : SReg) (b : SReg) (g : KReg) : Statement (.bfxu d a b g) := by
  intro n h
  cases h
  simp only [encA]
  omega
theorem bfi (d : SReg) (a : SReg) (b : SReg) (g : KReg) : Statement (.bfi d a b g) := by
  intro n h
  cases h
  simp only [encA]
  omega
theorem li (d : SReg) (imm : BitVec 20) : Statement (.li d imm) := by
  intro n h
  cases h
  simp only [encL]
  omega
theorem lio (d : SReg) (imm : BitVec 20) : Statement (.lio d imm) := by
  intro n h
  cases h
  simp only [encL]
  omega
theorem ptrAdd (d : SReg) (a : SReg) (b : SReg) (g : KReg) : Statement (.ptrAdd d a b g) := by
  intro n h
  cases h
  simp only [encA]
  omega
theorem ptrSub (d : SReg) (a : SReg) (b : SReg) (g : KReg) : Statement (.ptrSub d a b g) := by
  intro n h
  cases h
  simp only [encA]
  omega
theorem ptrSetFmt (d : SReg) (a : SReg) (b : SReg) (g : KReg) : Statement (.ptrSetFmt d a b g) := by
  intro n h
  cases h
  simp only [encA]
  omega
theorem ptrSetBlen (d : SReg) (a : SReg) (b : SReg) (g : KReg) : Statement (.ptrSetBlen d a b g) := by
  intro n h
  cases h
  simp only [encA]
  omega
theorem ptrSetGen (d : SReg) (a : SReg) (b : SReg) (g : KReg) : Statement (.ptrSetGen d a b g) := by
  intro n h
  cases h
  simp only [encA]
  omega
theorem ptrSetVa (d : SReg) (a : SReg) (b : SReg) (g : KReg) : Statement (.ptrSetVa d a b g) := by
  intro n h
  cases h
  simp only [encA]
  omega
theorem ptrGetFmt (d : SReg) (a : SReg) (g : KReg) : Statement (.ptrGetFmt d a g) := by
  intro n h
  cases h
  simp only [encA]
  omega
theorem ptrGetBlen (d : SReg) (a : SReg) (g : KReg) : Statement (.ptrGetBlen d a g) := by
  intro n h
  cases h
  simp only [encA]
  omega
theorem ptrGetGen (d : SReg) (a : SReg) (g : KReg) : Statement (.ptrGetGen d a g) := by
  intro n h
  cases h
  simp only [encA]
  omega
theorem ptrGetVa (d : SReg) (a : SReg) (g : KReg) : Statement (.ptrGetVa d a g) := by
  intro n h
  cases h
  simp only [encA]
  omega
theorem ptrChk (d : KReg) (a : SReg) (b : SReg) (g : KReg) : Statement (.ptrChk d a b g) := by
  intro n h
  cases h
  simp only [encA]
  omega
theorem cmp (c : Cond) (d : KReg) (a : SReg) (b : SReg) (g : KReg) : Statement (.cmp c d a b g) := by
  intro n h
  cases h
  have := Cond_code c
  simp only [encA]
  omega
theorem kand (d : KReg) (a : KReg) (b : KReg) (g : KReg) : Statement (.kand d a b g) := by
  intro n h
  cases h
  simp only [encA]
  omega
theorem kor (d : KReg) (a : KReg) (b : KReg) (g : KReg) : Statement (.kor d a b g) := by
  intro n h
  cases h
  simp only [encA]
  omega
theorem kxor (d : KReg) (a : KReg) (b : KReg) (g : KReg) : Statement (.kxor d a b g) := by
  intro n h
  cases h
  simp only [encA]
  omega
theorem knot (d : KReg) (a : KReg) (g : KReg) : Statement (.knot d a g) := by
  intro n h
  cases h
  simp only [encA]
  omega
theorem kset (d : KReg) (v : Bool) (g : KReg) : Statement (.kset d v g) := by
  intro n h
  cases h
  have := ite_le v
  simp only [encA]
  omega
theorem vbcast (w : Width) (d : VReg) (a : SReg) (g : KReg) : Statement (.vbcast w d a g) := by
  intro n h
  cases h
  have := Width_code w
  simp only [encA]
  omega
theorem vins (w : Width) (d : VReg) (a : SReg) (b : SReg) (g : KReg) : Statement (.vins w d a b g) := by
  intro n h
  cases h
  have := Width_code w
  simp only [encA]
  omega
theorem sel (d : SReg) (k : KReg) (a : SReg) (b : SReg) (g : KReg) : Statement (.sel d k a b g) := by
  intro n h
  cases h
  simp only [encA]
  omega
theorem vext (w : Width) (d : SReg) (a : VReg) (b : SReg) (g : KReg) : Statement (.vext w d a b g) := by
  intro n h
  cases h
  have := Width_code w
  simp only [encA]
  omega
theorem vextU (w : NW) (d : SReg) (a : VReg) (b : SReg) (g : KReg) : Statement (.vextU w d a b g) := by
  intro n h
  cases h
  have := NW_code w
  simp only [encA]
  omega
theorem mtokAny (d : KReg) (a : MReg) (g : KReg) : Statement (.mtokAny d a g) := by
  intro n h
  cases h
  simp only [encA]
  omega
theorem mtokAll (d : KReg) (a : MReg) (g : KReg) : Statement (.mtokAll d a g) := by
  intro n h
  cases h
  simp only [encA]
  omega
theorem mtokAllD (d : KReg) (a : MReg) (g : KReg) : Statement (.mtokAllD d a g) := by
  intro n h
  cases h
  simp only [encA]
  omega
theorem ktom (d : MReg) (a : KReg) (g : KReg) : Statement (.ktom d a g) := by
  intro n h
  cases h
  simp only [encA]
  omega
theorem mtos (d : SReg) (a : MReg) (g : KReg) : Statement (.mtos d a g) := by
  intro n h
  cases h
  simp only [encA]
  omega
theorem stom (d : MReg) (a : SReg) (g : KReg) : Statement (.stom d a g) := by
  intro n h
  cases h
  simp only [encA]
  omega
theorem br (k : KReg) (off : BitVec 21) : Statement (.br k off) := by
  intro n h
  cases h
  omega
theorem brN (k : KReg) (off : BitVec 21) : Statement (.brN k off) := by
  intro n h
  cases h
  omega
theorem jmp (off : BitVec 24) : Statement (.jmp off) := by
  intro n h
  cases h
  omega
theorem call (off : BitVec 24) : Statement (.call off) := by
  intro n h
  cases h
  omega
theorem jr (a : SReg) (g : KReg) : Statement (.jr a g) := by
  intro n h
  cases h
  simp only [encA]
  omega
theorem callr (a : SReg) (g : KReg) : Statement (.callr a g) := by
  intro n h
  cases h
  simp only [encA]
  omega
theorem ret (g : KReg) : Statement (.ret g) := by
  intro n h
  cases h
  simp only [encA]
  omega
theorem loop (d : SReg) (off : BitVec 12) : Statement (.loop d off) := by
  intro n h
  cases h
  simp only [encB]
  omega
theorem loopP (d : SReg) (off : BitVec 12) : Statement (.loopP d off) := by
  intro n h
  cases h
  simp only [encB]
  omega
theorem cmpi (c : Cond) (d : KReg) (a : SReg) (imm : BitVec 12) : Statement (.cmpi c d a imm) := by
  intro n h
  cases h
  have := Cond_code c
  simp only [encB]
  omega
theorem vadd (w : Width) (d : VFld) (a : VFld) (b : VFld) (g : MReg) : Statement (.vadd w d a b g) := by
  intro n h
  cases h
  have := Width_code w
  simp only [encA]
  omega
theorem vsub (w : Width) (d : VFld) (a : VFld) (b : VFld) (g : MReg) : Statement (.vsub w d a b g) := by
  intro n h
  cases h
  have := Width_code w
  simp only [encA]
  omega
theorem vmul (w : Width) (d : VFld) (a : VFld) (b : VFld) (g : MReg) : Statement (.vmul w d a b g) := by
  intro n h
  cases h
  have := Width_code w
  simp only [encA]
  omega
theorem vmulh (w : Width) (d : VFld) (a : VFld) (b : VFld) (g : MReg) : Statement (.vmulh w d a b g) := by
  intro n h
  cases h
  have := Width_code w
  simp only [encA]
  omega
theorem vmulhu (w : Width) (d : VFld) (a : VFld) (b : VFld) (g : MReg) : Statement (.vmulhu w d a b g) := by
  intro n h
  cases h
  have := Width_code w
  simp only [encA]
  omega
theorem vmad (w : Width) (d : VReg) (a : VFld) (b : VFld) (g : MReg) : Statement (.vmad w d a b g) := by
  intro n h
  cases h
  have := Width_code w
  simp only [encA]
  omega
theorem vmin (w : Width) (d : VFld) (a : VFld) (b : VFld) (g : MReg) : Statement (.vmin w d a b g) := by
  intro n h
  cases h
  have := Width_code w
  simp only [encA]
  omega
theorem vmax (w : Width) (d : VFld) (a : VFld) (b : VFld) (g : MReg) : Statement (.vmax w d a b g) := by
  intro n h
  cases h
  have := Width_code w
  simp only [encA]
  omega
theorem vminu (w : Width) (d : VFld) (a : VFld) (b : VFld) (g : MReg) : Statement (.vminu w d a b g) := by
  intro n h
  cases h
  have := Width_code w
  simp only [encA]
  omega
theorem vmaxu (w : Width) (d : VFld) (a : VFld) (b : VFld) (g : MReg) : Statement (.vmaxu w d a b g) := by
  intro n h
  cases h
  have := Width_code w
  simp only [encA]
  omega
theorem vabs (w : Width) (d : VFld) (a : VFld) (g : MReg) : Statement (.vabs w d a g) := by
  intro n h
  cases h
  have := Width_code w
  simp only [encA]
  omega
theorem vshl (w : Width) (d : VFld) (a : VFld) (b : VFld) (g : MReg) : Statement (.vshl w d a b g) := by
  intro n h
  cases h
  have := Width_code w
  simp only [encA]
  omega
theorem vshr (w : Width) (d : VFld) (a : VFld) (b : VFld) (g : MReg) : Statement (.vshr w d a b g) := by
  intro n h
  cases h
  have := Width_code w
  simp only [encA]
  omega
theorem vsra (w : Width) (d : VFld) (a : VFld) (b : VFld) (g : MReg) : Statement (.vsra w d a b g) := by
  intro n h
  cases h
  have := Width_code w
  simp only [encA]
  omega
theorem vshlImm (w : Width) (d : VFld) (a : VFld) (sh : Fin 32) (g : MReg) : Statement (.vshlImm w d a sh g) := by
  intro n h
  cases h
  have := Width_code w
  simp only [encA]
  omega
theorem vshrImm (w : Width) (d : VFld) (a : VFld) (sh : Fin 32) (g : MReg) : Statement (.vshrImm w d a sh g) := by
  intro n h
  cases h
  have := Width_code w
  simp only [encA]
  omega
theorem vsraImm (w : Width) (d : VFld) (a : VFld) (sh : Fin 32) (g : MReg) : Statement (.vsraImm w d a sh g) := by
  intro n h
  cases h
  have := Width_code w
  simp only [encA]
  omega
theorem vshlImmHi (d : VFld) (a : VFld) (sh : Fin 32) (g : MReg) : Statement (.vshlImmHi d a sh g) := by
  intro n h
  cases h
  simp only [encA]
  omega
theorem vshrImmHi (d : VFld) (a : VFld) (sh : Fin 32) (g : MReg) : Statement (.vshrImmHi d a sh g) := by
  intro n h
  cases h
  simp only [encA]
  omega
theorem vsraImmHi (d : VFld) (a : VFld) (sh : Fin 32) (g : MReg) : Statement (.vsraImmHi d a sh g) := by
  intro n h
  cases h
  simp only [encA]
  omega
theorem vaddi (w : Width) (d : VFld) (a : VFld) (imm : BitVec 5) (g : MReg) : Statement (.vaddi w d a imm g) := by
  intro n h
  cases h
  have := Width_code w
  simp only [encA]
  omega
theorem vli (w : Width) (d : VFld) (imm : BitVec 5) (g : MReg) : Statement (.vli w d imm g) := by
  intro n h
  cases h
  have := Width_code w
  simp only [encA]
  omega
theorem vand (d : VFld) (a : VFld) (b : VFld) (g : MReg) : Statement (.vand d a b g) := by
  intro n h
  cases h
  simp only [encA]
  omega
theorem vor (d : VFld) (a : VFld) (b : VFld) (g : MReg) : Statement (.vor d a b g) := by
  intro n h
  cases h
  simp only [encA]
  omega
theorem vxor (d : VFld) (a : VFld) (b : VFld) (g : MReg) : Statement (.vxor d a b g) := by
  intro n h
  cases h
  simp only [encA]
  omega
theorem vandn (d : VFld) (a : VFld) (b : VFld) (g : MReg) : Statement (.vandn d a b g) := by
  intro n h
  cases h
  simp only [encA]
  omega
theorem mand (d : MReg) (a : MReg) (b : MReg) : Statement (.mand d a b) := by
  intro n h
  cases h
  simp only [encA]
  omega
theorem mor (d : MReg) (a : MReg) (b : MReg) : Statement (.mor d a b) := by
  intro n h
  cases h
  simp only [encA]
  omega
theorem mxor (d : MReg) (a : MReg) (b : MReg) : Statement (.mxor d a b) := by
  intro n h
  cases h
  simp only [encA]
  omega
theorem mnot (d : MReg) (a : MReg) : Statement (.mnot d a) := by
  intro n h
  cases h
  simp only [encA]
  omega
theorem mpop (d : SReg) (a : MReg) : Statement (.mpop d a) := by
  intro n h
  cases h
  simp only [encA]
  omega
theorem mfirst (d : SReg) (a : MReg) : Statement (.mfirst d a) := by
  intro n h
  cases h
  simp only [encA]
  omega
theorem vcmp (c : Cond) (w : WW) (d : MReg) (a : VFld) (b : VFld) (g : MReg) : Statement (.vcmp c w d a b g) := by
  intro n h
  cases h
  have := Cond_code c
  have := WW_code w
  simp only [encA]
  omega
theorem vperm (w : Width) (z : Bool) (d : VFld) (a : VFld) (b : VFld) (g : MReg) : Statement (.vperm w z d a b g) := by
  intro n h
  cases h
  have := Width_code w
  have := ite_le z
  simp only [encA]
  omega
theorem vshuf (w : Width) (z : Bool) (d : VReg) (a : VFld) (b : VFld) (g : MReg) : Statement (.vshuf w z d a b g) := by
  intro n h
  cases h
  have := Width_code w
  have := ite_le z
  simp only [encA]
  omega
theorem vrot (w : Width) (z : Bool) (d : VFld) (a : VFld) (b : SReg) (g : MReg) : Statement (.vrot w z d a b g) := by
  intro n h
  cases h
  have := Width_code w
  have := ite_le z
  simp only [encA]
  omega
theorem vcompress (w : Width) (d : VFld) (a : VFld) (b : MReg) (g : MReg) : Statement (.vcompress w d a b g) := by
  intro n h
  cases h
  have := Width_code w
  simp only [encA]
  omega
theorem vexpand (w : Width) (d : VFld) (a : VFld) (b : MReg) (g : MReg) : Statement (.vexpand w d a b g) := by
  intro n h
  cases h
  have := Width_code w
  simp only [encA]
  omega
theorem vredAdd (t : RedTy) (z : Bool) (d : SReg) (a : VFld) (g : MReg) : Statement (.vredAdd t z d a g) := by
  intro n h
  cases h
  have := RedTy_code t
  have := ite_le z
  simp only [encA]
  omega
theorem vredMin (t : RedTy) (z : Bool) (d : SReg) (a : VFld) (g : MReg) : Statement (.vredMin t z d a g) := by
  intro n h
  cases h
  have := RedTy_code t
  have := ite_le z
  simp only [encA]
  omega
theorem vredMax (t : RedTy) (z : Bool) (d : SReg) (a : VFld) (g : MReg) : Statement (.vredMax t z d a g) := by
  intro n h
  cases h
  have := RedTy_code t
  have := ite_le z
  simp only [encA]
  omega
theorem vredMinu (t : WW) (z : Bool) (d : SReg) (a : VFld) (g : MReg) : Statement (.vredMinu t z d a g) := by
  intro n h
  cases h
  have := WW_code t
  have := ite_le z
  simp only [encA]
  omega
theorem vredMaxu (t : WW) (z : Bool) (d : SReg) (a : VFld) (g : MReg) : Statement (.vredMaxu t z d a g) := by
  intro n h
  cases h
  have := WW_code t
  have := ite_le z
  simp only [encA]
  omega
theorem vredAnd (t : WW) (z : Bool) (d : SReg) (a : VFld) (g : MReg) : Statement (.vredAnd t z d a g) := by
  intro n h
  cases h
  have := WW_code t
  have := ite_le z
  simp only [encA]
  omega
theorem vredOr (t : WW) (z : Bool) (d : SReg) (a : VFld) (g : MReg) : Statement (.vredOr t z d a g) := by
  intro n h
  cases h
  have := WW_code t
  have := ite_le z
  simp only [encA]
  omega
theorem vredXor (t : WW) (z : Bool) (d : SReg) (a : VFld) (g : MReg) : Statement (.vredXor t z d a g) := by
  intro n h
  cases h
  have := WW_code t
  have := ite_le z
  simp only [encA]
  omega
theorem vscanAdd (t : RedTy) (z : Bool) (d : VFld) (a : VFld) (g : MReg) : Statement (.vscanAdd t z d a g) := by
  intro n h
  cases h
  have := RedTy_code t
  have := ite_le z
  simp only [encA]
  omega
theorem vsatSigned (x : SatSel) (d : VFld) (a : VFld) (g : MReg) : Statement (.vsatSigned x d a g) := by
  intro n h
  cases h
  have := SatSel_code x
  simp only [encA]
  omega
theorem vsatUnsigned (x : SatSel) (d : VFld) (a : VFld) (g : MReg) : Statement (.vsatUnsigned x d a g) := by
  intro n h
  cases h
  have := SatSel_code x
  simp only [encA]
  omega
theorem vpackI (x : PW) (d : VFld) (a : VFld) (b : VFld) (g : MReg) : Statement (.vpackI x d a b g) := by
  intro n h
  cases h
  have := PW_code x
  simp only [encA]
  omega
theorem vpackU (x : PW) (d : VFld) (a : VFld) (b : VFld) (g : MReg) : Statement (.vpackU x d a b g) := by
  intro n h
  cases h
  have := PW_code x
  simp only [encA]
  omega
theorem vunpackLoI (x : NW) (d : VFld) (a : VFld) (g : MReg) : Statement (.vunpackLoI x d a g) := by
  intro n h
  cases h
  have := NW_code x
  simp only [encA]
  omega
theorem vunpackHiI (x : NW) (d : VFld) (a : VFld) (g : MReg) : Statement (.vunpackHiI x d a g) := by
  intro n h
  cases h
  have := NW_code x
  simp only [encA]
  omega
theorem vunpackLoU (x : NW) (d : VFld) (a : VFld) (g : MReg) : Statement (.vunpackLoU x d a g) := by
  intro n h
  cases h
  have := NW_code x
  simp only [encA]
  omega
theorem vunpackHiU (x : NW) (d : VFld) (a : VFld) (g : MReg) : Statement (.vunpackHiU x d a g) := by
  intro n h
  cases h
  have := NW_code x
  simp only [encA]
  omega
theorem vdot4 (ua : Bool) (ub : Bool) (d : VReg) (a : VFld) (b : VFld) (g : MReg) : Statement (.vdot4 ua ub d a b g) := by
  intro n h
  cases h
  have := ite_le ua
  have := ite_le ub
  simp only [encA]
  omega
theorem vdot4Sat (ua : Bool) (ub : Bool) (d : VReg) (a : VFld) (b : VFld) (g : MReg) : Statement (.vdot4Sat ua ub d a b g) := by
  intro n h
  cases h
  have := ite_le ua
  have := ite_le ub
  simp only [encA]
  omega
theorem vfadd (t : FTy) (d : VFld) (a : VFld) (b : VFld) (g : MReg) : Statement (.vfadd t d a b g) := by
  intro n h
  cases h
  have := FTy_code t
  simp only [encA]
  omega
theorem vfsub (t : FTy) (d : VFld) (a : VFld) (b : VFld) (g : MReg) : Statement (.vfsub t d a b g) := by
  intro n h
  cases h
  have := FTy_code t
  simp only [encA]
  omega
theorem vfmul (t : FTy) (d : VFld) (a : VFld) (b : VFld) (g : MReg) : Statement (.vfmul t d a b g) := by
  intro n h
  cases h
  have := FTy_code t
  simp only [encA]
  omega
theorem vfdiv (t : FTy) (d : VFld) (a : VFld) (b : VFld) (g : MReg) : Statement (.vfdiv t d a b g) := by
  intro n h
  cases h
  have := FTy_code t
  simp only [encA]
  omega
theorem vfsqrt (t : FTy) (d : VFld) (a : VFld) (g : MReg) : Statement (.vfsqrt t d a g) := by
  intro n h
  cases h
  have := FTy_code t
  simp only [encA]
  omega
theorem vfmin (t : FTy) (d : VFld) (a : VFld) (b : VFld) (g : MReg) : Statement (.vfmin t d a b g) := by
  intro n h
  cases h
  have := FTy_code t
  simp only [encA]
  omega
theorem vfmax (t : FTy) (d : VFld) (a : VFld) (b : VFld) (g : MReg) : Statement (.vfmax t d a b g) := by
  intro n h
  cases h
  have := FTy_code t
  simp only [encA]
  omega
theorem vfabs (t : FTy) (d : VFld) (a : VFld) (g : MReg) : Statement (.vfabs t d a g) := by
  intro n h
  cases h
  have := FTy_code t
  simp only [encA]
  omega
theorem vfneg (t : FTy) (d : VFld) (a : VFld) (g : MReg) : Statement (.vfneg t d a g) := by
  intro n h
  cases h
  have := FTy_code t
  simp only [encA]
  omega
theorem vfcmp (c : FCond) (t : FTy) (d : MReg) (a : VFld) (b : VFld) (g : MReg) : Statement (.vfcmp c t d a b g) := by
  intro n h
  cases h
  have := FCond_code c
  have := FTy_code t
  simp only [encA]
  omega
theorem vfma (t : FTy) (d : VReg) (a : VFld) (b : VFld) (g : MReg) : Statement (.vfma t d a b g) := by
  intro n h
  cases h
  have := FTy_code t
  simp only [encA]
  omega
theorem vfms (t : FTy) (d : VReg) (a : VFld) (b : VFld) (g : MReg) : Statement (.vfms t d a b g) := by
  intro n h
  cases h
  have := FTy_code t
  simp only [encA]
  omega
theorem vfnma (t : FTy) (d : VReg) (a : VFld) (b : VFld) (g : MReg) : Statement (.vfnma t d a b g) := by
  intro n h
  cases h
  have := FTy_code t
  simp only [encA]
  omega
theorem vfnms (t : FTy) (d : VReg) (a : VFld) (b : VFld) (g : MReg) : Statement (.vfnms t d a b g) := by
  intro n h
  cases h
  have := FTy_code t
  simp only [encA]
  omega
theorem vfdot2 (d : VReg) (a : VFld) (b : VFld) (g : MReg) : Statement (.vfdot2 d a b g) := by
  intro n h
  cases h
  simp only [encA]
  omega
theorem vfcvt (q : Fin 4) (dst : CvFmt) (src : CvFmt) (d : VFld) (a : VFld) (g : MReg) : Statement (.vfcvt q dst src d a g) := by
  intro n h
  cases h
  have := CvFmt_code dst
  have := CvFmt_code src
  simp only [encA]
  omega
theorem vfcls (f : FFmt) (d : VFld) (a : VFld) (g : MReg) : Statement (.vfcls f d a g) := by
  intro n h
  cases h
  have := FFmt_code f
  simp only [encA]
  omega
theorem vfround (m : RndSel) (f : FFmt) (d : VFld) (a : VFld) (g : MReg) : Statement (.vfround m f d a g) := by
  intro n h
  cases h
  have := RndSel_code m
  have := FFmt_code f
  simp only [encA]
  omega
theorem vrcp (d : VFld) (a : VFld) (g : MReg) : Statement (.vrcp d a g) := by
  intro n h
  cases h
  simp only [encA]
  omega
theorem vrsq (d : VFld) (a : VFld) (g : MReg) : Statement (.vrsq d a g) := by
  intro n h
  cases h
  simp only [encA]
  omega
theorem vexp2 (d : VFld) (a : VFld) (g : MReg) : Statement (.vexp2 d a g) := by
  intro n h
  cases h
  simp only [encA]
  omega
theorem vlog2 (d : VFld) (a : VFld) (g : MReg) : Statement (.vlog2 d a g) := by
  intro n h
  cases h
  simp only [encA]
  omega
theorem vsin (d : VFld) (a : VFld) (g : MReg) : Statement (.vsin d a g) := by
  intro n h
  cases h
  simp only [encA]
  omega
theorem vcos (d : VFld) (a : VFld) (g : MReg) : Statement (.vcos d a g) := by
  intro n h
  cases h
  simp only [encA]
  omega
theorem vtanh (d : VFld) (a : VFld) (g : MReg) : Statement (.vtanh d a g) := by
  intro n h
  cases h
  simp only [encA]
  omega
theorem vsig (d : VFld) (a : VFld) (g : MReg) : Statement (.vsig d a g) := by
  intro n h
  cases h
  simp only [encA]
  omega
theorem qsel (idx : Fin 16) : Statement (.qsel idx) := by
  intro n h
  cases h
  simp only [encA]
  omega
theorem qadd (d : VFld) (a : VFld) (b : VFld) (g : MReg) : Statement (.qadd d a b g) := by
  intro n h
  cases h
  simp only [encA]
  omega
theorem qsub (d : VFld) (a : VFld) (b : VFld) (g : MReg) : Statement (.qsub d a b g) := by
  intro n h
  cases h
  simp only [encA]
  omega
theorem qneg (d : VFld) (a : VFld) (g : MReg) : Statement (.qneg d a g) := by
  intro n h
  cases h
  simp only [encA]
  omega
theorem qmul (d : VFld) (a : VFld) (b : VFld) (g : MReg) : Statement (.qmul d a b g) := by
  intro n h
  cases h
  simp only [encA]
  omega
theorem qval (d : VFld) (a : VFld) (g : MReg) : Statement (.qval d a g) := by
  intro n h
  cases h
  simp only [encA]
  omega
theorem qdig (d : VFld) (a : VFld) (b : VFld) (g : MReg) : Statement (.qdig d a b g) := by
  intro n h
  cases h
  simp only [encA]
  omega
theorem qcmpEq (d : MReg) (a : VFld) (b : VFld) (g : MReg) : Statement (.qcmpEq d a b g) := by
  intro n h
  cases h
  simp only [encA]
  omega
theorem qcmpNe (d : MReg) (a : VFld) (b : VFld) (g : MReg) : Statement (.qcmpNe d a b g) := by
  intro n h
  cases h
  simp only [encA]
  omega
theorem qenc (d : VFld) (a : VFld) (b : VFld) (g : MReg) : Statement (.qenc d a b g) := by
  intro n h
  cases h
  simp only [encA]
  omega
theorem qinv (d : VFld) (a : VFld) (g : MReg) : Statement (.qinv d a g) := by
  intro n h
  cases h
  simp only [encA]
  omega
theorem qdiv (d : VFld) (a : VFld) (b : VFld) (g : MReg) : Statement (.qdiv d a b g) := by
  intro n h
  cases h
  simp only [encA]
  omega
theorem qdec (n : VReg) (m : VReg) (a : VFld) (g : MReg) : Statement (.qdec n m a g) := by
  intro n h
  cases h
  simp only [encA]
  omega
theorem bamax (d : SReg) (a : VFld) (g : MReg) : Statement (.bamax d a g) := by
  intro n h
  cases h
  simp only [encA]
  omega
theorem bscaleF32 (d : VReg) (a : VFld) (b : VFld) (g : MReg) : Statement (.bscaleF32 d a b g) := by
  intro n h
  cases h
  simp only [encA]
  omega
theorem bscaleI32 (d : VReg) (a : VFld) (b : VFld) (g : MReg) : Statement (.bscaleI32 d a b g) := by
  intro n h
  cases h
  simp only [encA]
  omega
theorem bquant (c : BFmt) (d : VFld) (a : VFld) : Statement (.bquant c d a) := by
  intro n h
  cases h
  have := BFmt_code c
  simp only [encA]
  omega
theorem bdeq (c : BFmt) (d : VFld) (a : VFld) (g : MReg) : Statement (.bdeq c d a g) := by
  intro n h
  cases h
  have := BFmt_code c
  simp only [encA]
  omega
theorem baddq (c : BFmt) (d : VFld) (a : VFld) (b : VFld) : Statement (.baddq c d a b) := by
  intro n h
  cases h
  have := BFmt_code c
  simp only [encA]
  omega
theorem ld (size : Width) (u : Bool) (rlx : Bool) (d : SReg) (base : SReg) (off : BitVec 8) (g : KReg) : Statement (.ld size u rlx d base off g) := by
  intro n h
  cases h
  have := Width_code size
  have := ite_le u
  have := ite_le rlx
  simp only [encM]
  omega
theorem st (size : Width) (rlx : Bool) (base : SReg) (off : BitVec 8) (d : SReg) (g : KReg) : Statement (.st size rlx base off d g) := by
  intro n h
  cases h
  have := Width_code size
  have := ite_le rlx
  simp only [encM]
  omega
theorem vld (e : Width) (rlx : Bool) (v : VFld) (base : SReg) (g : MReg) : Statement (.vld e rlx v base g) := by
  intro n h
  cases h
  have := Width_code e
  have := ite_le rlx
  simp only [encVM]
  omega
theorem vldS (e : Width) (rlx : Bool) (v : VFld) (base : SReg) (aux : SReg) (g : MReg) : Statement (.vldS e rlx v base aux g) := by
  intro n h
  cases h
  have := Width_code e
  have := ite_le rlx
  simp only [encVM]
  omega
theorem vldF (rlx : Bool) (v : VFld) (base : SReg) (g : MReg) : Statement (.vldF rlx v base g) := by
  intro n h
  cases h
  have := ite_le rlx
  simp only [encVM]
  omega
theorem vst (e : Width) (rlx : Bool) (base : SReg) (v : VFld) (g : MReg) : Statement (.vst e rlx base v g) := by
  intro n h
  cases h
  have := Width_code e
  have := ite_le rlx
  simp only [encVM]
  omega
theorem vstS (e : Width) (rlx : Bool) (base : SReg) (v : VFld) (aux : SReg) (g : MReg) : Statement (.vstS e rlx base v aux g) := by
  intro n h
  cases h
  have := Width_code e
  have := ite_le rlx
  simp only [encVM]
  omega
theorem vstF (rlx : Bool) (base : SReg) (v : VFld) (g : MReg) : Statement (.vstF rlx base v g) := by
  intro n h
  cases h
  have := ite_le rlx
  simp only [encVM]
  omega
theorem vgath (e : WW) (rlx : Bool) (v : VFld) (base : SReg) (aux : VFld) (g : MReg) : Statement (.vgath e rlx v base aux g) := by
  intro n h
  cases h
  have := WW_code e
  have := ite_le rlx
  simp only [encVM]
  omega
theorem vscat (e : WW) (rlx : Bool) (base : SReg) (aux : VFld) (v : VFld) (g : MReg) : Statement (.vscat e rlx base aux v g) := by
  intro n h
  cases h
  have := WW_code e
  have := ite_le rlx
  simp only [encVM]
  omega
theorem vldr (k : KReg) (v : VFld) (base : SReg) (aux : SReg) : Statement (.vldr k v base aux) := by
  intro n h
  cases h
  simp only [encVM]
  omega
theorem vldBlk (rlx : Bool) (v : VFld) (base : SReg) (aux : SReg) : Statement (.vldBlk rlx v base aux) := by
  intro n h
  cases h
  have := ite_le rlx
  simp only [encVM]
  omega
theorem vstBlk (rlx : Bool) (base : SReg) (v : VFld) (aux : SReg) : Statement (.vstBlk rlx base v aux) := by
  intro n h
  cases h
  have := ite_le rlx
  simp only [encVM]
  omega
theorem ldSync (w : Width) (d : SReg) (a : SReg) (b : SReg) (g : KReg) : Statement (.ldSync w d a b g) := by
  intro n h
  cases h
  have := Width_code w
  simp only [encA]
  omega
theorem ldSyncU (w : NW) (d : SReg) (a : SReg) (b : SReg) (g : KReg) : Statement (.ldSyncU w d a b g) := by
  intro n h
  cases h
  have := NW_code w
  simp only [encA]
  omega
theorem gtagRd (d : SReg) (a : SReg) (g : KReg) : Statement (.gtagRd d a g) := by
  intro n h
  cases h
  simp only [encA]
  omega
theorem gtagSet (a : SReg) (b : SReg) (g : KReg) : Statement (.gtagSet a b g) := by
  intro n h
  cases h
  simp only [encA]
  omega
theorem gtagClr (a : SReg) (g : KReg) : Statement (.gtagClr a g) := by
  intro n h
  cases h
  simp only [encA]
  omega
theorem vldSync (d : VFld) (a : SReg) (b : SReg) (g : MReg) : Statement (.vldSync d a b g) := by
  intro n h
  cases h
  simp only [encA]
  omega
theorem rsv (w : WW) (d : SReg) (a : SReg) (g : KReg) : Statement (.rsv w d a g) := by
  intro n h
  cases h
  have := WW_code w
  simp only [encA]
  omega
theorem wrv (w : WW) (a : SReg) (b : SReg) (g : KReg) : Statement (.wrv w a b g) := by
  intro n h
  cases h
  have := WW_code w
  simp only [encA]
  omega
theorem amoAdd (w : WW) (d : SReg) (a : SReg) (b : SReg) (g : KReg) : Statement (.amoAdd w d a b g) := by
  intro n h
  cases h
  have := WW_code w
  simp only [encA]
  omega
theorem amoAnd (w : WW) (d : SReg) (a : SReg) (b : SReg) (g : KReg) : Statement (.amoAnd w d a b g) := by
  intro n h
  cases h
  have := WW_code w
  simp only [encA]
  omega
theorem amoOr (w : WW) (d : SReg) (a : SReg) (b : SReg) (g : KReg) : Statement (.amoOr w d a b g) := by
  intro n h
  cases h
  have := WW_code w
  simp only [encA]
  omega
theorem amoXor (w : WW) (d : SReg) (a : SReg) (b : SReg) (g : KReg) : Statement (.amoXor w d a b g) := by
  intro n h
  cases h
  have := WW_code w
  simp only [encA]
  omega
theorem amoMin (w : WW) (d : SReg) (a : SReg) (b : SReg) (g : KReg) : Statement (.amoMin w d a b g) := by
  intro n h
  cases h
  have := WW_code w
  simp only [encA]
  omega
theorem amoMax (w : WW) (d : SReg) (a : SReg) (b : SReg) (g : KReg) : Statement (.amoMax w d a b g) := by
  intro n h
  cases h
  have := WW_code w
  simp only [encA]
  omega
theorem amoMinu (w : WW) (d : SReg) (a : SReg) (b : SReg) (g : KReg) : Statement (.amoMinu w d a b g) := by
  intro n h
  cases h
  have := WW_code w
  simp only [encA]
  omega
theorem amoMaxu (w : WW) (d : SReg) (a : SReg) (b : SReg) (g : KReg) : Statement (.amoMaxu w d a b g) := by
  intro n h
  cases h
  have := WW_code w
  simp only [encA]
  omega
theorem amoSwap (w : WW) (d : SReg) (a : SReg) (b : SReg) (g : KReg) : Statement (.amoSwap w d a b g) := by
  intro n h
  cases h
  have := WW_code w
  simp only [encA]
  omega
theorem amoCas (w : WW) (d : SReg) (a : SReg) (b : SReg) (g : KReg) : Statement (.amoCas w d a b g) := by
  intro n h
  cases h
  have := WW_code w
  simp only [encA]
  omega
theorem fence (sz : Scope) (g : KReg) : Statement (.fence sz g) := by
  intro n h
  cases h
  have := Scope_code sz
  simp only [encA]
  omega
theorem fenceEng (sz : Scope) (g : KReg) : Statement (.fenceEng sz g) := by
  intro n h
  cases h
  have := Scope_code sz
  simp only [encA]
  omega
theorem pf (a : SReg) (g : KReg) : Statement (.pf a g) := by
  intro n h
  cases h
  simp only [encA]
  omega
theorem holdRng (d : SReg) (a : SReg) (b : SReg) (g : KReg) : Statement (.holdRng d a b g) := by
  intro n h
  cases h
  simp only [encA]
  omega
theorem holdLk (d : SReg) (a : SReg) (b : SReg) (g : KReg) : Statement (.holdLk d a b g) := by
  intro n h
  cases h
  simp only [encA]
  omega
theorem holdRt (d : SReg) (a : SReg) (b : SReg) (g : KReg) : Statement (.holdRt d a b g) := by
  intro n h
  cases h
  simp only [encA]
  omega
theorem holdGrp (d : SReg) (a : SReg) (b : SReg) (g : KReg) : Statement (.holdGrp d a b g) := by
  intro n h
  cases h
  simp only [encA]
  omega
theorem renew (a : SReg) (b : SReg) (g : KReg) : Statement (.renew a b g) := by
  intro n h
  cases h
  simp only [encA]
  omega
theorem life (d : SReg) (a : SReg) (g : KReg) : Statement (.life d a g) := by
  intro n h
  cases h
  simp only [encA]
  omega
theorem hinfo (d : SReg) (a : SReg) (g : KReg) : Statement (.hinfo d a g) := by
  intro n h
  cases h
  simp only [encA]
  omega
theorem tick (d : SReg) (g : KReg) : Statement (.tick d g) := by
  intro n h
  cases h
  simp only [encA]
  omega
theorem tickw (a : SReg) (g : KReg) : Statement (.tickw a g) := by
  intro n h
  cases h
  simp only [encA]
  omega
theorem dline (a : SReg) (g : KReg) : Statement (.dline a g) := by
  intro n h
  cases h
  simp only [encA]
  omega
theorem msend (a : SReg) (b : VFld) (g : KReg) : Statement (.msend a b g) := by
  intro n h
  cases h
  simp only [encA]
  omega
theorem chlen (d : SReg) (ch : Fin 8) (g : KReg) : Statement (.chlen d ch g) := by
  intro n h
  cases h
  simp only [encA]
  omega
theorem bar (sz : BScope) (g : KReg) : Statement (.bar sz g) := by
  intro n h
  cases h
  have := BScope_code sz
  simp only [encA]
  omega
theorem barPod (a : SReg) (b : SReg) (g : KReg) : Statement (.barPod a b g) := by
  intro n h
  cases h
  simp only [encA]
  omega
theorem done (a : SReg) (g : KReg) : Statement (.done a g) := by
  intro n h
  cases h
  simp only [encA]
  omega
theorem probe (g : KReg) : Statement (.probe g) := by
  intro n h
  cases h
  simp only [encA]
  omega
theorem hstart (d : SReg) (a : SReg) (b : SReg) (g : KReg) : Statement (.hstart d a b g) := by
  intro n h
  cases h
  simp only [encA]
  omega
theorem hprot (d : SReg) (a : SReg) (b : SReg) (g : KReg) : Statement (.hprot d a b g) := by
  intro n h
  cases h
  simp only [encA]
  omega
theorem hjoin (a : SReg) (g : KReg) : Statement (.hjoin a g) := by
  intro n h
  cases h
  simp only [encA]
  omega
theorem stop (g : KReg) : Statement (.stop g) := by
  intro n h
  cases h
  simp only [encA]
  omega
theorem tid (d : SReg) (g : KReg) : Statement (.tid d g) := by
  intro n h
  cases h
  simp only [encA]
  omega
theorem launchGrid (a : SReg) (g : KReg) : Statement (.launchGrid a g) := by
  intro n h
  cases h
  simp only [encA]
  omega
theorem launchPipe (a : SReg) (g : KReg) : Statement (.launchPipe a g) := by
  intro n h
  cases h
  simp only [encA]
  omega
theorem enq (e : Eng) (d : SReg) (a : VFld) (g : KReg) : Statement (.enq e d a g) := by
  intro n h
  cases h
  have := Eng_code e
  simp only [encA]
  omega
theorem eseq (n : RingWord) (d : SReg) (a : SReg) (g : KReg) : Statement (.eseq n d a g) := by
  intro n h
  cases h
  have := RingWord_code n
  simp only [encA]
  omega
theorem ewait (a : SReg) (g : KReg) : Statement (.ewait a g) := by
  intro n h
  cases h
  simp only [encA]
  omega
theorem sysrd (d : SReg) (n : Fin 2048) (g : KReg) : Statement (.sysrd d n g) := by
  intro n h
  cases h
  simp only [encS]
  omega
theorem syswr (n : Fin 2048) (a : SReg) (g : KReg) : Statement (.syswr n a g) := by
  intro n h
  cases h
  simp only [encS]
  omega
theorem trap (d : SReg) (a : SReg) (g : KReg) : Statement (.trap d a g) := by
  intro n h
  cases h
  simp only [encS]
  omega
theorem eret (g : KReg) : Statement (.eret g) := by
  intro n h
  cases h
  simp only [encS]
  omega
theorem hcall (d : SReg) (a : SReg) (g : KReg) : Statement (.hcall d a g) := by
  intro n h
  cases h
  simp only [encS]
  omega
theorem dbg (g : KReg) : Statement (.dbg g) := by
  intro n h
  cases h
  simp only [encS]
  omega
theorem tlbinv (a : SReg) (g : KReg) : Statement (.tlbinv a g) := by
  intro n h
  cases h
  simp only [encS]
  omega
theorem rottabArm (tile : Nat) (w0 : Word) (w1 : Word) (w2 : Word) (w3 : Word) : Statement (.rottabArm tile w0 w1 w2 w3) := by
  intro n h
  cases h
theorem rottabShadowCheck (tile : Nat) : Statement (.rottabShadowCheck tile) := by
  intro n h
  cases h
theorem deadlineExpiry (tile : Nat) (slot : Nat) : Statement (.deadlineExpiry tile slot) := by
  intro n h
  cases h
theorem impreciseFaultTaken (tile : Nat) (slot : Nat) : Statement (.impreciseFaultTaken tile slot) := by
  intro n h
  cases h
theorem sfuServiceStart (quad : Nat) : Statement (.sfuServiceStart quad) := by
  intro n h
  cases h
theorem sfuResult (quad : Nat) : Statement (.sfuResult quad) := by
  intro n h
  cases h
theorem accessAtHome (req : Nat) (part : Nat) : Statement (.accessAtHome req part) := by
  intro n h
  cases h
theorem loadValueReturn (req : Nat) : Statement (.loadValueReturn req) := by
  intro n h
  cases h
theorem storeAck (req : Nat) : Statement (.storeAck req) := by
  intro n h
  cases h
theorem combiningEntryTimeout (tile : Nat) (slot : Nat) (granule : Nat) : Statement (.combiningEntryTimeout tile slot granule) := by
  intro n h
  cases h
theorem atomicTermExpiry (word : Nat) : Statement (.atomicTermExpiry word) := by
  intro n h
  cases h
theorem deferredRepresent (tile : Nat) (ticket : Nat) : Statement (.deferredRepresent tile ticket) := by
  intro n h
  cases h
theorem holdRequestAtKeeper (die : Nat) : Statement (.holdRequestAtKeeper die) := by
  intro n h
  cases h
theorem crownHoldPlacement (req : Nat) (p : Placement) : Statement (.crownHoldPlacement req p) := by
  intro n h
  cases h
theorem holdLapseMark (ctx : Nat) (idx : Nat) : Statement (.holdLapseMark ctx idx) := by
  intro n h
  cases h
theorem lapseAtHome (ctx : Nat) (idx : Nat) (page : Nat) : Statement (.lapseAtHome ctx idx page) := by
  intro n h
  cases h
theorem tlbMissWalk (die : Nat) (ctx : Nat) : Statement (.tlbMissWalk die ctx) := by
  intro n h
  cases h
theorem walkComplete (die : Nat) (walk : Nat) : Statement (.walkComplete die walk) := by
  intro n h
  cases h
theorem channelMessageArrival (launch : Nat) (chan : Nat) : Statement (.channelMessageArrival launch chan) := by
  intro n h
  cases h
theorem channelCreditReturn (launch : Nat) (chan : Nat) : Statement (.channelCreditReturn launch chan) := by
  intro n h
  cases h
theorem messagePlacement (dst : Nat) (idx : Nat) : Statement (.messagePlacement dst idx) := by
  intro n h
  cases h
theorem containReport (idx : Nat) : Statement (.containReport idx) := by
  intro n h
  cases h
theorem slot11WakeSpill (tile : Nat) : Statement (.slot11WakeSpill tile) := by
  intro n h
  cases h
theorem slot11WakeReplay (tile : Nat) : Statement (.slot11WakeReplay tile) := by
  intro n h
  cases h
theorem slot12Wake (tile : Nat) : Statement (.slot12Wake tile) := by
  intro n h
  cases h
theorem barrierRelease (sz : BScope) (tile : Nat) : Statement (.barrierRelease sz tile) := by
  intro n h
  cases h
theorem staggerReady (tile : Nat) : Statement (.staggerReady tile) := by
  intro n h
  cases h
theorem podBarrierTick (key : Nat) (tick : Nat) : Statement (.podBarrierTick key tick) := by
  intro n h
  cases h
theorem probeToken (launch : Nat) : Statement (.probeToken launch) := by
  intro n h
  cases h
theorem poolwaitExpiry (tile : Nat) (slot : Nat) : Statement (.poolwaitExpiry tile slot) := by
  intro n h
  cases h
theorem timeWaitEnd (tile : Nat) (slot : Nat) : Statement (.timeWaitEnd tile slot) := by
  intro n h
  cases h
theorem mxZero (tile : Nat) (e : EStep) : Statement (.mxZero tile e) := by
  intro n h
  cases h
theorem mxLdacc (tile : Nat) (e : EStep) : Statement (.mxLdacc tile e) := by
  intro n h
  cases h
theorem mxLoadw (tile : Nat) (e : EStep) : Statement (.mxLoadw tile e) := by
  intro n h
  cases h
theorem mxMma (tile : Nat) (e : EStep) : Statement (.mxMma tile e) := by
  intro n h
  cases h
theorem mxDrain (tile : Nat) (e : EStep) : Statement (.mxDrain tile e) := by
  intro n h
  cases h
theorem mxSave (tile : Nat) (e : EStep) : Statement (.mxSave tile e) := by
  intro n h
  cases h
theorem mxRestore (tile : Nat) (e : EStep) : Statement (.mxRestore tile e) := by
  intro n h
  cases h
theorem cpCopy (tile : Nat) (e : EStep) : Statement (.cpCopy tile e) := by
  intro n h
  cases h
theorem cpFill (tile : Nat) (e : EStep) : Statement (.cpFill tile e) := by
  intro n h
  cases h
theorem cpRoute (tile : Nat) (e : EStep) : Statement (.cpRoute tile e) := by
  intro n h
  cases h
theorem rlReduce (tile : Nat) (e : EStep) : Statement (.rlReduce tile e) := by
  intro n h
  cases h
theorem rlBcast (tile : Nat) (e : EStep) : Statement (.rlBcast tile e) := by
  intro n h
  cases h
theorem engineCommandComplete (tile : Nat) (e : Eng) : Statement (.engineCommandComplete tile e) := by
  intro n h
  cases h
theorem relayRoundSum (key : Nat) (frame : Nat) (remote : List Contribution) : Statement (.relayRoundSum key frame remote) := by
  intro n h
  cases h
theorem gatewayBaddq (port : Nat) (code : BFmt) (blocks : List Vec) : Statement (.gatewayBaddq port code blocks) := by
  intro n h
  cases h
theorem frameBoundary : Statement .frameBoundary := by
  intro n h
  cases h
theorem slotTableArm (port : Nat) (dir : Dir) (entries : List (Nat × SlotOwner)) (frame : Nat) : Statement (.slotTableArm port dir entries frame) := by
  intro n h
  cases h
theorem outSlotDeparture (port : Nat) : Statement (.outSlotDeparture port) := by
  intro n h
  cases h
theorem readRequest (p : Packet) : Statement (.readRequest p) := by
  intro n h
  cases h
theorem readReply (p : Packet) : Statement (.readReply p) := by
  intro n h
  cases h
theorem writePacket (p : Packet) : Statement (.writePacket p) := by
  intro n h
  cases h
theorem writeStatus (p : Packet) : Statement (.writeStatus p) := by
  intro n h
  cases h
theorem reservationPacket (p : Packet) : Statement (.reservationPacket p) := by
  intro n h
  cases h
theorem activeMessagePacket (p : Packet) : Statement (.activeMessagePacket p) := by
  intro n h
  cases h
theorem routeData (p : PortPacket) : Statement (.routeData p) := by
  intro n h
  cases h
theorem relayContribution (port : Nat) (p : Packet) : Statement (.relayContribution port p) := by
  intro n h
  cases h
theorem relayBroadcast (p : PortPacket) : Statement (.relayBroadcast p) := by
  intro n h
  cases h
theorem podBarrierPacket (p : Packet) : Statement (.podBarrierPacket p) := by
  intro n h
  cases h
theorem retrainStart (port : Nat) : Statement (.retrainStart port) := by
  intro n h
  cases h
theorem retrainResume (port : Nat) (applied : List Nat) : Statement (.retrainResume port applied) := by
  intro n h
  cases h
theorem portResumeTimeout (port : Nat) : Statement (.portResumeTimeout port) := by
  intro n h
  cases h
theorem budgetPeriod : Statement .budgetPeriod := by
  intro n h
  cases h
theorem bankbudWrite (tile : Nat) (value : Word) : Statement (.bankbudWrite tile value) := by
  intro n h
  cases h
theorem pfctlWrite (die : Nat) (value : Word) : Statement (.pfctlWrite die value) := by
  intro n h
  cases h
theorem carveChange (die : Nat) (kib : Nat) : Statement (.carveChange die kib) := by
  intro n h
  cases h
theorem scrubberRewrite (pa : Nat) : Statement (.scrubberRewrite pa) := by
  intro n h
  cases h
theorem packageReset (b : BringUp) : Statement (.packageReset b) := by
  intro n h
  cases h
theorem timeBaseSet (ns : Nat) : Statement (.timeBaseSet ns) := by
  intro n h
  cases h
theorem timeBaseDiscipline (ppm : Int) : Statement (.timeBaseDiscipline ppm) := by
  intro n h
  cases h
theorem bootdb (value : Word) : Statement (.bootdb value) := by
  intro n h
  cases h
theorem svnRaise : Statement .svnRaise := by
  intro n h
  cases h
theorem watchdogExpiry : Statement .watchdogExpiry := by
  intro n h
  cases h
theorem activationRecord (words : List Word) : Statement (.activationRecord words) := by
  intro n h
  cases h
theorem activationProceed : Statement .activationProceed := by
  intro n h
  cases h
theorem activationDeferralTimeout : Statement .activationDeferralTimeout := by
  intro n h
  cases h
theorem dumpRegistration (words : List Word) : Statement (.dumpRegistration words) := by
  intro n h
  cases h
theorem thermalTrip : Statement .thermalTrip := by
  intro n h
  cases h
theorem supplyFault : Statement .supplyFault := by
  intro n h
  cases h
theorem contextCreation (c : Creation) : Statement (.contextCreation c) := by
  intro n h
  cases h
theorem contextEnd (ctx : Nat) : Statement (.contextEnd ctx) := by
  intro n h
  cases h
theorem ringRegistration (words : List Word) : Statement (.ringRegistration words) := by
  intro n h
  cases h
theorem commitTimeout (ctx : Nat) : Statement (.commitTimeout ctx) := by
  intro n h
  cases h
theorem gridLaunchRecord (ctx : Nat) : Statement (.gridLaunchRecord ctx) := by
  intro n h
  cases h
theorem pipelineLaunchRecord (ctx : Nat) : Statement (.pipelineLaunchRecord ctx) := by
  intro n h
  cases h
theorem heartbeat (ctx : Nat) : Statement (.heartbeat ctx) := by
  intro n h
  cases h
theorem noOpRecord (ctx : Nat) : Statement (.noOpRecord ctx) := by
  intro n h
  cases h
theorem continuationRecord (ctx : Nat) : Statement (.continuationRecord ctx) := by
  intro n h
  cases h
theorem unassignedRecord (ctx : Nat) : Statement (.unassignedRecord ctx) := by
  intro n h
  cases h
theorem launchDispatch (ctx : Nat) (cores : List Nat) (rottab : List Word) : Statement (.launchDispatch ctx cores rottab) := by
  intro n h
  cases h
theorem coreCompletion (tile : Nat) : Statement (.coreCompletion tile) := by
  intro n h
  cases h
theorem statusWordFromChild (launch : Nat) (child : Nat) : Statement (.statusWordFromChild launch child) := by
  intro n h
  cases h
theorem preempt (launch : Nat) : Statement (.preempt launch) := by
  intro n h
  cases h
theorem resumeLaunch (launch : Nat) (cores : List Nat) (rottab : List Word) : Statement (.resumeLaunch launch cores rottab) := by
  intro n h
  cases h
theorem migrate (src : Nat) (dst : Nat) (life : Nat) : Statement (.migrate src dst life) := by
  intro n h
  cases h
theorem debugHalt (tile : Nat) : Statement (.debugHalt tile) := by
  intro n h
  cases h
theorem debugResume (tile : Nat) : Statement (.debugResume tile) := by
  intro n h
  cases h
theorem debugStep (tile : Nat) (slot : Nat) : Statement (.debugStep tile slot) := by
  intro n h
  cases h
theorem samplerStart (ctx : Nat) (words : List Word) : Statement (.samplerStart ctx words) := by
  intro n h
  cases h
theorem samplerStop (ctx : Nat) (words : List Word) : Statement (.samplerStop ctx words) := by
  intro n h
  cases h
theorem traceStart (ctx : Nat) (words : List Word) : Statement (.traceStart ctx words) := by
  intro n h
  cases h
theorem traceStop (ctx : Nat) (words : List Word) : Statement (.traceStop ctx words) := by
  intro n h
  cases h
theorem debugWrite (ctx : Nat) (words : List Word) : Statement (.debugWrite ctx words) := by
  intro n h
  cases h
theorem debugRead (ctx : Nat) (words : List Word) : Statement (.debugRead ctx words) := by
  intro n h
  cases h
theorem samplerLatch (die : Nat) : Statement (.samplerLatch die) := by
  intro n h
  cases h
theorem attestationQuote (ctx : Nat) (nonce : List Byte) (user : List Byte) (addr : Nat) : Statement (.attestationQuote ctx nonce user addr) := by
  intro n h
  cases h
theorem callDone (ctx : Nat) (answer : Word) : Statement (.callDone ctx answer) := by
  intro n h
  cases h
theorem softError (u : Upset) (uncorrectable : Bool) : Statement (.softError u uncorrectable) := by
  intro n h
  cases h
theorem firmwareWindowAccess (op : WindowOp) : Statement (.firmwareWindowAccess op) := by
  intro n h
  cases h
theorem portTraining (port : Nat) (flight : Nat) (delay : Nat) : Statement (.portTraining port flight delay) := by
  intro n h
  cases h

end Sys2Proof.Laws.Encoding
end

