-- ==== Sys2Proof/Laws/State.lean ====
section
/-! SUPPORT. One lemma for each field of the state under each update of a table of it, so that no later proof unfolds a
record update; and each `upd` as its `set`. -/

namespace Sys2Proof.Machine

@[simp] theorem State.setThr_agenda (s : State) (k : Nat) (x : Thread) : (s.setThr k x).agenda = s.agenda := rfl
@[simp] theorem State.setThr_cur (s : State) (k : Nat) (x : Thread) : (s.setThr k x).cur = s.cur := rfl
@[simp] theorem State.setThr_turn (s : State) (k : Nat) (x : Thread) : (s.setThr k x).turn = s.turn := rfl
@[simp] theorem State.setThr_did (s : State) (k : Nat) (x : Thread) : (s.setThr k x).did = s.did := rfl
@[simp] theorem State.setThr_nextId (s : State) (k : Nat) (x : Thread) : (s.setThr k x).nextId = s.nextId := rfl
@[simp] theorem State.setThr_free (s : State) (k : Nat) (x : Thread) : (s.setThr k x).free = s.free := rfl
@[simp] theorem State.setThr_fetchAhead (s : State) (k : Nat) (x : Thread) : (s.setThr k x).fetchAhead = s.fetchAhead := rfl
@[simp] theorem State.setThr_cycle (s : State) (k : Nat) (x : Thread) : (s.setThr k x).cycle = s.cycle := rfl
@[simp] theorem State.setThr_period (s : State) (k : Nat) (x : Thread) : (s.setThr k x).period = s.period := rfl
@[simp] theorem State.setThr_ptb (s : State) (k : Nat) (x : Thread) : (s.setThr k x).ptb = s.ptb := rfl
@[simp] theorem State.setThr_sub (s : State) (k : Nat) (x : Thread) : (s.setThr k x).sub = s.sub := rfl
@[simp] theorem State.setThr_tbSet (s : State) (k : Nat) (x : Thread) : (s.setThr k x).tbSet = s.tbSet := rfl
@[simp] theorem State.setThr_slew (s : State) (k : Nat) (x : Thread) : (s.setThr k x).slew = s.slew := rfl
@[simp] theorem State.setThr_pkg (s : State) (k : Nat) (x : Thread) : (s.setThr k x).pkg = s.pkg := rfl
@[simp] theorem State.setThr_pod (s : State) (k : Nat) (x : Thread) : (s.setThr k x).pod = s.pod := rfl
@[simp] theorem State.setThr_fatal (s : State) (k : Nat) (x : Thread) : (s.setThr k x).fatal = s.fatal := rfl
@[simp] theorem State.setThr_mem (s : State) (k : Nat) (x : Thread) : (s.setThr k x).mem = s.mem := rfl
@[simp] theorem State.setThr_tags (s : State) (k : Nat) (x : Thread) : (s.setThr k x).tags = s.tags := rfl
@[simp] theorem State.setThr_poison (s : State) (k : Nat) (x : Thread) : (s.setThr k x).poison = s.poison := rfl
@[simp] theorem State.setThr_hostMem (s : State) (k : Nat) (x : Thread) : (s.setThr k x).hostMem = s.hostMem := rfl
@[simp] theorem State.setThr_corrected (s : State) (k : Nat) (x : Thread) : (s.setThr k x).corrected = s.corrected := rfl
@[simp] theorem State.setThr_threads (s : State) (k : Nat) (x : Thread) : (s.setThr k x).threads = tset s.threads k x := rfl
@[simp] theorem State.setThr_cores (s : State) (k : Nat) (x : Thread) : (s.setThr k x).cores = s.cores := rfl
@[simp] theorem State.setThr_banks (s : State) (k : Nat) (x : Thread) : (s.setThr k x).banks = s.banks := rfl
@[simp] theorem State.setThr_quads (s : State) (k : Nat) (x : Thread) : (s.setThr k x).quads = s.quads := rfl
@[simp] theorem State.setThr_dies (s : State) (k : Nat) (x : Thread) : (s.setThr k x).dies = s.dies := rfl
@[simp] theorem State.setThr_reqs (s : State) (k : Nat) (x : Thread) : (s.setThr k x).reqs = s.reqs := rfl
@[simp] theorem State.setThr_ctxs (s : State) (k : Nat) (x : Thread) : (s.setThr k x).ctxs = s.ctxs := rfl
@[simp] theorem State.setThr_launches (s : State) (k : Nat) (x : Thread) : (s.setThr k x).launches = s.launches := rfl
@[simp] theorem State.setThr_served (s : State) (k : Nat) (x : Thread) : (s.setThr k x).served = s.served := rfl
@[simp] theorem State.setThr_usedFrames (s : State) (k : Nat) (x : Thread) : (s.setThr k x).usedFrames = s.usedFrames := rfl
@[simp] theorem State.setThr_tableNext (s : State) (k : Nat) (x : Thread) : (s.setThr k x).tableNext = s.tableNext := rfl
@[simp] theorem State.setThr_freedKeys (s : State) (k : Nat) (x : Thread) : (s.setThr k x).freedKeys = s.freedKeys := rfl
@[simp] theorem State.setThr_net (s : State) (k : Nat) (x : Thread) : (s.setThr k x).net = s.net := rfl
@[simp] theorem State.setThr_reports (s : State) (k : Nat) (x : Thread) : (s.setThr k x).reports = s.reports := rfl
@[simp] theorem State.setThr_sup (s : State) (k : Nat) (x : Thread) : (s.setThr k x).sup = s.sup := rfl
@[simp] theorem State.setThr_supLost (s : State) (k : Nat) (x : Thread) : (s.setThr k x).supLost = s.supLost := rfl
@[simp] theorem State.setThr_forwards (s : State) (k : Nat) (x : Thread) : (s.setThr k x).forwards = s.forwards := rfl
@[simp] theorem State.setThr_presents (s : State) (k : Nat) (x : Thread) : (s.setThr k x).presents = s.presents := rfl
@[simp] theorem State.setThr_rounds (s : State) (k : Nat) (x : Thread) : (s.setThr k x).rounds = s.rounds := rfl
@[simp] theorem State.setThr_episodes (s : State) (k : Nat) (x : Thread) : (s.setThr k x).episodes = s.episodes := rfl
@[simp] theorem State.setThr_frame (s : State) (k : Nat) (x : Thread) : (s.setThr k x).frame = s.frame := rfl
@[simp] theorem State.setThr_ports (s : State) (k : Nat) (x : Thread) : (s.setThr k x).ports = s.ports := rfl
@[simp] theorem State.setThr_flights (s : State) (k : Nat) (x : Thread) : (s.setThr k x).flights = s.flights := rfl
@[simp] theorem State.setThr_routing (s : State) (k : Nat) (x : Thread) : (s.setThr k x).routing = s.routing := rfl
@[simp] theorem State.setThr_boot (s : State) (k : Nat) (x : Thread) : (s.setThr k x).boot = s.boot := rfl
@[simp] theorem State.setThr_dump (s : State) (k : Nat) (x : Thread) : (s.setThr k x).dump = s.dump := rfl
@[simp] theorem State.setThr_pfIrqs (s : State) (k : Nat) (x : Thread) : (s.setThr k x).pfIrqs = s.pfIrqs := rfl
@[simp] theorem State.setThr_mail (s : State) (k : Nat) (x : Thread) : (s.setThr k x).mail = s.mail := rfl
@[simp] theorem State.setThr_fwRot (s : State) (k : Nat) (x : Thread) : (s.setThr k x).fwRot = s.fwRot := rfl
@[simp] theorem State.setThr_reserve (s : State) (k : Nat) (x : Thread) : (s.setThr k x).reserve = s.reserve := rfl
@[simp] theorem State.setThr_supHead (s : State) (k : Nat) (x : Thread) : (s.setThr k x).supHead = s.supHead := rfl
@[simp] theorem State.setThr_gate (s : State) (k : Nat) (x : Thread) : (s.setThr k x).gate = s.gate := rfl
@[simp] theorem State.setThr_gateFlags (s : State) (k : Nat) (x : Thread) : (s.setThr k x).gateFlags = s.gateFlags := rfl
@[simp] theorem State.setThr_boxes (s : State) (k : Nat) (x : Thread) : (s.setThr k x).boxes = s.boxes := rfl

@[simp] theorem State.setCore_agenda (s : State) (k : Nat) (x : Core) : (s.setCore k x).agenda = s.agenda := rfl
@[simp] theorem State.setCore_cur (s : State) (k : Nat) (x : Core) : (s.setCore k x).cur = s.cur := rfl
@[simp] theorem State.setCore_turn (s : State) (k : Nat) (x : Core) : (s.setCore k x).turn = s.turn := rfl
@[simp] theorem State.setCore_did (s : State) (k : Nat) (x : Core) : (s.setCore k x).did = s.did := rfl
@[simp] theorem State.setCore_nextId (s : State) (k : Nat) (x : Core) : (s.setCore k x).nextId = s.nextId := rfl
@[simp] theorem State.setCore_free (s : State) (k : Nat) (x : Core) : (s.setCore k x).free = s.free := rfl
@[simp] theorem State.setCore_fetchAhead (s : State) (k : Nat) (x : Core) : (s.setCore k x).fetchAhead = s.fetchAhead := rfl
@[simp] theorem State.setCore_cycle (s : State) (k : Nat) (x : Core) : (s.setCore k x).cycle = s.cycle := rfl
@[simp] theorem State.setCore_period (s : State) (k : Nat) (x : Core) : (s.setCore k x).period = s.period := rfl
@[simp] theorem State.setCore_ptb (s : State) (k : Nat) (x : Core) : (s.setCore k x).ptb = s.ptb := rfl
@[simp] theorem State.setCore_sub (s : State) (k : Nat) (x : Core) : (s.setCore k x).sub = s.sub := rfl
@[simp] theorem State.setCore_tbSet (s : State) (k : Nat) (x : Core) : (s.setCore k x).tbSet = s.tbSet := rfl
@[simp] theorem State.setCore_slew (s : State) (k : Nat) (x : Core) : (s.setCore k x).slew = s.slew := rfl
@[simp] theorem State.setCore_pkg (s : State) (k : Nat) (x : Core) : (s.setCore k x).pkg = s.pkg := rfl
@[simp] theorem State.setCore_pod (s : State) (k : Nat) (x : Core) : (s.setCore k x).pod = s.pod := rfl
@[simp] theorem State.setCore_fatal (s : State) (k : Nat) (x : Core) : (s.setCore k x).fatal = s.fatal := rfl
@[simp] theorem State.setCore_mem (s : State) (k : Nat) (x : Core) : (s.setCore k x).mem = s.mem := rfl
@[simp] theorem State.setCore_tags (s : State) (k : Nat) (x : Core) : (s.setCore k x).tags = s.tags := rfl
@[simp] theorem State.setCore_poison (s : State) (k : Nat) (x : Core) : (s.setCore k x).poison = s.poison := rfl
@[simp] theorem State.setCore_hostMem (s : State) (k : Nat) (x : Core) : (s.setCore k x).hostMem = s.hostMem := rfl
@[simp] theorem State.setCore_corrected (s : State) (k : Nat) (x : Core) : (s.setCore k x).corrected = s.corrected := rfl
@[simp] theorem State.setCore_threads (s : State) (k : Nat) (x : Core) : (s.setCore k x).threads = s.threads := rfl
@[simp] theorem State.setCore_cores (s : State) (k : Nat) (x : Core) : (s.setCore k x).cores = tset s.cores k x := rfl
@[simp] theorem State.setCore_banks (s : State) (k : Nat) (x : Core) : (s.setCore k x).banks = s.banks := rfl
@[simp] theorem State.setCore_quads (s : State) (k : Nat) (x : Core) : (s.setCore k x).quads = s.quads := rfl
@[simp] theorem State.setCore_dies (s : State) (k : Nat) (x : Core) : (s.setCore k x).dies = s.dies := rfl
@[simp] theorem State.setCore_reqs (s : State) (k : Nat) (x : Core) : (s.setCore k x).reqs = s.reqs := rfl
@[simp] theorem State.setCore_ctxs (s : State) (k : Nat) (x : Core) : (s.setCore k x).ctxs = s.ctxs := rfl
@[simp] theorem State.setCore_launches (s : State) (k : Nat) (x : Core) : (s.setCore k x).launches = s.launches := rfl
@[simp] theorem State.setCore_served (s : State) (k : Nat) (x : Core) : (s.setCore k x).served = s.served := rfl
@[simp] theorem State.setCore_usedFrames (s : State) (k : Nat) (x : Core) : (s.setCore k x).usedFrames = s.usedFrames := rfl
@[simp] theorem State.setCore_tableNext (s : State) (k : Nat) (x : Core) : (s.setCore k x).tableNext = s.tableNext := rfl
@[simp] theorem State.setCore_freedKeys (s : State) (k : Nat) (x : Core) : (s.setCore k x).freedKeys = s.freedKeys := rfl
@[simp] theorem State.setCore_net (s : State) (k : Nat) (x : Core) : (s.setCore k x).net = s.net := rfl
@[simp] theorem State.setCore_reports (s : State) (k : Nat) (x : Core) : (s.setCore k x).reports = s.reports := rfl
@[simp] theorem State.setCore_sup (s : State) (k : Nat) (x : Core) : (s.setCore k x).sup = s.sup := rfl
@[simp] theorem State.setCore_supLost (s : State) (k : Nat) (x : Core) : (s.setCore k x).supLost = s.supLost := rfl
@[simp] theorem State.setCore_forwards (s : State) (k : Nat) (x : Core) : (s.setCore k x).forwards = s.forwards := rfl
@[simp] theorem State.setCore_presents (s : State) (k : Nat) (x : Core) : (s.setCore k x).presents = s.presents := rfl
@[simp] theorem State.setCore_rounds (s : State) (k : Nat) (x : Core) : (s.setCore k x).rounds = s.rounds := rfl
@[simp] theorem State.setCore_episodes (s : State) (k : Nat) (x : Core) : (s.setCore k x).episodes = s.episodes := rfl
@[simp] theorem State.setCore_frame (s : State) (k : Nat) (x : Core) : (s.setCore k x).frame = s.frame := rfl
@[simp] theorem State.setCore_ports (s : State) (k : Nat) (x : Core) : (s.setCore k x).ports = s.ports := rfl
@[simp] theorem State.setCore_flights (s : State) (k : Nat) (x : Core) : (s.setCore k x).flights = s.flights := rfl
@[simp] theorem State.setCore_routing (s : State) (k : Nat) (x : Core) : (s.setCore k x).routing = s.routing := rfl
@[simp] theorem State.setCore_boot (s : State) (k : Nat) (x : Core) : (s.setCore k x).boot = s.boot := rfl
@[simp] theorem State.setCore_dump (s : State) (k : Nat) (x : Core) : (s.setCore k x).dump = s.dump := rfl
@[simp] theorem State.setCore_pfIrqs (s : State) (k : Nat) (x : Core) : (s.setCore k x).pfIrqs = s.pfIrqs := rfl
@[simp] theorem State.setCore_mail (s : State) (k : Nat) (x : Core) : (s.setCore k x).mail = s.mail := rfl
@[simp] theorem State.setCore_fwRot (s : State) (k : Nat) (x : Core) : (s.setCore k x).fwRot = s.fwRot := rfl
@[simp] theorem State.setCore_reserve (s : State) (k : Nat) (x : Core) : (s.setCore k x).reserve = s.reserve := rfl
@[simp] theorem State.setCore_supHead (s : State) (k : Nat) (x : Core) : (s.setCore k x).supHead = s.supHead := rfl
@[simp] theorem State.setCore_gate (s : State) (k : Nat) (x : Core) : (s.setCore k x).gate = s.gate := rfl
@[simp] theorem State.setCore_gateFlags (s : State) (k : Nat) (x : Core) : (s.setCore k x).gateFlags = s.gateFlags := rfl
@[simp] theorem State.setCore_boxes (s : State) (k : Nat) (x : Core) : (s.setCore k x).boxes = s.boxes := rfl

@[simp] theorem State.setBank_agenda (s : State) (k : Nat) (x : Bank) : (s.setBank k x).agenda = s.agenda := rfl
@[simp] theorem State.setBank_cur (s : State) (k : Nat) (x : Bank) : (s.setBank k x).cur = s.cur := rfl
@[simp] theorem State.setBank_turn (s : State) (k : Nat) (x : Bank) : (s.setBank k x).turn = s.turn := rfl
@[simp] theorem State.setBank_did (s : State) (k : Nat) (x : Bank) : (s.setBank k x).did = s.did := rfl
@[simp] theorem State.setBank_nextId (s : State) (k : Nat) (x : Bank) : (s.setBank k x).nextId = s.nextId := rfl
@[simp] theorem State.setBank_free (s : State) (k : Nat) (x : Bank) : (s.setBank k x).free = s.free := rfl
@[simp] theorem State.setBank_fetchAhead (s : State) (k : Nat) (x : Bank) : (s.setBank k x).fetchAhead = s.fetchAhead := rfl
@[simp] theorem State.setBank_cycle (s : State) (k : Nat) (x : Bank) : (s.setBank k x).cycle = s.cycle := rfl
@[simp] theorem State.setBank_period (s : State) (k : Nat) (x : Bank) : (s.setBank k x).period = s.period := rfl
@[simp] theorem State.setBank_ptb (s : State) (k : Nat) (x : Bank) : (s.setBank k x).ptb = s.ptb := rfl
@[simp] theorem State.setBank_sub (s : State) (k : Nat) (x : Bank) : (s.setBank k x).sub = s.sub := rfl
@[simp] theorem State.setBank_tbSet (s : State) (k : Nat) (x : Bank) : (s.setBank k x).tbSet = s.tbSet := rfl
@[simp] theorem State.setBank_slew (s : State) (k : Nat) (x : Bank) : (s.setBank k x).slew = s.slew := rfl
@[simp] theorem State.setBank_pkg (s : State) (k : Nat) (x : Bank) : (s.setBank k x).pkg = s.pkg := rfl
@[simp] theorem State.setBank_pod (s : State) (k : Nat) (x : Bank) : (s.setBank k x).pod = s.pod := rfl
@[simp] theorem State.setBank_fatal (s : State) (k : Nat) (x : Bank) : (s.setBank k x).fatal = s.fatal := rfl
@[simp] theorem State.setBank_mem (s : State) (k : Nat) (x : Bank) : (s.setBank k x).mem = s.mem := rfl
@[simp] theorem State.setBank_tags (s : State) (k : Nat) (x : Bank) : (s.setBank k x).tags = s.tags := rfl
@[simp] theorem State.setBank_poison (s : State) (k : Nat) (x : Bank) : (s.setBank k x).poison = s.poison := rfl
@[simp] theorem State.setBank_hostMem (s : State) (k : Nat) (x : Bank) : (s.setBank k x).hostMem = s.hostMem := rfl
@[simp] theorem State.setBank_corrected (s : State) (k : Nat) (x : Bank) : (s.setBank k x).corrected = s.corrected := rfl
@[simp] theorem State.setBank_threads (s : State) (k : Nat) (x : Bank) : (s.setBank k x).threads = s.threads := rfl
@[simp] theorem State.setBank_cores (s : State) (k : Nat) (x : Bank) : (s.setBank k x).cores = s.cores := rfl
@[simp] theorem State.setBank_banks (s : State) (k : Nat) (x : Bank) : (s.setBank k x).banks = tset s.banks k x := rfl
@[simp] theorem State.setBank_quads (s : State) (k : Nat) (x : Bank) : (s.setBank k x).quads = s.quads := rfl
@[simp] theorem State.setBank_dies (s : State) (k : Nat) (x : Bank) : (s.setBank k x).dies = s.dies := rfl
@[simp] theorem State.setBank_reqs (s : State) (k : Nat) (x : Bank) : (s.setBank k x).reqs = s.reqs := rfl
@[simp] theorem State.setBank_ctxs (s : State) (k : Nat) (x : Bank) : (s.setBank k x).ctxs = s.ctxs := rfl
@[simp] theorem State.setBank_launches (s : State) (k : Nat) (x : Bank) : (s.setBank k x).launches = s.launches := rfl
@[simp] theorem State.setBank_served (s : State) (k : Nat) (x : Bank) : (s.setBank k x).served = s.served := rfl
@[simp] theorem State.setBank_usedFrames (s : State) (k : Nat) (x : Bank) : (s.setBank k x).usedFrames = s.usedFrames := rfl
@[simp] theorem State.setBank_tableNext (s : State) (k : Nat) (x : Bank) : (s.setBank k x).tableNext = s.tableNext := rfl
@[simp] theorem State.setBank_freedKeys (s : State) (k : Nat) (x : Bank) : (s.setBank k x).freedKeys = s.freedKeys := rfl
@[simp] theorem State.setBank_net (s : State) (k : Nat) (x : Bank) : (s.setBank k x).net = s.net := rfl
@[simp] theorem State.setBank_reports (s : State) (k : Nat) (x : Bank) : (s.setBank k x).reports = s.reports := rfl
@[simp] theorem State.setBank_sup (s : State) (k : Nat) (x : Bank) : (s.setBank k x).sup = s.sup := rfl
@[simp] theorem State.setBank_supLost (s : State) (k : Nat) (x : Bank) : (s.setBank k x).supLost = s.supLost := rfl
@[simp] theorem State.setBank_forwards (s : State) (k : Nat) (x : Bank) : (s.setBank k x).forwards = s.forwards := rfl
@[simp] theorem State.setBank_presents (s : State) (k : Nat) (x : Bank) : (s.setBank k x).presents = s.presents := rfl
@[simp] theorem State.setBank_rounds (s : State) (k : Nat) (x : Bank) : (s.setBank k x).rounds = s.rounds := rfl
@[simp] theorem State.setBank_episodes (s : State) (k : Nat) (x : Bank) : (s.setBank k x).episodes = s.episodes := rfl
@[simp] theorem State.setBank_frame (s : State) (k : Nat) (x : Bank) : (s.setBank k x).frame = s.frame := rfl
@[simp] theorem State.setBank_ports (s : State) (k : Nat) (x : Bank) : (s.setBank k x).ports = s.ports := rfl
@[simp] theorem State.setBank_flights (s : State) (k : Nat) (x : Bank) : (s.setBank k x).flights = s.flights := rfl
@[simp] theorem State.setBank_routing (s : State) (k : Nat) (x : Bank) : (s.setBank k x).routing = s.routing := rfl
@[simp] theorem State.setBank_boot (s : State) (k : Nat) (x : Bank) : (s.setBank k x).boot = s.boot := rfl
@[simp] theorem State.setBank_dump (s : State) (k : Nat) (x : Bank) : (s.setBank k x).dump = s.dump := rfl
@[simp] theorem State.setBank_pfIrqs (s : State) (k : Nat) (x : Bank) : (s.setBank k x).pfIrqs = s.pfIrqs := rfl
@[simp] theorem State.setBank_mail (s : State) (k : Nat) (x : Bank) : (s.setBank k x).mail = s.mail := rfl
@[simp] theorem State.setBank_fwRot (s : State) (k : Nat) (x : Bank) : (s.setBank k x).fwRot = s.fwRot := rfl
@[simp] theorem State.setBank_reserve (s : State) (k : Nat) (x : Bank) : (s.setBank k x).reserve = s.reserve := rfl
@[simp] theorem State.setBank_supHead (s : State) (k : Nat) (x : Bank) : (s.setBank k x).supHead = s.supHead := rfl
@[simp] theorem State.setBank_gate (s : State) (k : Nat) (x : Bank) : (s.setBank k x).gate = s.gate := rfl
@[simp] theorem State.setBank_gateFlags (s : State) (k : Nat) (x : Bank) : (s.setBank k x).gateFlags = s.gateFlags := rfl
@[simp] theorem State.setBank_boxes (s : State) (k : Nat) (x : Bank) : (s.setBank k x).boxes = s.boxes := rfl

@[simp] theorem State.setQuad_agenda (s : State) (k : Nat) (x : Quad) : (s.setQuad k x).agenda = s.agenda := rfl
@[simp] theorem State.setQuad_cur (s : State) (k : Nat) (x : Quad) : (s.setQuad k x).cur = s.cur := rfl
@[simp] theorem State.setQuad_turn (s : State) (k : Nat) (x : Quad) : (s.setQuad k x).turn = s.turn := rfl
@[simp] theorem State.setQuad_did (s : State) (k : Nat) (x : Quad) : (s.setQuad k x).did = s.did := rfl
@[simp] theorem State.setQuad_nextId (s : State) (k : Nat) (x : Quad) : (s.setQuad k x).nextId = s.nextId := rfl
@[simp] theorem State.setQuad_free (s : State) (k : Nat) (x : Quad) : (s.setQuad k x).free = s.free := rfl
@[simp] theorem State.setQuad_fetchAhead (s : State) (k : Nat) (x : Quad) : (s.setQuad k x).fetchAhead = s.fetchAhead := rfl
@[simp] theorem State.setQuad_cycle (s : State) (k : Nat) (x : Quad) : (s.setQuad k x).cycle = s.cycle := rfl
@[simp] theorem State.setQuad_period (s : State) (k : Nat) (x : Quad) : (s.setQuad k x).period = s.period := rfl
@[simp] theorem State.setQuad_ptb (s : State) (k : Nat) (x : Quad) : (s.setQuad k x).ptb = s.ptb := rfl
@[simp] theorem State.setQuad_sub (s : State) (k : Nat) (x : Quad) : (s.setQuad k x).sub = s.sub := rfl
@[simp] theorem State.setQuad_tbSet (s : State) (k : Nat) (x : Quad) : (s.setQuad k x).tbSet = s.tbSet := rfl
@[simp] theorem State.setQuad_slew (s : State) (k : Nat) (x : Quad) : (s.setQuad k x).slew = s.slew := rfl
@[simp] theorem State.setQuad_pkg (s : State) (k : Nat) (x : Quad) : (s.setQuad k x).pkg = s.pkg := rfl
@[simp] theorem State.setQuad_pod (s : State) (k : Nat) (x : Quad) : (s.setQuad k x).pod = s.pod := rfl
@[simp] theorem State.setQuad_fatal (s : State) (k : Nat) (x : Quad) : (s.setQuad k x).fatal = s.fatal := rfl
@[simp] theorem State.setQuad_mem (s : State) (k : Nat) (x : Quad) : (s.setQuad k x).mem = s.mem := rfl
@[simp] theorem State.setQuad_tags (s : State) (k : Nat) (x : Quad) : (s.setQuad k x).tags = s.tags := rfl
@[simp] theorem State.setQuad_poison (s : State) (k : Nat) (x : Quad) : (s.setQuad k x).poison = s.poison := rfl
@[simp] theorem State.setQuad_hostMem (s : State) (k : Nat) (x : Quad) : (s.setQuad k x).hostMem = s.hostMem := rfl
@[simp] theorem State.setQuad_corrected (s : State) (k : Nat) (x : Quad) : (s.setQuad k x).corrected = s.corrected := rfl
@[simp] theorem State.setQuad_threads (s : State) (k : Nat) (x : Quad) : (s.setQuad k x).threads = s.threads := rfl
@[simp] theorem State.setQuad_cores (s : State) (k : Nat) (x : Quad) : (s.setQuad k x).cores = s.cores := rfl
@[simp] theorem State.setQuad_banks (s : State) (k : Nat) (x : Quad) : (s.setQuad k x).banks = s.banks := rfl
@[simp] theorem State.setQuad_quads (s : State) (k : Nat) (x : Quad) : (s.setQuad k x).quads = tset s.quads k x := rfl
@[simp] theorem State.setQuad_dies (s : State) (k : Nat) (x : Quad) : (s.setQuad k x).dies = s.dies := rfl
@[simp] theorem State.setQuad_reqs (s : State) (k : Nat) (x : Quad) : (s.setQuad k x).reqs = s.reqs := rfl
@[simp] theorem State.setQuad_ctxs (s : State) (k : Nat) (x : Quad) : (s.setQuad k x).ctxs = s.ctxs := rfl
@[simp] theorem State.setQuad_launches (s : State) (k : Nat) (x : Quad) : (s.setQuad k x).launches = s.launches := rfl
@[simp] theorem State.setQuad_served (s : State) (k : Nat) (x : Quad) : (s.setQuad k x).served = s.served := rfl
@[simp] theorem State.setQuad_usedFrames (s : State) (k : Nat) (x : Quad) : (s.setQuad k x).usedFrames = s.usedFrames := rfl
@[simp] theorem State.setQuad_tableNext (s : State) (k : Nat) (x : Quad) : (s.setQuad k x).tableNext = s.tableNext := rfl
@[simp] theorem State.setQuad_freedKeys (s : State) (k : Nat) (x : Quad) : (s.setQuad k x).freedKeys = s.freedKeys := rfl
@[simp] theorem State.setQuad_net (s : State) (k : Nat) (x : Quad) : (s.setQuad k x).net = s.net := rfl
@[simp] theorem State.setQuad_reports (s : State) (k : Nat) (x : Quad) : (s.setQuad k x).reports = s.reports := rfl
@[simp] theorem State.setQuad_sup (s : State) (k : Nat) (x : Quad) : (s.setQuad k x).sup = s.sup := rfl
@[simp] theorem State.setQuad_supLost (s : State) (k : Nat) (x : Quad) : (s.setQuad k x).supLost = s.supLost := rfl
@[simp] theorem State.setQuad_forwards (s : State) (k : Nat) (x : Quad) : (s.setQuad k x).forwards = s.forwards := rfl
@[simp] theorem State.setQuad_presents (s : State) (k : Nat) (x : Quad) : (s.setQuad k x).presents = s.presents := rfl
@[simp] theorem State.setQuad_rounds (s : State) (k : Nat) (x : Quad) : (s.setQuad k x).rounds = s.rounds := rfl
@[simp] theorem State.setQuad_episodes (s : State) (k : Nat) (x : Quad) : (s.setQuad k x).episodes = s.episodes := rfl
@[simp] theorem State.setQuad_frame (s : State) (k : Nat) (x : Quad) : (s.setQuad k x).frame = s.frame := rfl
@[simp] theorem State.setQuad_ports (s : State) (k : Nat) (x : Quad) : (s.setQuad k x).ports = s.ports := rfl
@[simp] theorem State.setQuad_flights (s : State) (k : Nat) (x : Quad) : (s.setQuad k x).flights = s.flights := rfl
@[simp] theorem State.setQuad_routing (s : State) (k : Nat) (x : Quad) : (s.setQuad k x).routing = s.routing := rfl
@[simp] theorem State.setQuad_boot (s : State) (k : Nat) (x : Quad) : (s.setQuad k x).boot = s.boot := rfl
@[simp] theorem State.setQuad_dump (s : State) (k : Nat) (x : Quad) : (s.setQuad k x).dump = s.dump := rfl
@[simp] theorem State.setQuad_pfIrqs (s : State) (k : Nat) (x : Quad) : (s.setQuad k x).pfIrqs = s.pfIrqs := rfl
@[simp] theorem State.setQuad_mail (s : State) (k : Nat) (x : Quad) : (s.setQuad k x).mail = s.mail := rfl
@[simp] theorem State.setQuad_fwRot (s : State) (k : Nat) (x : Quad) : (s.setQuad k x).fwRot = s.fwRot := rfl
@[simp] theorem State.setQuad_reserve (s : State) (k : Nat) (x : Quad) : (s.setQuad k x).reserve = s.reserve := rfl
@[simp] theorem State.setQuad_supHead (s : State) (k : Nat) (x : Quad) : (s.setQuad k x).supHead = s.supHead := rfl
@[simp] theorem State.setQuad_gate (s : State) (k : Nat) (x : Quad) : (s.setQuad k x).gate = s.gate := rfl
@[simp] theorem State.setQuad_gateFlags (s : State) (k : Nat) (x : Quad) : (s.setQuad k x).gateFlags = s.gateFlags := rfl
@[simp] theorem State.setQuad_boxes (s : State) (k : Nat) (x : Quad) : (s.setQuad k x).boxes = s.boxes := rfl

@[simp] theorem State.setDie_agenda (s : State) (k : Nat) (x : Die) : (s.setDie k x).agenda = s.agenda := rfl
@[simp] theorem State.setDie_cur (s : State) (k : Nat) (x : Die) : (s.setDie k x).cur = s.cur := rfl
@[simp] theorem State.setDie_turn (s : State) (k : Nat) (x : Die) : (s.setDie k x).turn = s.turn := rfl
@[simp] theorem State.setDie_did (s : State) (k : Nat) (x : Die) : (s.setDie k x).did = s.did := rfl
@[simp] theorem State.setDie_nextId (s : State) (k : Nat) (x : Die) : (s.setDie k x).nextId = s.nextId := rfl
@[simp] theorem State.setDie_free (s : State) (k : Nat) (x : Die) : (s.setDie k x).free = s.free := rfl
@[simp] theorem State.setDie_fetchAhead (s : State) (k : Nat) (x : Die) : (s.setDie k x).fetchAhead = s.fetchAhead := rfl
@[simp] theorem State.setDie_cycle (s : State) (k : Nat) (x : Die) : (s.setDie k x).cycle = s.cycle := rfl
@[simp] theorem State.setDie_period (s : State) (k : Nat) (x : Die) : (s.setDie k x).period = s.period := rfl
@[simp] theorem State.setDie_ptb (s : State) (k : Nat) (x : Die) : (s.setDie k x).ptb = s.ptb := rfl
@[simp] theorem State.setDie_sub (s : State) (k : Nat) (x : Die) : (s.setDie k x).sub = s.sub := rfl
@[simp] theorem State.setDie_tbSet (s : State) (k : Nat) (x : Die) : (s.setDie k x).tbSet = s.tbSet := rfl
@[simp] theorem State.setDie_slew (s : State) (k : Nat) (x : Die) : (s.setDie k x).slew = s.slew := rfl
@[simp] theorem State.setDie_pkg (s : State) (k : Nat) (x : Die) : (s.setDie k x).pkg = s.pkg := rfl
@[simp] theorem State.setDie_pod (s : State) (k : Nat) (x : Die) : (s.setDie k x).pod = s.pod := rfl
@[simp] theorem State.setDie_fatal (s : State) (k : Nat) (x : Die) : (s.setDie k x).fatal = s.fatal := rfl
@[simp] theorem State.setDie_mem (s : State) (k : Nat) (x : Die) : (s.setDie k x).mem = s.mem := rfl
@[simp] theorem State.setDie_tags (s : State) (k : Nat) (x : Die) : (s.setDie k x).tags = s.tags := rfl
@[simp] theorem State.setDie_poison (s : State) (k : Nat) (x : Die) : (s.setDie k x).poison = s.poison := rfl
@[simp] theorem State.setDie_hostMem (s : State) (k : Nat) (x : Die) : (s.setDie k x).hostMem = s.hostMem := rfl
@[simp] theorem State.setDie_corrected (s : State) (k : Nat) (x : Die) : (s.setDie k x).corrected = s.corrected := rfl
@[simp] theorem State.setDie_threads (s : State) (k : Nat) (x : Die) : (s.setDie k x).threads = s.threads := rfl
@[simp] theorem State.setDie_cores (s : State) (k : Nat) (x : Die) : (s.setDie k x).cores = s.cores := rfl
@[simp] theorem State.setDie_banks (s : State) (k : Nat) (x : Die) : (s.setDie k x).banks = s.banks := rfl
@[simp] theorem State.setDie_quads (s : State) (k : Nat) (x : Die) : (s.setDie k x).quads = s.quads := rfl
@[simp] theorem State.setDie_dies (s : State) (k : Nat) (x : Die) : (s.setDie k x).dies = tset s.dies k x := rfl
@[simp] theorem State.setDie_reqs (s : State) (k : Nat) (x : Die) : (s.setDie k x).reqs = s.reqs := rfl
@[simp] theorem State.setDie_ctxs (s : State) (k : Nat) (x : Die) : (s.setDie k x).ctxs = s.ctxs := rfl
@[simp] theorem State.setDie_launches (s : State) (k : Nat) (x : Die) : (s.setDie k x).launches = s.launches := rfl
@[simp] theorem State.setDie_served (s : State) (k : Nat) (x : Die) : (s.setDie k x).served = s.served := rfl
@[simp] theorem State.setDie_usedFrames (s : State) (k : Nat) (x : Die) : (s.setDie k x).usedFrames = s.usedFrames := rfl
@[simp] theorem State.setDie_tableNext (s : State) (k : Nat) (x : Die) : (s.setDie k x).tableNext = s.tableNext := rfl
@[simp] theorem State.setDie_freedKeys (s : State) (k : Nat) (x : Die) : (s.setDie k x).freedKeys = s.freedKeys := rfl
@[simp] theorem State.setDie_net (s : State) (k : Nat) (x : Die) : (s.setDie k x).net = s.net := rfl
@[simp] theorem State.setDie_reports (s : State) (k : Nat) (x : Die) : (s.setDie k x).reports = s.reports := rfl
@[simp] theorem State.setDie_sup (s : State) (k : Nat) (x : Die) : (s.setDie k x).sup = s.sup := rfl
@[simp] theorem State.setDie_supLost (s : State) (k : Nat) (x : Die) : (s.setDie k x).supLost = s.supLost := rfl
@[simp] theorem State.setDie_forwards (s : State) (k : Nat) (x : Die) : (s.setDie k x).forwards = s.forwards := rfl
@[simp] theorem State.setDie_presents (s : State) (k : Nat) (x : Die) : (s.setDie k x).presents = s.presents := rfl
@[simp] theorem State.setDie_rounds (s : State) (k : Nat) (x : Die) : (s.setDie k x).rounds = s.rounds := rfl
@[simp] theorem State.setDie_episodes (s : State) (k : Nat) (x : Die) : (s.setDie k x).episodes = s.episodes := rfl
@[simp] theorem State.setDie_frame (s : State) (k : Nat) (x : Die) : (s.setDie k x).frame = s.frame := rfl
@[simp] theorem State.setDie_ports (s : State) (k : Nat) (x : Die) : (s.setDie k x).ports = s.ports := rfl
@[simp] theorem State.setDie_flights (s : State) (k : Nat) (x : Die) : (s.setDie k x).flights = s.flights := rfl
@[simp] theorem State.setDie_routing (s : State) (k : Nat) (x : Die) : (s.setDie k x).routing = s.routing := rfl
@[simp] theorem State.setDie_boot (s : State) (k : Nat) (x : Die) : (s.setDie k x).boot = s.boot := rfl
@[simp] theorem State.setDie_dump (s : State) (k : Nat) (x : Die) : (s.setDie k x).dump = s.dump := rfl
@[simp] theorem State.setDie_pfIrqs (s : State) (k : Nat) (x : Die) : (s.setDie k x).pfIrqs = s.pfIrqs := rfl
@[simp] theorem State.setDie_mail (s : State) (k : Nat) (x : Die) : (s.setDie k x).mail = s.mail := rfl
@[simp] theorem State.setDie_fwRot (s : State) (k : Nat) (x : Die) : (s.setDie k x).fwRot = s.fwRot := rfl
@[simp] theorem State.setDie_reserve (s : State) (k : Nat) (x : Die) : (s.setDie k x).reserve = s.reserve := rfl
@[simp] theorem State.setDie_supHead (s : State) (k : Nat) (x : Die) : (s.setDie k x).supHead = s.supHead := rfl
@[simp] theorem State.setDie_gate (s : State) (k : Nat) (x : Die) : (s.setDie k x).gate = s.gate := rfl
@[simp] theorem State.setDie_gateFlags (s : State) (k : Nat) (x : Die) : (s.setDie k x).gateFlags = s.gateFlags := rfl
@[simp] theorem State.setDie_boxes (s : State) (k : Nat) (x : Die) : (s.setDie k x).boxes = s.boxes := rfl

@[simp] theorem State.setCtx_agenda (s : State) (k : Nat) (x : Ctx) : (s.setCtx k x).agenda = s.agenda := rfl
@[simp] theorem State.setCtx_cur (s : State) (k : Nat) (x : Ctx) : (s.setCtx k x).cur = s.cur := rfl
@[simp] theorem State.setCtx_turn (s : State) (k : Nat) (x : Ctx) : (s.setCtx k x).turn = s.turn := rfl
@[simp] theorem State.setCtx_did (s : State) (k : Nat) (x : Ctx) : (s.setCtx k x).did = s.did := rfl
@[simp] theorem State.setCtx_nextId (s : State) (k : Nat) (x : Ctx) : (s.setCtx k x).nextId = s.nextId := rfl
@[simp] theorem State.setCtx_free (s : State) (k : Nat) (x : Ctx) : (s.setCtx k x).free = s.free := rfl
@[simp] theorem State.setCtx_fetchAhead (s : State) (k : Nat) (x : Ctx) : (s.setCtx k x).fetchAhead = s.fetchAhead := rfl
@[simp] theorem State.setCtx_cycle (s : State) (k : Nat) (x : Ctx) : (s.setCtx k x).cycle = s.cycle := rfl
@[simp] theorem State.setCtx_period (s : State) (k : Nat) (x : Ctx) : (s.setCtx k x).period = s.period := rfl
@[simp] theorem State.setCtx_ptb (s : State) (k : Nat) (x : Ctx) : (s.setCtx k x).ptb = s.ptb := rfl
@[simp] theorem State.setCtx_sub (s : State) (k : Nat) (x : Ctx) : (s.setCtx k x).sub = s.sub := rfl
@[simp] theorem State.setCtx_tbSet (s : State) (k : Nat) (x : Ctx) : (s.setCtx k x).tbSet = s.tbSet := rfl
@[simp] theorem State.setCtx_slew (s : State) (k : Nat) (x : Ctx) : (s.setCtx k x).slew = s.slew := rfl
@[simp] theorem State.setCtx_pkg (s : State) (k : Nat) (x : Ctx) : (s.setCtx k x).pkg = s.pkg := rfl
@[simp] theorem State.setCtx_pod (s : State) (k : Nat) (x : Ctx) : (s.setCtx k x).pod = s.pod := rfl
@[simp] theorem State.setCtx_fatal (s : State) (k : Nat) (x : Ctx) : (s.setCtx k x).fatal = s.fatal := rfl
@[simp] theorem State.setCtx_mem (s : State) (k : Nat) (x : Ctx) : (s.setCtx k x).mem = s.mem := rfl
@[simp] theorem State.setCtx_tags (s : State) (k : Nat) (x : Ctx) : (s.setCtx k x).tags = s.tags := rfl
@[simp] theorem State.setCtx_poison (s : State) (k : Nat) (x : Ctx) : (s.setCtx k x).poison = s.poison := rfl
@[simp] theorem State.setCtx_hostMem (s : State) (k : Nat) (x : Ctx) : (s.setCtx k x).hostMem = s.hostMem := rfl
@[simp] theorem State.setCtx_corrected (s : State) (k : Nat) (x : Ctx) : (s.setCtx k x).corrected = s.corrected := rfl
@[simp] theorem State.setCtx_threads (s : State) (k : Nat) (x : Ctx) : (s.setCtx k x).threads = s.threads := rfl
@[simp] theorem State.setCtx_cores (s : State) (k : Nat) (x : Ctx) : (s.setCtx k x).cores = s.cores := rfl
@[simp] theorem State.setCtx_banks (s : State) (k : Nat) (x : Ctx) : (s.setCtx k x).banks = s.banks := rfl
@[simp] theorem State.setCtx_quads (s : State) (k : Nat) (x : Ctx) : (s.setCtx k x).quads = s.quads := rfl
@[simp] theorem State.setCtx_dies (s : State) (k : Nat) (x : Ctx) : (s.setCtx k x).dies = s.dies := rfl
@[simp] theorem State.setCtx_reqs (s : State) (k : Nat) (x : Ctx) : (s.setCtx k x).reqs = s.reqs := rfl
@[simp] theorem State.setCtx_ctxs (s : State) (k : Nat) (x : Ctx) : (s.setCtx k x).ctxs = tset s.ctxs k x := rfl
@[simp] theorem State.setCtx_launches (s : State) (k : Nat) (x : Ctx) : (s.setCtx k x).launches = s.launches := rfl
@[simp] theorem State.setCtx_served (s : State) (k : Nat) (x : Ctx) : (s.setCtx k x).served = s.served := rfl
@[simp] theorem State.setCtx_usedFrames (s : State) (k : Nat) (x : Ctx) : (s.setCtx k x).usedFrames = s.usedFrames := rfl
@[simp] theorem State.setCtx_tableNext (s : State) (k : Nat) (x : Ctx) : (s.setCtx k x).tableNext = s.tableNext := rfl
@[simp] theorem State.setCtx_freedKeys (s : State) (k : Nat) (x : Ctx) : (s.setCtx k x).freedKeys = s.freedKeys := rfl
@[simp] theorem State.setCtx_net (s : State) (k : Nat) (x : Ctx) : (s.setCtx k x).net = s.net := rfl
@[simp] theorem State.setCtx_reports (s : State) (k : Nat) (x : Ctx) : (s.setCtx k x).reports = s.reports := rfl
@[simp] theorem State.setCtx_sup (s : State) (k : Nat) (x : Ctx) : (s.setCtx k x).sup = s.sup := rfl
@[simp] theorem State.setCtx_supLost (s : State) (k : Nat) (x : Ctx) : (s.setCtx k x).supLost = s.supLost := rfl
@[simp] theorem State.setCtx_forwards (s : State) (k : Nat) (x : Ctx) : (s.setCtx k x).forwards = s.forwards := rfl
@[simp] theorem State.setCtx_presents (s : State) (k : Nat) (x : Ctx) : (s.setCtx k x).presents = s.presents := rfl
@[simp] theorem State.setCtx_rounds (s : State) (k : Nat) (x : Ctx) : (s.setCtx k x).rounds = s.rounds := rfl
@[simp] theorem State.setCtx_episodes (s : State) (k : Nat) (x : Ctx) : (s.setCtx k x).episodes = s.episodes := rfl
@[simp] theorem State.setCtx_frame (s : State) (k : Nat) (x : Ctx) : (s.setCtx k x).frame = s.frame := rfl
@[simp] theorem State.setCtx_ports (s : State) (k : Nat) (x : Ctx) : (s.setCtx k x).ports = s.ports := rfl
@[simp] theorem State.setCtx_flights (s : State) (k : Nat) (x : Ctx) : (s.setCtx k x).flights = s.flights := rfl
@[simp] theorem State.setCtx_routing (s : State) (k : Nat) (x : Ctx) : (s.setCtx k x).routing = s.routing := rfl
@[simp] theorem State.setCtx_boot (s : State) (k : Nat) (x : Ctx) : (s.setCtx k x).boot = s.boot := rfl
@[simp] theorem State.setCtx_dump (s : State) (k : Nat) (x : Ctx) : (s.setCtx k x).dump = s.dump := rfl
@[simp] theorem State.setCtx_pfIrqs (s : State) (k : Nat) (x : Ctx) : (s.setCtx k x).pfIrqs = s.pfIrqs := rfl
@[simp] theorem State.setCtx_mail (s : State) (k : Nat) (x : Ctx) : (s.setCtx k x).mail = s.mail := rfl
@[simp] theorem State.setCtx_fwRot (s : State) (k : Nat) (x : Ctx) : (s.setCtx k x).fwRot = s.fwRot := rfl
@[simp] theorem State.setCtx_reserve (s : State) (k : Nat) (x : Ctx) : (s.setCtx k x).reserve = s.reserve := rfl
@[simp] theorem State.setCtx_supHead (s : State) (k : Nat) (x : Ctx) : (s.setCtx k x).supHead = s.supHead := rfl
@[simp] theorem State.setCtx_gate (s : State) (k : Nat) (x : Ctx) : (s.setCtx k x).gate = s.gate := rfl
@[simp] theorem State.setCtx_gateFlags (s : State) (k : Nat) (x : Ctx) : (s.setCtx k x).gateFlags = s.gateFlags := rfl
@[simp] theorem State.setCtx_boxes (s : State) (k : Nat) (x : Ctx) : (s.setCtx k x).boxes = s.boxes := rfl

@[simp] theorem State.setLaunch_agenda (s : State) (k : Nat) (x : Launch) : (s.setLaunch k x).agenda = s.agenda := rfl
@[simp] theorem State.setLaunch_cur (s : State) (k : Nat) (x : Launch) : (s.setLaunch k x).cur = s.cur := rfl
@[simp] theorem State.setLaunch_turn (s : State) (k : Nat) (x : Launch) : (s.setLaunch k x).turn = s.turn := rfl
@[simp] theorem State.setLaunch_did (s : State) (k : Nat) (x : Launch) : (s.setLaunch k x).did = s.did := rfl
@[simp] theorem State.setLaunch_nextId (s : State) (k : Nat) (x : Launch) : (s.setLaunch k x).nextId = s.nextId := rfl
@[simp] theorem State.setLaunch_free (s : State) (k : Nat) (x : Launch) : (s.setLaunch k x).free = s.free := rfl
@[simp] theorem State.setLaunch_fetchAhead (s : State) (k : Nat) (x : Launch) : (s.setLaunch k x).fetchAhead = s.fetchAhead := rfl
@[simp] theorem State.setLaunch_cycle (s : State) (k : Nat) (x : Launch) : (s.setLaunch k x).cycle = s.cycle := rfl
@[simp] theorem State.setLaunch_period (s : State) (k : Nat) (x : Launch) : (s.setLaunch k x).period = s.period := rfl
@[simp] theorem State.setLaunch_ptb (s : State) (k : Nat) (x : Launch) : (s.setLaunch k x).ptb = s.ptb := rfl
@[simp] theorem State.setLaunch_sub (s : State) (k : Nat) (x : Launch) : (s.setLaunch k x).sub = s.sub := rfl
@[simp] theorem State.setLaunch_tbSet (s : State) (k : Nat) (x : Launch) : (s.setLaunch k x).tbSet = s.tbSet := rfl
@[simp] theorem State.setLaunch_slew (s : State) (k : Nat) (x : Launch) : (s.setLaunch k x).slew = s.slew := rfl
@[simp] theorem State.setLaunch_pkg (s : State) (k : Nat) (x : Launch) : (s.setLaunch k x).pkg = s.pkg := rfl
@[simp] theorem State.setLaunch_pod (s : State) (k : Nat) (x : Launch) : (s.setLaunch k x).pod = s.pod := rfl
@[simp] theorem State.setLaunch_fatal (s : State) (k : Nat) (x : Launch) : (s.setLaunch k x).fatal = s.fatal := rfl
@[simp] theorem State.setLaunch_mem (s : State) (k : Nat) (x : Launch) : (s.setLaunch k x).mem = s.mem := rfl
@[simp] theorem State.setLaunch_tags (s : State) (k : Nat) (x : Launch) : (s.setLaunch k x).tags = s.tags := rfl
@[simp] theorem State.setLaunch_poison (s : State) (k : Nat) (x : Launch) : (s.setLaunch k x).poison = s.poison := rfl
@[simp] theorem State.setLaunch_hostMem (s : State) (k : Nat) (x : Launch) : (s.setLaunch k x).hostMem = s.hostMem := rfl
@[simp] theorem State.setLaunch_corrected (s : State) (k : Nat) (x : Launch) : (s.setLaunch k x).corrected = s.corrected := rfl
@[simp] theorem State.setLaunch_threads (s : State) (k : Nat) (x : Launch) : (s.setLaunch k x).threads = s.threads := rfl
@[simp] theorem State.setLaunch_cores (s : State) (k : Nat) (x : Launch) : (s.setLaunch k x).cores = s.cores := rfl
@[simp] theorem State.setLaunch_banks (s : State) (k : Nat) (x : Launch) : (s.setLaunch k x).banks = s.banks := rfl
@[simp] theorem State.setLaunch_quads (s : State) (k : Nat) (x : Launch) : (s.setLaunch k x).quads = s.quads := rfl
@[simp] theorem State.setLaunch_dies (s : State) (k : Nat) (x : Launch) : (s.setLaunch k x).dies = s.dies := rfl
@[simp] theorem State.setLaunch_reqs (s : State) (k : Nat) (x : Launch) : (s.setLaunch k x).reqs = s.reqs := rfl
@[simp] theorem State.setLaunch_ctxs (s : State) (k : Nat) (x : Launch) : (s.setLaunch k x).ctxs = s.ctxs := rfl
@[simp] theorem State.setLaunch_launches (s : State) (k : Nat) (x : Launch) : (s.setLaunch k x).launches = tset s.launches k x := rfl
@[simp] theorem State.setLaunch_served (s : State) (k : Nat) (x : Launch) : (s.setLaunch k x).served = s.served := rfl
@[simp] theorem State.setLaunch_usedFrames (s : State) (k : Nat) (x : Launch) : (s.setLaunch k x).usedFrames = s.usedFrames := rfl
@[simp] theorem State.setLaunch_tableNext (s : State) (k : Nat) (x : Launch) : (s.setLaunch k x).tableNext = s.tableNext := rfl
@[simp] theorem State.setLaunch_freedKeys (s : State) (k : Nat) (x : Launch) : (s.setLaunch k x).freedKeys = s.freedKeys := rfl
@[simp] theorem State.setLaunch_net (s : State) (k : Nat) (x : Launch) : (s.setLaunch k x).net = s.net := rfl
@[simp] theorem State.setLaunch_reports (s : State) (k : Nat) (x : Launch) : (s.setLaunch k x).reports = s.reports := rfl
@[simp] theorem State.setLaunch_sup (s : State) (k : Nat) (x : Launch) : (s.setLaunch k x).sup = s.sup := rfl
@[simp] theorem State.setLaunch_supLost (s : State) (k : Nat) (x : Launch) : (s.setLaunch k x).supLost = s.supLost := rfl
@[simp] theorem State.setLaunch_forwards (s : State) (k : Nat) (x : Launch) : (s.setLaunch k x).forwards = s.forwards := rfl
@[simp] theorem State.setLaunch_presents (s : State) (k : Nat) (x : Launch) : (s.setLaunch k x).presents = s.presents := rfl
@[simp] theorem State.setLaunch_rounds (s : State) (k : Nat) (x : Launch) : (s.setLaunch k x).rounds = s.rounds := rfl
@[simp] theorem State.setLaunch_episodes (s : State) (k : Nat) (x : Launch) : (s.setLaunch k x).episodes = s.episodes := rfl
@[simp] theorem State.setLaunch_frame (s : State) (k : Nat) (x : Launch) : (s.setLaunch k x).frame = s.frame := rfl
@[simp] theorem State.setLaunch_ports (s : State) (k : Nat) (x : Launch) : (s.setLaunch k x).ports = s.ports := rfl
@[simp] theorem State.setLaunch_flights (s : State) (k : Nat) (x : Launch) : (s.setLaunch k x).flights = s.flights := rfl
@[simp] theorem State.setLaunch_routing (s : State) (k : Nat) (x : Launch) : (s.setLaunch k x).routing = s.routing := rfl
@[simp] theorem State.setLaunch_boot (s : State) (k : Nat) (x : Launch) : (s.setLaunch k x).boot = s.boot := rfl
@[simp] theorem State.setLaunch_dump (s : State) (k : Nat) (x : Launch) : (s.setLaunch k x).dump = s.dump := rfl
@[simp] theorem State.setLaunch_pfIrqs (s : State) (k : Nat) (x : Launch) : (s.setLaunch k x).pfIrqs = s.pfIrqs := rfl
@[simp] theorem State.setLaunch_mail (s : State) (k : Nat) (x : Launch) : (s.setLaunch k x).mail = s.mail := rfl
@[simp] theorem State.setLaunch_fwRot (s : State) (k : Nat) (x : Launch) : (s.setLaunch k x).fwRot = s.fwRot := rfl
@[simp] theorem State.setLaunch_reserve (s : State) (k : Nat) (x : Launch) : (s.setLaunch k x).reserve = s.reserve := rfl
@[simp] theorem State.setLaunch_supHead (s : State) (k : Nat) (x : Launch) : (s.setLaunch k x).supHead = s.supHead := rfl
@[simp] theorem State.setLaunch_gate (s : State) (k : Nat) (x : Launch) : (s.setLaunch k x).gate = s.gate := rfl
@[simp] theorem State.setLaunch_gateFlags (s : State) (k : Nat) (x : Launch) : (s.setLaunch k x).gateFlags = s.gateFlags := rfl
@[simp] theorem State.setLaunch_boxes (s : State) (k : Nat) (x : Launch) : (s.setLaunch k x).boxes = s.boxes := rfl

@[simp] theorem State.setPort_agenda (s : State) (k : Nat) (x : Port) : (s.setPort k x).agenda = s.agenda := rfl
@[simp] theorem State.setPort_cur (s : State) (k : Nat) (x : Port) : (s.setPort k x).cur = s.cur := rfl
@[simp] theorem State.setPort_turn (s : State) (k : Nat) (x : Port) : (s.setPort k x).turn = s.turn := rfl
@[simp] theorem State.setPort_did (s : State) (k : Nat) (x : Port) : (s.setPort k x).did = s.did := rfl
@[simp] theorem State.setPort_nextId (s : State) (k : Nat) (x : Port) : (s.setPort k x).nextId = s.nextId := rfl
@[simp] theorem State.setPort_free (s : State) (k : Nat) (x : Port) : (s.setPort k x).free = s.free := rfl
@[simp] theorem State.setPort_fetchAhead (s : State) (k : Nat) (x : Port) : (s.setPort k x).fetchAhead = s.fetchAhead := rfl
@[simp] theorem State.setPort_cycle (s : State) (k : Nat) (x : Port) : (s.setPort k x).cycle = s.cycle := rfl
@[simp] theorem State.setPort_period (s : State) (k : Nat) (x : Port) : (s.setPort k x).period = s.period := rfl
@[simp] theorem State.setPort_ptb (s : State) (k : Nat) (x : Port) : (s.setPort k x).ptb = s.ptb := rfl
@[simp] theorem State.setPort_sub (s : State) (k : Nat) (x : Port) : (s.setPort k x).sub = s.sub := rfl
@[simp] theorem State.setPort_tbSet (s : State) (k : Nat) (x : Port) : (s.setPort k x).tbSet = s.tbSet := rfl
@[simp] theorem State.setPort_slew (s : State) (k : Nat) (x : Port) : (s.setPort k x).slew = s.slew := rfl
@[simp] theorem State.setPort_pkg (s : State) (k : Nat) (x : Port) : (s.setPort k x).pkg = s.pkg := rfl
@[simp] theorem State.setPort_pod (s : State) (k : Nat) (x : Port) : (s.setPort k x).pod = s.pod := rfl
@[simp] theorem State.setPort_fatal (s : State) (k : Nat) (x : Port) : (s.setPort k x).fatal = s.fatal := rfl
@[simp] theorem State.setPort_mem (s : State) (k : Nat) (x : Port) : (s.setPort k x).mem = s.mem := rfl
@[simp] theorem State.setPort_tags (s : State) (k : Nat) (x : Port) : (s.setPort k x).tags = s.tags := rfl
@[simp] theorem State.setPort_poison (s : State) (k : Nat) (x : Port) : (s.setPort k x).poison = s.poison := rfl
@[simp] theorem State.setPort_hostMem (s : State) (k : Nat) (x : Port) : (s.setPort k x).hostMem = s.hostMem := rfl
@[simp] theorem State.setPort_corrected (s : State) (k : Nat) (x : Port) : (s.setPort k x).corrected = s.corrected := rfl
@[simp] theorem State.setPort_threads (s : State) (k : Nat) (x : Port) : (s.setPort k x).threads = s.threads := rfl
@[simp] theorem State.setPort_cores (s : State) (k : Nat) (x : Port) : (s.setPort k x).cores = s.cores := rfl
@[simp] theorem State.setPort_banks (s : State) (k : Nat) (x : Port) : (s.setPort k x).banks = s.banks := rfl
@[simp] theorem State.setPort_quads (s : State) (k : Nat) (x : Port) : (s.setPort k x).quads = s.quads := rfl
@[simp] theorem State.setPort_dies (s : State) (k : Nat) (x : Port) : (s.setPort k x).dies = s.dies := rfl
@[simp] theorem State.setPort_reqs (s : State) (k : Nat) (x : Port) : (s.setPort k x).reqs = s.reqs := rfl
@[simp] theorem State.setPort_ctxs (s : State) (k : Nat) (x : Port) : (s.setPort k x).ctxs = s.ctxs := rfl
@[simp] theorem State.setPort_launches (s : State) (k : Nat) (x : Port) : (s.setPort k x).launches = s.launches := rfl
@[simp] theorem State.setPort_served (s : State) (k : Nat) (x : Port) : (s.setPort k x).served = s.served := rfl
@[simp] theorem State.setPort_usedFrames (s : State) (k : Nat) (x : Port) : (s.setPort k x).usedFrames = s.usedFrames := rfl
@[simp] theorem State.setPort_tableNext (s : State) (k : Nat) (x : Port) : (s.setPort k x).tableNext = s.tableNext := rfl
@[simp] theorem State.setPort_freedKeys (s : State) (k : Nat) (x : Port) : (s.setPort k x).freedKeys = s.freedKeys := rfl
@[simp] theorem State.setPort_net (s : State) (k : Nat) (x : Port) : (s.setPort k x).net = s.net := rfl
@[simp] theorem State.setPort_reports (s : State) (k : Nat) (x : Port) : (s.setPort k x).reports = s.reports := rfl
@[simp] theorem State.setPort_sup (s : State) (k : Nat) (x : Port) : (s.setPort k x).sup = s.sup := rfl
@[simp] theorem State.setPort_supLost (s : State) (k : Nat) (x : Port) : (s.setPort k x).supLost = s.supLost := rfl
@[simp] theorem State.setPort_forwards (s : State) (k : Nat) (x : Port) : (s.setPort k x).forwards = s.forwards := rfl
@[simp] theorem State.setPort_presents (s : State) (k : Nat) (x : Port) : (s.setPort k x).presents = s.presents := rfl
@[simp] theorem State.setPort_rounds (s : State) (k : Nat) (x : Port) : (s.setPort k x).rounds = s.rounds := rfl
@[simp] theorem State.setPort_episodes (s : State) (k : Nat) (x : Port) : (s.setPort k x).episodes = s.episodes := rfl
@[simp] theorem State.setPort_frame (s : State) (k : Nat) (x : Port) : (s.setPort k x).frame = s.frame := rfl
@[simp] theorem State.setPort_ports (s : State) (k : Nat) (x : Port) : (s.setPort k x).ports = tset s.ports k x := rfl
@[simp] theorem State.setPort_flights (s : State) (k : Nat) (x : Port) : (s.setPort k x).flights = s.flights := rfl
@[simp] theorem State.setPort_routing (s : State) (k : Nat) (x : Port) : (s.setPort k x).routing = s.routing := rfl
@[simp] theorem State.setPort_boot (s : State) (k : Nat) (x : Port) : (s.setPort k x).boot = s.boot := rfl
@[simp] theorem State.setPort_dump (s : State) (k : Nat) (x : Port) : (s.setPort k x).dump = s.dump := rfl
@[simp] theorem State.setPort_pfIrqs (s : State) (k : Nat) (x : Port) : (s.setPort k x).pfIrqs = s.pfIrqs := rfl
@[simp] theorem State.setPort_mail (s : State) (k : Nat) (x : Port) : (s.setPort k x).mail = s.mail := rfl
@[simp] theorem State.setPort_fwRot (s : State) (k : Nat) (x : Port) : (s.setPort k x).fwRot = s.fwRot := rfl
@[simp] theorem State.setPort_reserve (s : State) (k : Nat) (x : Port) : (s.setPort k x).reserve = s.reserve := rfl
@[simp] theorem State.setPort_supHead (s : State) (k : Nat) (x : Port) : (s.setPort k x).supHead = s.supHead := rfl
@[simp] theorem State.setPort_gate (s : State) (k : Nat) (x : Port) : (s.setPort k x).gate = s.gate := rfl
@[simp] theorem State.setPort_gateFlags (s : State) (k : Nat) (x : Port) : (s.setPort k x).gateFlags = s.gateFlags := rfl
@[simp] theorem State.setPort_boxes (s : State) (k : Nat) (x : Port) : (s.setPort k x).boxes = s.boxes := rfl

@[simp] theorem State.updThr_eq (s : State) (k : Nat) (f : Thread → Thread) :
    s.updThr k f = s.setThr k (f (s.thr k)) := rfl
@[simp] theorem State.updCore_eq (s : State) (k : Nat) (f : Core → Core) :
    s.updCore k f = s.setCore k (f (s.core k)) := rfl
@[simp] theorem State.updBank_eq (s : State) (k : Nat) (f : Bank → Bank) :
    s.updBank k f = s.setBank k (f (s.bank k)) := rfl
@[simp] theorem State.updQuad_eq (s : State) (k : Nat) (f : Quad → Quad) :
    s.updQuad k f = s.setQuad k (f (s.quad k)) := rfl
@[simp] theorem State.updDie_eq (s : State) (k : Nat) (f : Die → Die) :
    s.updDie k f = s.setDie k (f (s.die k)) := rfl
@[simp] theorem State.updCtx_eq (s : State) (k : Nat) (f : Ctx → Ctx) :
    s.updCtx k f = s.setCtx k (f (s.ctx k)) := rfl
@[simp] theorem State.updLaunch_eq (s : State) (k : Nat) (f : Launch → Launch) :
    s.updLaunch k f = s.setLaunch k (f (s.launch k)) := rfl
@[simp] theorem State.updPort_eq (s : State) (k : Nat) (f : Port → Port) :
    s.updPort k f = s.setPort k (f (s.port k)) := rfl

@[simp] theorem State.updMe_eq (s : State) (f : Thread → Thread) : s.updMe f = s.setThr s.cur (f (s.thr s.cur)) := rfl
@[simp] theorem State.updMyCore_eq (s : State) (f : Core → Core) :
    s.updMyCore f = s.setCore (tileOf s.cur) (f (s.core (tileOf s.cur))) := rfl
@[simp] theorem State.ws_eq (s : State) (i : SReg) (x : Word) :
    s.ws i x = s.setThr s.cur { s.thr s.cur with regs := (s.thr s.cur).regs.ws i.val x } := rfl
@[simp] theorem State.wk_eq (s : State) (i : KReg) (x : Bool) :
    s.wk i x = s.setThr s.cur { s.thr s.cur with regs := (s.thr s.cur).regs.wk i.val x } := rfl
@[simp] theorem State.wm_eq (s : State) (i : MReg) (x : Mask) :
    s.wm i x = s.setThr s.cur { s.thr s.cur with regs := (s.thr s.cur).regs.wm i.val x } := rfl
@[simp] theorem State.wv_eq (s : State) (i : Nat) (x : Vec) :
    s.wv i x = s.setThr s.cur { s.thr s.cur with regs := (s.thr s.cur).regs.wv i x } := rfl
@[simp] theorem State.raise_eq (s : State) (f : BitVec 8) :
    s.raise f = s.setThr s.cur { s.thr s.cur with fpflags := (s.thr s.cur).fpflags ||| f } := rfl

end Sys2Proof.Machine
end

