-- ==== Sys2Proof/Laws/Tables.lean ====
section
/-! SUPPORT. Tables and the parts of the state: what a table answers after a write, and what each part of the state
reads as after another part is written. -/

namespace Sys2Proof.Machine

theorem tfind_cons {α : Type} (i : Nat) (y : α) (r : List (Nat × α)) (j : Nat) :
    tfind ((i, y) :: r) j = if j = i then some y else tfind r j := by
  simp only [tfind, eq_comm]

theorem tfind_tset {α : Type} (t : List (Nat × α)) (k j : Nat) (x : α) :
    tfind (tset t k x) j = if j = k then some x else tfind t j := by
  induction t with
  | nil => simp only [tset, tfind_cons]
  | cons p r ih =>
    obtain ⟨i, y⟩ := p
    simp only [tset]
    split
    · subst_vars; simp only [tfind_cons]; split <;> rfl
    · split
      · simp only [tfind_cons]
      · simp only [tfind_cons, ih]
        by_cases h : j = i
        · subst h; simp [*]
        · simp [h]

theorem tget_tset {α : Type} (t : List (Nat × α)) (k j : Nat) (x d : α) :
    tget (tset t k x) j d = if j = k then x else tget t j d := by
  simp only [tget, tfind_tset]; split <;> rfl

theorem State.thr_setThr (s : State) (k j : Nat) (x : Thread) :
    (s.setThr k x).thr j = if j = k then x else s.thr j := tget_tset ..
theorem State.core_setCore (s : State) (k j : Nat) (x : Core) :
    (s.setCore k x).core j = if j = k then x else s.core j := tget_tset ..
theorem State.bank_setBank (s : State) (k j : Nat) (x : Bank) :
    (s.setBank k x).bank j = if j = k then x else s.bank j := tget_tset ..
theorem State.quad_setQuad (s : State) (k j : Nat) (x : Quad) :
    (s.setQuad k x).quad j = if j = k then x else s.quad j := tget_tset ..
theorem State.die_setDie (s : State) (k j : Nat) (x : Die) :
    (s.setDie k x).die j = if j = k then x else s.die j := tget_tset ..
theorem State.ctx_setCtx (s : State) (k j : Nat) (x : Ctx) :
    (s.setCtx k x).ctx j = if j = k then x else s.ctx j := tget_tset ..
theorem State.launch_setLaunch (s : State) (k j : Nat) (x : Launch) :
    (s.setLaunch k x).launch j = if j = k then x else s.launch j := tget_tset ..
theorem State.port_setPort (s : State) (k j : Nat) (x : Port) :
    (s.setPort k x).port j = if j = k then x else s.port j := tget_tset ..

@[simp] theorem State.thr_setThr_same (s : State) (k : Nat) (x : Thread) : (s.setThr k x).thr k = x := by
  simp [State.thr_setThr]
@[simp] theorem State.core_setThr (s : State) (k j : Nat) (x : Thread) : (s.setThr k x).core j = s.core j := rfl
@[simp] theorem State.bank_setThr (s : State) (k j : Nat) (x : Thread) : (s.setThr k x).bank j = s.bank j := rfl
@[simp] theorem State.quad_setThr (s : State) (k j : Nat) (x : Thread) : (s.setThr k x).quad j = s.quad j := rfl
@[simp] theorem State.die_setThr (s : State) (k j : Nat) (x : Thread) : (s.setThr k x).die j = s.die j := rfl
@[simp] theorem State.ctx_setThr (s : State) (k j : Nat) (x : Thread) : (s.setThr k x).ctx j = s.ctx j := rfl
@[simp] theorem State.launch_setThr (s : State) (k j : Nat) (x : Thread) : (s.setThr k x).launch j = s.launch j := rfl
@[simp] theorem State.port_setThr (s : State) (k j : Nat) (x : Thread) : (s.setThr k x).port j = s.port j := rfl
@[simp] theorem State.core_setCore_same (s : State) (k : Nat) (x : Core) : (s.setCore k x).core k = x := by
  simp [State.core_setCore]
@[simp] theorem State.thr_setCore (s : State) (k j : Nat) (x : Core) : (s.setCore k x).thr j = s.thr j := rfl
@[simp] theorem State.bank_setCore (s : State) (k j : Nat) (x : Core) : (s.setCore k x).bank j = s.bank j := rfl
@[simp] theorem State.quad_setCore (s : State) (k j : Nat) (x : Core) : (s.setCore k x).quad j = s.quad j := rfl
@[simp] theorem State.die_setCore (s : State) (k j : Nat) (x : Core) : (s.setCore k x).die j = s.die j := rfl
@[simp] theorem State.ctx_setCore (s : State) (k j : Nat) (x : Core) : (s.setCore k x).ctx j = s.ctx j := rfl
@[simp] theorem State.launch_setCore (s : State) (k j : Nat) (x : Core) : (s.setCore k x).launch j = s.launch j := rfl
@[simp] theorem State.port_setCore (s : State) (k j : Nat) (x : Core) : (s.setCore k x).port j = s.port j := rfl
@[simp] theorem State.bank_setBank_same (s : State) (k : Nat) (x : Bank) : (s.setBank k x).bank k = x := by
  simp [State.bank_setBank]
@[simp] theorem State.thr_setBank (s : State) (k j : Nat) (x : Bank) : (s.setBank k x).thr j = s.thr j := rfl
@[simp] theorem State.core_setBank (s : State) (k j : Nat) (x : Bank) : (s.setBank k x).core j = s.core j := rfl
@[simp] theorem State.quad_setBank (s : State) (k j : Nat) (x : Bank) : (s.setBank k x).quad j = s.quad j := rfl
@[simp] theorem State.die_setBank (s : State) (k j : Nat) (x : Bank) : (s.setBank k x).die j = s.die j := rfl
@[simp] theorem State.ctx_setBank (s : State) (k j : Nat) (x : Bank) : (s.setBank k x).ctx j = s.ctx j := rfl
@[simp] theorem State.launch_setBank (s : State) (k j : Nat) (x : Bank) : (s.setBank k x).launch j = s.launch j := rfl
@[simp] theorem State.port_setBank (s : State) (k j : Nat) (x : Bank) : (s.setBank k x).port j = s.port j := rfl
@[simp] theorem State.quad_setQuad_same (s : State) (k : Nat) (x : Quad) : (s.setQuad k x).quad k = x := by
  simp [State.quad_setQuad]
@[simp] theorem State.thr_setQuad (s : State) (k j : Nat) (x : Quad) : (s.setQuad k x).thr j = s.thr j := rfl
@[simp] theorem State.core_setQuad (s : State) (k j : Nat) (x : Quad) : (s.setQuad k x).core j = s.core j := rfl
@[simp] theorem State.bank_setQuad (s : State) (k j : Nat) (x : Quad) : (s.setQuad k x).bank j = s.bank j := rfl
@[simp] theorem State.die_setQuad (s : State) (k j : Nat) (x : Quad) : (s.setQuad k x).die j = s.die j := rfl
@[simp] theorem State.ctx_setQuad (s : State) (k j : Nat) (x : Quad) : (s.setQuad k x).ctx j = s.ctx j := rfl
@[simp] theorem State.launch_setQuad (s : State) (k j : Nat) (x : Quad) : (s.setQuad k x).launch j = s.launch j := rfl
@[simp] theorem State.port_setQuad (s : State) (k j : Nat) (x : Quad) : (s.setQuad k x).port j = s.port j := rfl
@[simp] theorem State.die_setDie_same (s : State) (k : Nat) (x : Die) : (s.setDie k x).die k = x := by
  simp [State.die_setDie]
@[simp] theorem State.thr_setDie (s : State) (k j : Nat) (x : Die) : (s.setDie k x).thr j = s.thr j := rfl
@[simp] theorem State.core_setDie (s : State) (k j : Nat) (x : Die) : (s.setDie k x).core j = s.core j := rfl
@[simp] theorem State.bank_setDie (s : State) (k j : Nat) (x : Die) : (s.setDie k x).bank j = s.bank j := rfl
@[simp] theorem State.quad_setDie (s : State) (k j : Nat) (x : Die) : (s.setDie k x).quad j = s.quad j := rfl
@[simp] theorem State.ctx_setDie (s : State) (k j : Nat) (x : Die) : (s.setDie k x).ctx j = s.ctx j := rfl
@[simp] theorem State.launch_setDie (s : State) (k j : Nat) (x : Die) : (s.setDie k x).launch j = s.launch j := rfl
@[simp] theorem State.port_setDie (s : State) (k j : Nat) (x : Die) : (s.setDie k x).port j = s.port j := rfl
@[simp] theorem State.ctx_setCtx_same (s : State) (k : Nat) (x : Ctx) : (s.setCtx k x).ctx k = x := by
  simp [State.ctx_setCtx]
@[simp] theorem State.thr_setCtx (s : State) (k j : Nat) (x : Ctx) : (s.setCtx k x).thr j = s.thr j := rfl
@[simp] theorem State.core_setCtx (s : State) (k j : Nat) (x : Ctx) : (s.setCtx k x).core j = s.core j := rfl
@[simp] theorem State.bank_setCtx (s : State) (k j : Nat) (x : Ctx) : (s.setCtx k x).bank j = s.bank j := rfl
@[simp] theorem State.quad_setCtx (s : State) (k j : Nat) (x : Ctx) : (s.setCtx k x).quad j = s.quad j := rfl
@[simp] theorem State.die_setCtx (s : State) (k j : Nat) (x : Ctx) : (s.setCtx k x).die j = s.die j := rfl
@[simp] theorem State.launch_setCtx (s : State) (k j : Nat) (x : Ctx) : (s.setCtx k x).launch j = s.launch j := rfl
@[simp] theorem State.port_setCtx (s : State) (k j : Nat) (x : Ctx) : (s.setCtx k x).port j = s.port j := rfl
@[simp] theorem State.launch_setLaunch_same (s : State) (k : Nat) (x : Launch) : (s.setLaunch k x).launch k = x := by
  simp [State.launch_setLaunch]
@[simp] theorem State.thr_setLaunch (s : State) (k j : Nat) (x : Launch) : (s.setLaunch k x).thr j = s.thr j := rfl
@[simp] theorem State.core_setLaunch (s : State) (k j : Nat) (x : Launch) : (s.setLaunch k x).core j = s.core j := rfl
@[simp] theorem State.bank_setLaunch (s : State) (k j : Nat) (x : Launch) : (s.setLaunch k x).bank j = s.bank j := rfl
@[simp] theorem State.quad_setLaunch (s : State) (k j : Nat) (x : Launch) : (s.setLaunch k x).quad j = s.quad j := rfl
@[simp] theorem State.die_setLaunch (s : State) (k j : Nat) (x : Launch) : (s.setLaunch k x).die j = s.die j := rfl
@[simp] theorem State.ctx_setLaunch (s : State) (k j : Nat) (x : Launch) : (s.setLaunch k x).ctx j = s.ctx j := rfl
@[simp] theorem State.port_setLaunch (s : State) (k j : Nat) (x : Launch) : (s.setLaunch k x).port j = s.port j := rfl
@[simp] theorem State.port_setPort_same (s : State) (k : Nat) (x : Port) : (s.setPort k x).port k = x := by
  simp [State.port_setPort]
@[simp] theorem State.thr_setPort (s : State) (k j : Nat) (x : Port) : (s.setPort k x).thr j = s.thr j := rfl
@[simp] theorem State.core_setPort (s : State) (k j : Nat) (x : Port) : (s.setPort k x).core j = s.core j := rfl
@[simp] theorem State.bank_setPort (s : State) (k j : Nat) (x : Port) : (s.setPort k x).bank j = s.bank j := rfl
@[simp] theorem State.quad_setPort (s : State) (k j : Nat) (x : Port) : (s.setPort k x).quad j = s.quad j := rfl
@[simp] theorem State.die_setPort (s : State) (k j : Nat) (x : Port) : (s.setPort k x).die j = s.die j := rfl
@[simp] theorem State.ctx_setPort (s : State) (k j : Nat) (x : Port) : (s.setPort k x).ctx j = s.ctx j := rfl
@[simp] theorem State.launch_setPort (s : State) (k j : Nat) (x : Port) : (s.setPort k x).launch j = s.launch j := rfl

theorem State.setThr_eta (s : State) (k : Nat) (x : Thread) : s.setThr k x = { s with threads := tset s.threads k x } := rfl

end Sys2Proof.Machine
end

