-- ==== Sys2Proof/Laws/Run.lean ====
section
/-! SUPPORT. What settling an instruction's channel messages can change, what an instruction that ran leaves, and the
scalar shapes: each said once, for the statements about single instructions. -/

namespace Sys2Proof.Machine

open Sys2Proof.Safety

/-- `t` differs from `s` at most in the channels of launches and the inboxes of cores. -/
def ChanOnly (s t : State) : Prop :=
  t = { s with launches := t.launches, cores := t.cores } ∧
  (∀ k, t.core k = { s.core k with inbox := (t.core k).inbox, inboxDue := (t.core k).inboxDue }) ∧
  (∀ l, t.launch l = { s.launch l with chans := (t.launch l).chans })

theorem ChanOnly.rfl' (s : State) : ChanOnly s s := ⟨rfl, fun _ => rfl, fun _ => rfl⟩

theorem ChanOnly.trans {s t u : State} (h : ChanOnly s t) (k : ChanOnly t u) : ChanOnly s u := by
  obtain ⟨h1, h2, h3⟩ := h
  obtain ⟨k1, k2, k3⟩ := k
  refine ⟨?_, fun i => ?_, fun i => ?_⟩
  · rw [k1, h1]
  · rw [k2, h2]
  · rw [k3, h3]

theorem chanOnly_setLaunch (s : State) (l : Nat) (c : List Chan) :
    ChanOnly s (s.setLaunch l { s.launch l with chans := c }) := by
  refine ⟨rfl, fun k => rfl, fun j => ?_⟩
  simp only [State.launch_setLaunch]
  split
  · subst_vars; rfl
  · rfl

theorem chanOnly_setCore (s : State) (t : Nat) (c : List Vec) (n : Nat) :
    ChanOnly s (s.setCore t { s.core t with inbox := c, inboxDue := n }) := by
  refine ⟨rfl, fun j => ?_, fun k => rfl⟩
  simp only [State.core_setCore]
  split
  · subst_vars; rfl
  · rfl

theorem chanOnly_releasePop (s : State) (t l : Nat) (p : Nat × Vec) : ChanOnly s (releasePop s t l p) := by
  simp only [releasePop]
  split
  · exact chanOnly_setCore s t (s.core t).inbox _
  · exact chanOnly_setLaunch ..

theorem chanOnly_releasePush (s : State) (t l : Nat) (p : Nat × Vec) : ChanOnly s (releasePush s t l p) := by
  simp only [releasePush]
  split
  · exact chanOnly_setCore ..
  · exact chanOnly_setLaunch ..

theorem chanOnly_foldl {α : Type} (f : State → α → State) (hf : ∀ s x, ChanOnly s (f s x)) (l : List α) (s : State) :
    ChanOnly s (l.foldl f s) := by
  induction l generalizing s with
  | nil => exact ChanOnly.rfl' s
  | cons x r ih => exact (hf s x).trans (ih _)

theorem map_lupd {α β : Type} (g : α → β) (p : α → Bool) (f : α → α) (h : ∀ x, g (f x) = g x) (l : List α) :
    (lupd p f l).map g = l.map g := by
  induction l with
  | nil => rfl
  | cons x r ih => simp only [lupd]; split <;> simp [h, ih]

/-- The thread a settled instruction leaves. -/
def quiet (t : Thread) : Thread := { t with pops := [], pushes := [] }

theorem settleChans_some (u : State) (key : Nat)
    (h : ¬((u.thr key).pops = [] ∧ (u.thr key).pushes = [])) :
    settleChans u key =
      if u.reqs.any (fun r => r.ofThread key && r.undo.isSome) then
        { u.setThr key (quiet (u.thr key)) with
          reqs := lupd (fun r => r.ofThread key && r.undo.isSome)
            (fun q => { q with undo := q.undo.map fun x =>
              { x with pops := x.pops ++ (u.thr key).pops, pushes := x.pushes ++ (u.thr key).pushes } }) u.reqs }
      else
        (u.thr key).pushes.foldl (fun s q => releasePush s (tileOf key) (lidOf u (tileOf key)) q)
          ((u.thr key).pops.foldl (fun s p => releasePop s (tileOf key) (lidOf u (tileOf key)) p)
            (u.setThr key (quiet (u.thr key)))) := by
  unfold settleChans
  cases hp : (u.thr key).pops with
  | nil =>
    cases hq : (u.thr key).pushes with
    | nil => exact absurd ⟨hp, hq⟩ h
    | cons b r => dsimp only; rw [hp, hq]; rfl
  | cons a l => dsimp only; rw [hp]; rfl

/-- Everything that settling can do. -/
theorem settleChans_cases (u : State) (key : Nat) :
    ((u.thr key).pops = [] ∧ (u.thr key).pushes = [] ∧ settleChans u key = u) ∨
    (¬((u.thr key).pops = [] ∧ (u.thr key).pushes = []) ∧
      ((∃ l, settleChans u key = { u.setThr key (quiet (u.thr key)) with reqs := l } ∧
          l.map (fun r => { r with undo := none }) = u.reqs.map (fun r => { r with undo := none })) ∨
        ChanOnly (u.setThr key (quiet (u.thr key))) (settleChans u key))) := by
  by_cases h : (u.thr key).pops = [] ∧ (u.thr key).pushes = []
  · left
    refine ⟨h.1, h.2, ?_⟩
    unfold settleChans
    dsimp only
    rw [h.1, h.2]
  · right
    refine ⟨h, ?_⟩
    rw [settleChans_some u key h]
    by_cases hm : u.reqs.any (fun r => r.ofThread key && r.undo.isSome) = true
    · rw [if_pos hm]
      left
      refine ⟨_, rfl, ?_⟩
      apply map_lupd
      intro x; rfl
    · rw [if_neg hm]
      right
      exact (chanOnly_foldl _ (fun s p => chanOnly_releasePop s _ _ p) _ _).trans
        (chanOnly_foldl _ (fun s p => chanOnly_releasePush s _ _ p) _ _)

/-- An instruction that ran: its thread ends as it left it, its messages settled, and nothing else changes but where
messages go. -/
theorem onlyThread_ended (s u : State) (hc : u.cur = s.cur)
    (hu : u = { s with threads := u.threads }) (ho : ∀ k, k ≠ s.cur → u.thr k = s.thr k) :
    OnlyThread false s (ended u) (u.thr s.cur) := by
  have hcases := settleChans_cases u s.cur
  have hcores : ∀ k, u.core k = s.core k := fun k => by rw [hu]; rfl
  have hlaunch : ∀ k, u.launch k = s.launch k := fun k => by rw [hu]; rfl
  have hreqs : u.reqs = s.reqs := by rw [hu]
  have hl : u.launches = s.launches := by rw [hu]
  have hcs : u.cores = s.cores := by rw [hu]
  have hmem : u.mem = s.mem := by rw [hu]
  unfold ended
  rw [hc]
  generalize settleChans u s.cur = w at hcases
  rcases hcases with ⟨h1, h2, rfl⟩ | ⟨hne, ⟨lr, rfl, hmap⟩ | ⟨w1, w2, w3⟩⟩
  · refine ⟨rfl, ?_, ho, fun a => by rw [← hmem], ?_, fun k => ?_, fun l => ?_, ?_, fun _ _ => ⟨hreqs, hl⟩,
      fun _ _ _ => hcs⟩
    · show w.thr s.cur = _
      generalize w.thr s.cur = z at h1 h2 ⊢
      cases z
      dsimp only at h1 h2
      subst h1 h2
      rfl
    · rw [hu]
    · show w.core k = _
      rw [hcores]
      have e : State.core { w with did := .ran } k = s.core k := hcores k
      rw [e]; rfl
    · show w.launch l = _
      have e : State.launch { w with did := .ran } l = s.launch l := hlaunch l
      rw [hlaunch, e]
    · show w.reqs.map _ = _
      rw [hreqs]
  · refine ⟨rfl, ?_, fun k hk => ?_, fun a => ?_, ?_, fun k => ?_, fun l => ?_, ?_, fun a b => (hne ⟨a, b⟩).elim,
      fun a b => (hne ⟨a, b⟩).elim⟩
    · show (u.setThr s.cur (quiet (u.thr s.cur))).thr s.cur = _
      rw [State.thr_setThr_same]; rfl
    · show (u.setThr s.cur (quiet (u.thr s.cur))).thr k = _
      rw [State.thr_setThr, if_neg hk, ho k hk]
    · rw [← hmem]; rfl
    · rw [hu]; rfl
    · have e : ∀ x, State.core { ({ u.setThr s.cur (quiet (u.thr s.cur)) with reqs := lr } : State) with did := .ran } x
          = s.core x := fun x => hcores x
      rw [e]; rfl
    · have e : ∀ x, State.launch { ({ u.setThr s.cur (quiet (u.thr s.cur)) with reqs := lr } : State) with did := .ran } x
          = s.launch x := fun x => hlaunch x
      rw [e]
    · show lr.map _ = _
      rw [hmap, hreqs]
  · have ht : w.threads = (u.setThr s.cur (quiet (u.thr s.cur))).threads := by rw [w1]
    refine ⟨rfl, ?_, fun k hk => ?_, fun a => ?_, ?_, fun k => ?_, fun l => ?_, ?_, fun a b => (hne ⟨a, b⟩).elim,
      fun a b => (hne ⟨a, b⟩).elim⟩
    · show tget w.threads s.cur _ = _
      rw [ht]
      exact State.thr_setThr_same ..
    · show tget w.threads k _ = _
      rw [ht]
      have := State.thr_setThr u s.cur k (quiet (u.thr s.cur))
      rw [if_neg hk, ho k hk] at this
      exact this
    · show readByte w.mem a = _
      rw [w1]; show readByte u.mem a = _; rw [hmem]
    · rw [w1, hu]; rfl
    · have e : ∀ x, State.core { w with did := .ran } x = w.core x := fun x => rfl
      have e2 : (u.setThr s.cur (quiet (u.thr s.cur))).core k = s.core k := hcores k
      rw [e, w2, e2]; rfl
    · have e : ∀ x, State.launch { w with did := .ran } x = w.launch x := fun x => rfl
      have e2 : (u.setThr s.cur (quiet (u.thr s.cur))).launch l = s.launch l := hlaunch l
      rw [e, w3, e2]
    · show w.reqs.map _ = _
      rw [w1]; show u.reqs.map _ = _; rw [hreqs]

/-- A step of a meaning that ends in the running thread standing as `v`. -/
theorem runsTo_setThr {i : Instr} {s : State} (v : Thread)
    (h : exec i s = run s (.ok (s.setThr s.cur v))) : RunsTo i s v := by
  have e := onlyThread_ended s (s.setThr s.cur v) rfl rfl (fun k hk => by rw [State.thr_setThr, if_neg hk])
  rw [State.thr_setThr_same] at e
  exact ⟨_, h, e⟩

/-- A step of a meaning that leaves everything. -/
theorem runsTo_same {i : Instr} {s : State} (h : exec i s = run s (.ok s)) : RunsTo i s s.me :=
  ⟨_, h, onlyThread_ended s s rfl rfl (fun _ _ => rfl)⟩

theorem writesScalar_of {i : Instr} {s : State} {d : SReg} {g : KReg} {x : Word}
    (h : exec i s = scalarOp d g s x) : WritesScalar i s d g x := by
  simp only [scalarOp, guarded] at h
  unfold WritesScalar
  split at h
  · rw [if_pos ‹_›]; exact runsTo_setThr _ h
  · rw [if_neg ‹_›]; exact runsTo_same h

theorem writesPredicate_of {i : Instr} {s : State} {d g : KReg} {x : Bool}
    (h : exec i s = predOp d g s x) : WritesPredicate i s d g x := by
  simp only [predOp, guarded] at h
  unfold WritesPredicate
  split at h
  · rw [if_pos ‹_›]; exact runsTo_setThr _ h
  · rw [if_neg ‹_›]; exact runsTo_same h

theorem writesMask_of {i : Instr} {s : State} {d : MReg} {g : KReg} {x : Mask}
    (h : exec i s = maskOp d g s x) : WritesMask i s d g x := by
  simp only [maskOp, guarded] at h
  unfold WritesMask
  split at h
  · rw [if_pos ‹_›]; exact runsTo_setThr _ h
  · rw [if_neg ‹_›]; exact runsTo_same h

theorem writesVector_of {i : Instr} {s : State} {d : VReg} {g : KReg} {w : Nat} {f : Nat → Nat} {v : Vec}
    (h : exec i s = vectorOp d g s v) (hv : ∀ j, j < 512 / w → elem v w j = f j % 2 ^ w) :
    WritesVector i s d g w f := by
  simp only [vectorOp, guarded] at h
  refine ⟨v, ?_, hv⟩
  split at h
  · rw [if_pos ‹_›]; exact runsTo_setThr _ h
  · rw [if_neg ‹_›]; exact runsTo_same h

/-- A meaning that raises a precise fault. -/
theorem traps_of {i : Instr} {s : State} {c : Code} {detail val : Nat}
    (h : exec i s = run s (raisePrecise c detail val)) : Traps i s c detail val := by
  intro hb hf hr
  rw [h]
  show Host.Outcome.next (trapOn s _ s) = _
  simp only [trapOn, if_neg hr, hb, hf.1, hf.2, Bool.false_eq_true, if_false]

end Sys2Proof.Machine
end

