-- ==== Sys2Proof/Tests/Slice0.lean ====
section
/-! SUPPORT. Tests: decoding, well-formedness, the effects of the spec's worked examples, and for every statement with
hypotheses a state and operands that meet them all, with the next state that the statement promises. Expected values are
the spec's (the rule or the example is named), never the model's own answers. -/

namespace Sys2Proof.Tests

open Sys2Proof Sys2Proof.Machine Sys2Proof.Safety

set_option maxRecDepth 100000
set_option Elab.async false

/-! ## A small machine -/

/-- The state that an outcome goes on with, the reset state where it stops. -/
def nextOf (o : Host.Outcome State Fault Refusal) : State := match o with | .next t => t | _ => State.reset

/-- Whether an outcome goes on. -/
def goesOn (o : Host.Outcome State Fault Refusal) : Bool := match o with | .next _ => true | _ => false

/-- One thread that runs: slot 0 of tile 0, for a launch of context 1. -/
def base : State := State.reset.withFetchWord 32 0x0A40_002A

/-- The running thread with scalar registers set. -/
def withS (l : List (SReg × Word)) (s : State) : State := l.foldl (fun t p => t.ws p.1 p.2) s

/-- The running thread with vector registers set to elements of a width, the last element given repeated. -/
def withV (w : Nat) (l : List (Nat × List Nat)) (s : State) : State :=
  l.foldl (fun t p => t.wv p.1 (mkVec w fun i => p.2.getD i (p.2.getLastD 0))) s

/-- What instruction `i` leaves. -/
noncomputable def runI (i : Instr) (s : State) : State := nextOf (exec i s)

/-- What the instruction of word `w` leaves, met at the program counter. -/
noncomputable def runW (w : IWord) (s : State) : State :=
  match decodeWord w with
  | .ok i => runI i (advance s 1)
  | .error _ => State.reset

/-- An element of a vector register of the running thread. -/
def elOf (s : State) (v w i : Nat) : Nat := elem (s.rv v) w i

/-- A page of the running thread's context from 0x20000 on: physical 0x1000, readable and writable. -/
def page : TlbEntry := ⟨1, 0x20, 12, 0x1000, true, true, false, 0, false⟩

/-- The small machine with that page in its TLB. -/
def based : State := base.updCore 0 fun c => { c with tlb := page :: c.tlb }

/-! ## Well-formedness: one ill-formed term for each check, beside a well-formed neighbour -/

theorem test_wf_loops : (Instr.loop 0 5).wf = false ∧ (Instr.loopP 0 5).wf = false ∧ (Instr.loop 1 5).wf = true := by decide

/-- R236: a channel as destination needs guard m0. -/
theorem test_wf_channel_guard :
    (Instr.vadd .w32 24 1 2 1).wf = false ∧ (Instr.vabs .w32 31 1 1).wf = false ∧ (Instr.vshl .w32 24 1 2 1).wf = false ∧
    (Instr.vshlImm .w32 24 1 3 1).wf = false ∧ (Instr.vshrImmHi 24 1 3 1).wf = false ∧ (Instr.vli .w32 24 3 1).wf = false ∧
    (Instr.vand 24 1 2 1).wf = false ∧ (Instr.vperm .w32 false 24 1 2 1).wf = false ∧ (Instr.vrot .w8 true 24 1 2 1).wf = false ∧
    (Instr.vscanAdd .i32 true 24 1 1).wf = false ∧ (Instr.vsatSigned .w8 24 1 1).wf = false ∧
    (Instr.vpackI .w16 24 1 2 1).wf = false ∧ (Instr.vunpackHiU .w8 24 1 1).wf = false ∧ (Instr.vfadd .f32 24 1 2 1).wf = false ∧
    (Instr.vfsqrt .f64 24 1 1).wf = false ∧ (Instr.vfcvt 0 .f32 .f16 24 1 1).wf = false ∧ (Instr.vfcls .f32 24 1 1).wf = false ∧
    (Instr.vexp2 24 1 1).wf = false ∧ (Instr.qadd 24 1 2 1).wf = false ∧ (Instr.qinv 24 1 1).wf = false ∧
    (Instr.bdeq .i8 24 1 1).wf = false ∧ (Instr.vld .w32 false 24 1 1).wf = false ∧ (Instr.vgath .w32 false 24 1 2 1).wf = false ∧
    (Instr.vldSync 24 1 2 1).wf = false ∧ (Instr.vadd .w32 24 1 2 0).wf = true ∧ (Instr.vadd .w32 23 1 2 7).wf = true := by
  decide

/-- R276: a constant amount lies below the width. -/
theorem test_wf_shift_amounts :
    (Instr.vshlImm .w8 1 2 8 0).wf = false ∧ (Instr.vshrImm .w16 1 2 16 0).wf = false ∧ (Instr.vsraImm .w8 1 2 31 0).wf = false ∧
    (Instr.vshlImm .w8 1 2 7 0).wf = true ∧ (Instr.vshrImm .w16 1 2 15 0).wf = true ∧ (Instr.vsraImm .w32 1 2 31 0).wf = true := by
  decide

/-- R291: the part lies below the ratio of the widths, and a narrowing conversion has no channel as destination. -/
theorem test_wf_conversion_parts :
    (Instr.vfcvt 2 .bf16 .f32 1 2 0).wf = false ∧ (Instr.vfcvt 1 .f32 .i32 1 2 0).wf = false ∧
    (Instr.vfcvt 0 .bf16 .f32 24 2 0).wf = false ∧ (Instr.vfcvt 1 .bf16 .f32 1 2 0).wf = true ∧
    (Instr.vfcvt 0 .f32 .bf16 24 2 0).wf = true := by decide

/-- R301, R311, Table 15-7, R243. -/
theorem test_wf_other_operands :
    (Instr.qdec 3 3 4 0).wf = false ∧ (Instr.qdec 3 4 4 0).wf = true ∧ (Instr.ld .w64 true false 1 2 0 0).wf = false ∧
    (Instr.ld .w32 true false 1 2 0 0).wf = true ∧ (Instr.holdRng 0 1 2 0).wf = false ∧ (Instr.holdRng 31 1 2 0).wf = false ∧
    (Instr.holdRng 30 1 2 0).wf = true ∧ (Instr.sysrd 0 0 0).wf = false ∧ (Instr.sysrd 1 0 0).wf = true := by decide

/-- Whether a word stands for no instruction. -/
noncomputable def refusedWord (w : IWord) : Bool := match decodeWord w with | .ok _ => false | _ => true

/-- A reserved field set (`add`, `bquant` with a guard), an unassigned major, `ld.d.u` (R311), `vfcvt.p2.bf16.f32` (R291). -/
theorem test_decode_refuses :
    refusedWord 0x0242_9880 = true ∧ refusedWord 0x3611_0041 = true ∧ refusedWord 0x0000_0000 = true ∧
    refusedWord 0x7E00_0000 = true ∧ refusedWord 0x4065_0058 = true ∧ refusedWord 0x3011_2A48 = true := by decide +kernel

/-! ## The spec's worked examples: scalar work (spec/12_isa_scalar.md) -/

theorem test_add_wraps : (runW 0x0242_9800 (withS [(5, 0x7FFF_FFFF_FFFF_FFFF), (6, 1)] base)).rs 4 = 0x8000_0000_0000_0000 := by
  decide +kernel

theorem test_sra_guarded :
    (runW 0x0274_2442 ((withS [(8, 0xFFFF_FFFF_FFFF_FF00), (9, 0x44)] base).wk 2 true)).rs 7 = 0xFFFF_FFFF_FFFF_FFF0 ∧
    (runW 0x0274_2442 (withS [(7, 5), (8, 0xFFFF_FFFF_FFFF_FF00), (9, 0x44)] base)).rs 7 = 5 := by decide +kernel

theorem test_addi_minus_one : (runW 0x0442_0FFF base).rs 4 = 0xFFFF_FFFF_FFFF_FFFF := by decide +kernel

theorem test_div_rem_minus_seven :
    (runW 0x06A5_B020 (withS [(11, -7), (12, 2)] base)).rs 10 = -3 ∧ (runI (.rem 10 11 12 0) (withS [(11, -7), (12, 2)] base)).rs 10 = -1 ∧
    (runW 0x06A5_B020 (withS [(11, -7)] base)).rs 10 = BitVec.allOnes 64 ∧ (runI (.rem 10 11 12 0) (withS [(11, -7)] base)).rs 10 = -7 := by
  decide +kernel

theorem test_mulhu : (runW 0x0642_9810 (withS [(5, 0x8000_0000_0000_0000), (6, 4)] base)).rs 4 = 2 := by decide +kernel

theorem test_bfx_bfxu :
    (runW 0x0842_9850 (withS [(5, 0x9A00), (6, 0x0808)] base)).rs 4 = 0xFFFF_FFFF_FFFF_FF9A ∧
    (runW 0x0842_9858 (withS [(5, 0x9A00), (6, 0x0808)] base)).rs 4 = 0x9A := by decide +kernel

theorem test_clz : (runW 0x0842_8000 (withS [(5, 0x9A00)] base)).rs 4 = 48 := by decide +kernel

/-- R261: `li` sign-extends, `lio` shifts in 20 bits. -/
theorem test_li_lio : (runI (.li 4 0xFFFFF) base).rs 4 = BitVec.allOnes 64 ∧
    (runI (.lio 4 0x12345) (withS [(4, 0x1)] base)).rs 4 = 0x11_2345 := by decide +kernel

theorem test_ptr_add :
    (runW 0x0E42_9800 (withS [(5, 0x9307_0000_2000_0040), (6, 0x40)] base)).rs 4 = 0x9307_0000_2000_0080 ∧
    (runW 0x0E42_9800 (withS [(5, 0x9307_0000_2000_0040), (6, -0x41)] base)).rs 4 = 0x9307_0000_1FFF_FFFF := by decide +kernel

theorem test_ptr_chk :
    (runW 0x0E12_9850 (withS [(5, 0x9307_0000_2000_0040), (6, 160)] base)).rk 1 = true ∧
    (runW 0x0E12_9850 (withS [(5, 0x9300_0000_2000_0040), (6, 160)] (base.wk 1 true))).rk 1 = false := by decide +kernel

theorem test_cmp_lt_ltu : (runW 0x1012_1410 (withS [(4, -1)] base)).rk 1 = true ∧
    (runI (.cmp .ltu 1 4 5 0) (withS [(4, -1)] (base.wk 1 true))).rk 1 = false ∧
    (runW 0x1C22_4064 (withS [(4, 99)] base)).rk 2 = true := by decide +kernel

theorem test_vext_lane_19 :
    (runW 0x1241_1490 (withV 32 [(2, [0, 0, 0, 0x8000_0001, 0])] (withS [(5, 19)] base))).rs 4 = 0xFFFF_FFFF_8000_0001 ∧
    (runI (.vextU .w32 4 2 5 0) (withV 32 [(2, [0, 0, 0, 0x8000_0001, 0])] (withS [(5, 19)] base))).rs 4 = 0x8000_0001 := by
  decide +kernel

theorem test_mtok_any_all : (runW 0x1211_00C0 (base.wm 2 0x00F0)).rk 1 = true ∧
    (runI (.mtokAll 1 2 0) ((base.wm 2 0x00F0).wk 1 true)).rk 1 = false := by decide +kernel

/-- `br.n k3, 0x1008` at 0x1018, and `jmp 0x1000` at 0x1020. -/
theorem test_branch_targets :
    (runW 0x14FF_FFFC (base.updMe fun t => { t with pc := 0x1018 })).me.npc = 0x1008 ∧
    (runW 0x16FF_FFF8 (base.updMe fun t => { t with pc := 0x1020 })).me.npc = 0x1000 ∧
    (runW 0x1700_01F9 (base.updMe fun t => { t with pc := 0x101C })).rs 31 = 0x1020 := by decide +kernel

/-- `jr s6` at 0x1002 raises ALIGN with TRAPVAL 0x1002. -/
theorem test_jr_align :
    let s := (withS [(6, 0x1002)] base).updMe fun t => { t with trapvec := 0x4000 }
    (runW 0x1803_0000 s).me.pc = 0x4000 ∧ (runW 0x1803_0000 s).me.trapval = 0x1002 ∧
    (runW 0x1803_0000 s).me.trapcause = 0x4_0005 := by decide +kernel

/-! ## Vector work (spec/13_isa_vector.md, spec/14_isa_exact_blocks.md) -/

theorem test_vadd_wraps : elOf (runW 0x2030_8810 (withV 32 [(1, [0x7FFF_FFFF]), (2, [1])] base)) 3 32 0 = 0x8000_0000 ∧
    (runW 0x2030_8810 (withV 32 [(1, [0x7FFF_FFFF]), (2, [1])] base)).me.fpflags = 0 := by decide +kernel

theorem test_vsra_vli : elOf (runW 0x2221_94B0 (withV 32 [(3, [0xFFFF_FF00])] base)) 2 32 7 = 0xFFFF_FFF8 ∧
    elOf (runW 0x2210_7550 base) 1 32 15 = 0xFFFF_FFFD := by decide +kernel

theorem test_vxor_mpop_mfirst : (runW 0x2410_8410 (withV 32 [(1, [9, 8])] base)).rv 1 = 0 ∧
    (runW 0x2441_0060 (base.wm 2 0x00F0)).rs 4 = 4 ∧ (runW 0x2441_0068 (base.wm 2 0x00F0)).rs 4 = 4 := by decide +kernel

theorem test_vcmp_lt : (runW 0x2611_0C50 (withV 32 [(2, [0xFFFF_FFFF, 0]), (3, [0])] base)).rm 1 = 1 := by decide +kernel

/-- The worked reduction: 2^24 and fifteen ones under mask 0x7FFF. -/
theorem test_vred_tree :
    (runW 0x2841_02B1 (withV 32 [(2, [0x4B80_0000, 0x3F80_0000])] (base.wm 1 0x7FFF))).rs 4 = 0x4B80_0006 ∧
    (runW 0x2841_02B1 (withV 32 [(2, [0x4B80_0000, 0x3F80_0000])] (base.wm 1 0x7FFF))).me.fpflags = fNX := by decide +kernel

theorem test_vred_lane_fault :
    let s := (withV 32 [(2, [0x4B80_0000, 0x3F80_0000])] (base.wm 1 0x7FFF)).updMe fun t => { t with trapvec := 0x4000 }
    (runW 0x2841_00B1 s).me.trapval = 0x8000 ∧ (runW 0x2841_00B1 s).rs 4 = 0 ∧ (runW 0x2841_00B1 s).me.pc = 0x4000 := by
  decide +kernel

theorem test_vdot4_vsat :
    let s := runW 0x2A42_9910 (withV 32 [(5, [0xFFFF_FFFF]), (6, [0x8080_8080])] base)
    elOf s 4 32 3 = 0xFFFE_0200 ∧ elOf (runW 0x2A12_0008 s) 1 32 3 = 0xFFFF_FF80 ∧ (runW 0x2A12_0008 s).me.fpflags = fACCSAT := by
  decide +kernel

theorem test_vfdiv_by_zero :
    let s := runW 0x2C11_0C38 (withV 64 [(2, [0x3FF0_0000_0000_0000]), (3, [0x8000_0000_0000_0000, 0x3FF0_0000_0000_0000])] base)
    elOf s 1 64 0 = 0xFFF0_0000_0000_0000 ∧ elOf s 1 64 1 = 0x3FF0_0000_0000_0000 ∧ s.me.fpflags = fDZ := by decide +kernel

theorem test_vfma_fused :
    let s := runW 0x2E11_0C00 (withV 32 [(1, [0xBF80_1000, 0]), (2, [0x3F80_0800, 0]), (3, [0x3F80_0800, 0])] base)
    elOf s 1 32 0 = 0x3380_0000 ∧ s.me.fpflags = 0 := by decide +kernel

theorem test_vfdot2 : elOf (runW 0x2E42_9840 (withV 32 [(4, [0x3F00_0000]), (5, [0x3F80_4000]), (6, [0x4040_3F80])] base)) 4 32 2 =
    0x40B0_0000 := by decide +kernel

theorem test_vfcvt_part : elOf (runW 0x3011_2848 (withV 32 [(2, [0x3F80_8000, 0])] base)) 1 16 0 = 0x3F80 ∧
    (runW 0x3011_2848 (withV 32 [(2, [0x3F80_8000, 0])] base)).me.fpflags = fNX ∧
    elOf (runW 0x3011_A948 (withV 32 [(1, [0x1234_5678]), (3, [0x3F80_0000])] base)) 1 16 15 = 0x1234 := by decide +kernel

theorem test_vfround_rdn : elOf (runW 0x3011_2BE8 (withV 32 [(2, [0xC020_0000, 0])] base)) 1 32 0 = 0xC040_0000 ∧
    (runW 0x3011_2BE8 (withV 32 [(2, [0xC020_0000, 0])] base)).me.fpflags = fNX := by decide +kernel

/-- `vexp2.f32`: the quad's queue holds +∞ for 130.0, with OF and NX. -/
theorem test_vexp2_overflows : ((runW 0x3211_0010 (withV 32 [(2, [0x4302_0000])] base)).quad 0).queue.map
      (fun r => (r.writes.map fun x => (x.1, elem x.2 32 0), r.flags, r.occ, r.latency)) =
    [([(1, 0x7F80_0000)], fOF ||| fNX, 4, 16)] := by decide +kernel

/-- The examples of entry 14. -/
theorem test_rational_core : (runW 0x3400_3800 base).me.qprime = 14 ∧
    elOf (runW 0x3411_0C08 (runW 0x3400_3800 (withV 64 [(2, [0x5555_5554]), (3, [0x5555_5553])] base))) 1 64 7 = 0xAAAA_AAA7 ∧
    elOf (runW 0x3470_8028 (withV 64 [(1, [18])] base)) 7 64 0 = 2 ∧
    elOf (runW 0x3480_A430 (withV 64 [(1, [18]), (9, [2, 40])] base)) 8 64 0 = 2 ∧
    elOf (runW 0x3480_A430 (withV 64 [(1, [18]), (9, [2, 40])] base)) 8 64 1 = 0 ∧
    (runW 0x3412_0838 ((withV 64 [(4, [5, 6]), (2, [5])] base).wm 1 0xFF00)).rm 1 = 1 := by decide +kernel

theorem test_rational_requests :
    ((runW 0x3431_0088 (runW 0x3400_3800 (withV 64 [(2, [3])] base))).quad 0).queue.map (fun r => r.writes.map fun x => elem x.2 64 4) =
      [[0x5555_5554]] ∧
    ((runW 0x3442_9898 (runW 0x3400_3800 (withV 64 [(5, [0xAAAA_AAA7])] base))).quad 0).queue.map
      (fun r => r.writes.map fun x => (x.1, elem x.2 64 0)) = [[(4, 2 ^ 64 - 1), (6, 3)]] := by decide +kernel

/-- Entry 0: elements 0 and 5 of the denominators are multiples of 3. -/
theorem test_qdiv_fault :
    let s := withV 64 [(2, [1]), (3, [3, 1, 1, 1, 1, 6, 1])] (base.updMe fun t => { t with trapvec := 0x4000 })
    (runI (.qenc 1 2 3 0) s).me.trapval = 0x21 ∧ (runI (.qenc 1 2 3 0) s).me.trapcause = 0x4_0004 ∧
    (runW 0x3411_0C81 (s.wm 1 0xFFDE)).did = .ran := by decide +kernel

theorem test_block_example :
    let s := withV 32 [(2, [0x4040_0000, 0xBFA0_0000, 0x4396_0000, 0])] base
    let q := runW 0x3611_0040 s
    (runW 0x3641_0000 s).rs 4 = 0x4396_0000 ∧ q.rv 1 = BitVec.ofNat 512 (0x4080 * 2 ^ 496 + 0x4B_0001) ∧ q.me.fpflags = fNX ∧
    (runW 0x3630_8080 q).rv 3 = BitVec.ofNat 512 (0x4396_0000 * 2 ^ 64 + 0x4080_0000) ∧
    (runW 0x3640_84C0 q).rv 4 = BitVec.ofNat 512 (0x4100 * 2 ^ 496 + 0x4B_0001) := by decide +kernel

theorem test_block_nan :
    let q := runW 0x3611_0040 (withV 32 [(2, [0, 0, 0x7F80_0001, 0])] base)
    q.rv 1 = BitVec.ofNat 512 (0x7FC0 * 2 ^ 496) ∧ q.me.fpflags = fNV ∧ elOf (runW 0x3630_8080 q) 3 32 9 = 0x7FC0_0000 := by
  decide +kernel

theorem test_decode_major_01 :
    decodeWord 0x0348AC02 = .ok (.add 20 17 11 2) ∧
    decodeWord 0x0348AC0A = .ok (.sub 20 17 11 2) ∧
    decodeWord 0x0348AC12 = .ok (.and 20 17 11 2) ∧
    decodeWord 0x0348AC1A = .ok (.or 20 17 11 2) ∧
    decodeWord 0x0348AC22 = .ok (.xor 20 17 11 2) ∧
    decodeWord 0x0348AC2A = .ok (.andn 20 17 11 2) ∧
    decodeWord 0x0348AC32 = .ok (.sll 20 17 11 2) ∧
    decodeWord 0x0348AC3A = .ok (.srl 20 17 11 2) ∧
    decodeWord 0x0348AC42 = .ok (.sra 20 17 11 2) ∧
    decodeWord 0x0348AC4A = .ok (.min 20 17 11 2) ∧
    decodeWord 0x0348AC52 = .ok (.max 20 17 11 2) ∧
    decodeWord 0x0348AC5A = .ok (.minu 20 17 11 2) ∧
    decodeWord 0x0348AC62 = .ok (.maxu 20 17 11 2) ∧
    decodeWord 0x0348AC6A = .ok (.slt 20 17 11 2) ∧
    decodeWord 0x0348AC72 = .ok (.sltu 20 17 11 2) := by
  decide +kernel

theorem test_decode_major_02 :
    decodeWord 0x05488DA5 = .ok (.addi 20 17 0xda5) ∧
    decodeWord 0x05489DA5 = .ok (.andi 20 17 0xda5) ∧
    decodeWord 0x0548ADA5 = .ok (.ori 20 17 0xda5) ∧
    decodeWord 0x0548BDA5 = .ok (.xori 20 17 0xda5) ∧
    decodeWord 0x0548C025 = .ok (.slli 20 17 37) ∧
    decodeWord 0x0548D025 = .ok (.srli 20 17 37) ∧
    decodeWord 0x0548E025 = .ok (.srai 20 17 37) ∧
    decodeWord 0x0548FDA5 = .ok (.slti 20 17 0xda5) := by
  decide +kernel

theorem test_decode_major_03 :
    decodeWord 0x0748AC02 = .ok (.mul 20 17 11 2) ∧
    decodeWord 0x0748AC0A = .ok (.mulh 20 17 11 2) ∧
    decodeWord 0x0748AC12 = .ok (.mulhu 20 17 11 2) ∧
    decodeWord 0x0748AC1A = .ok (.mulhm 20 17 11 2) ∧
    decodeWord 0x0748AC22 = .ok (.div 20 17 11 2) ∧
    decodeWord 0x0748AC2A = .ok (.divu 20 17 11 2) ∧
    decodeWord 0x0748AC32 = .ok (.rem 20 17 11 2) ∧
    decodeWord 0x0748AC3A = .ok (.remu 20 17 11 2) := by
  decide +kernel

theorem test_decode_major_04 :
    decodeWord 0x09488002 = .ok (.clz 20 17 2) ∧
    decodeWord 0x0948800A = .ok (.ctz 20 17 2) ∧
    decodeWord 0x09488012 = .ok (.popc 20 17 2) ∧
    decodeWord 0x0948801A = .ok (.brev 20 17 2) ∧
    decodeWord 0x09488022 = .ok (.sextB 20 17 2) ∧
    decodeWord 0x0948802A = .ok (.sextH 20 17 2) ∧
    decodeWord 0x09488032 = .ok (.sextW 20 17 2) ∧
    decodeWord 0x0948803A = .ok (.zextB 20 17 2) ∧
    decodeWord 0x09488042 = .ok (.zextH 20 17 2) ∧
    decodeWord 0x0948804A = .ok (.zextW 20 17 2) ∧
    decodeWord 0x0948AC52 = .ok (.bfx 20 17 11 2) ∧
    decodeWord 0x0948AC5A = .ok (.bfxu 20 17 11 2) ∧
    decodeWord 0x0948AC62 = .ok (.bfi 20 17 11 2) := by
  decide +kernel

theorem test_decode_major_05 :
    decodeWord 0x0B4DA5A5 = .ok (.li 20 0xda5a5) := by
  decide +kernel

theorem test_decode_major_06 :
    decodeWord 0x0D4DA5A5 = .ok (.lio 20 0xda5a5) := by
  decide +kernel

theorem test_decode_major_07 :
    decodeWord 0x0F48AC02 = .ok (.ptrAdd 20 17 11 2) ∧
    decodeWord 0x0F48AC0A = .ok (.ptrSub 20 17 11 2) ∧
    decodeWord 0x0F48AC12 = .ok (.ptrSetFmt 20 17 11 2) ∧
    decodeWord 0x0F48AC1A = .ok (.ptrSetBlen 20 17 11 2) ∧
    decodeWord 0x0F48AC22 = .ok (.ptrSetGen 20 17 11 2) ∧
    decodeWord 0x0F48AC2A = .ok (.ptrSetVa 20 17 11 2) ∧
    decodeWord 0x0F488032 = .ok (.ptrGetFmt 20 17 2) ∧
    decodeWord 0x0F48803A = .ok (.ptrGetBlen 20 17 2) ∧
    decodeWord 0x0F488042 = .ok (.ptrGetGen 20 17 2) ∧
    decodeWord 0x0F48804A = .ok (.ptrGetVa 20 17 2) ∧
    decodeWord 0x0E38AC52 = .ok (.ptrChk 3 17 11 2) := by
  decide +kernel

theorem test_decode_major_08 :
    decodeWord 0x1038AC2A = .ok (.cmp .geu 3 17 11 2) ∧
    decodeWord 0x10329882 = .ok (.kand 3 5 6 2) ∧
    decodeWord 0x1032988A = .ok (.kor 3 5 6 2) ∧
    decodeWord 0x10329892 = .ok (.kxor 3 5 6 2) ∧
    decodeWord 0x1032809A = .ok (.knot 3 5 2) ∧
    decodeWord 0x103004A2 = .ok (.kset 3 true 2) := by
  decide +kernel

theorem test_decode_major_09 :
    decodeWord 0x1348800A = .ok (.vbcast .w16 20 17 2) ∧
    decodeWord 0x1348AC2A = .ok (.vins .w16 20 17 11 2) ∧
    decodeWord 0x1348AC62 = .ok (.sel 20 4 17 11 2) ∧
    decodeWord 0x1348AC8A = .ok (.vext .w16 20 17 11 2) ∧
    decodeWord 0x1348ACAA = .ok (.vextU .w16 20 17 11 2) ∧
    decodeWord 0x123280C2 = .ok (.mtokAny 3 5 2) ∧
    decodeWord 0x123280CA = .ok (.mtokAll 3 5 2) ∧
    decodeWord 0x123280D2 = .ok (.mtokAllD 3 5 2) ∧
    decodeWord 0x123280DA = .ok (.ktom 3 5 2) ∧
    decodeWord 0x134280E2 = .ok (.mtos 20 5 2) ∧
    decodeWord 0x123880EA = .ok (.stom 3 17 2) := by
  decide +kernel

theorem test_decode_major_0A :
    decodeWord 0x1515A5A5 = .ok (.br 4 0x15a5a5) ∧
    decodeWord 0x1535A5A5 = .ok (.brN 4 0x15a5a5) := by
  decide +kernel

theorem test_decode_major_0B :
    decodeWord 0x16A5A5A5 = .ok (.jmp 0xa5a5a5) ∧
    decodeWord 0x17A5A5A5 = .ok (.call 0xa5a5a5) := by
  decide +kernel

theorem test_decode_major_0C :
    decodeWord 0x18088002 = .ok (.jr 17 2) ∧
    decodeWord 0x1808800A = .ok (.callr 17 2) ∧
    decodeWord 0x18000012 = .ok (.ret 2) := by
  decide +kernel

theorem test_decode_major_0D :
    decodeWord 0x1B400DA5 = .ok (.loop 20 0xda5) ∧
    decodeWord 0x1B401DA5 = .ok (.loopP 20 0xda5) := by
  decide +kernel

theorem test_decode_major_0E :
    decodeWord 0x1C38DDA5 = .ok (.cmpi .geu 3 17 0xda5) := by
  decide +kernel

theorem test_decode_major_10 :
    decodeWord 0x2148AC0A = .ok (.vadd .w16 20 17 11 2) ∧
    decodeWord 0x2148AC2A = .ok (.vsub .w16 20 17 11 2) ∧
    decodeWord 0x2148AC4A = .ok (.vmul .w16 20 17 11 2) ∧
    decodeWord 0x2148AC6A = .ok (.vmulh .w16 20 17 11 2) ∧
    decodeWord 0x2148AC8A = .ok (.vmulhu .w16 20 17 11 2) ∧
    decodeWord 0x2148ACAA = .ok (.vmad .w16 20 17 11 2) ∧
    decodeWord 0x2148ACCA = .ok (.vmin .w16 20 17 11 2) ∧
    decodeWord 0x2148ACEA = .ok (.vmax .w16 20 17 11 2) ∧
    decodeWord 0x2148AD0A = .ok (.vminu .w16 20 17 11 2) ∧
    decodeWord 0x2148AD2A = .ok (.vmaxu .w16 20 17 11 2) ∧
    decodeWord 0x2148814A = .ok (.vabs .w16 20 17 2) := by
  decide +kernel

theorem test_decode_major_11 :
    decodeWord 0x2348AC0A = .ok (.vshl .w16 20 17 11 2) ∧
    decodeWord 0x2348AC2A = .ok (.vshr .w16 20 17 11 2) ∧
    decodeWord 0x2348AC4A = .ok (.vsra .w16 20 17 11 2) ∧
    decodeWord 0x2348A46A = .ok (.vshlImm .w16 20 17 9 2) ∧
    decodeWord 0x2348A48A = .ok (.vshrImm .w16 20 17 9 2) ∧
    decodeWord 0x2348A4AA = .ok (.vsraImm .w16 20 17 9 2) ∧
    decodeWord 0x2348A4DA = .ok (.vshlImmHi 20 17 9 2) ∧
    decodeWord 0x2348A4FA = .ok (.vshrImmHi 20 17 9 2) ∧
    decodeWord 0x2348A51A = .ok (.vsraImmHi 20 17 9 2) ∧
    decodeWord 0x2348D52A = .ok (.vaddi .w16 20 17 0x15 2) ∧
    decodeWord 0x2340554A = .ok (.vli .w16 20 0x15 2) := by
  decide +kernel

theorem test_decode_major_12 :
    decodeWord 0x2548AC02 = .ok (.vand 20 17 11 2) ∧
    decodeWord 0x2548AC0A = .ok (.vor 20 17 11 2) ∧
    decodeWord 0x2548AC12 = .ok (.vxor 20 17 11 2) ∧
    decodeWord 0x2548AC1A = .ok (.vandn 20 17 11 2) ∧
    decodeWord 0x24329840 = .ok (.mand 3 5 6) ∧
    decodeWord 0x24329848 = .ok (.mor 3 5 6) ∧
    decodeWord 0x24329850 = .ok (.mxor 3 5 6) ∧
    decodeWord 0x24328058 = .ok (.mnot 3 5) ∧
    decodeWord 0x25428060 = .ok (.mpop 20 5) ∧
    decodeWord 0x25428068 = .ok (.mfirst 20 5) := by
  decide +kernel

theorem test_decode_major_13 :
    decodeWord 0x2638ACBA = .ok (.vcmp .geu .w64 3 17 11 2) := by
  decide +kernel

theorem test_decode_major_14 :
    decodeWord 0x2948AE0A = .ok (.vperm .w16 true 20 17 11 2) ∧
    decodeWord 0x2948AE2A = .ok (.vshuf .w16 true 20 17 11 2) ∧
    decodeWord 0x2948AE4A = .ok (.vrot .w16 true 20 17 11 2) ∧
    decodeWord 0x2948986A = .ok (.vcompress .w16 20 17 6 2) ∧
    decodeWord 0x2948988A = .ok (.vexpand .w16 20 17 6 2) ∧
    decodeWord 0x294882AA = .ok (.vredAdd .i64 true 20 17 2) ∧
    decodeWord 0x294882CA = .ok (.vredMin .i64 true 20 17 2) ∧
    decodeWord 0x294882EA = .ok (.vredMax .i64 true 20 17 2) ∧
    decodeWord 0x2948830A = .ok (.vredMinu .w64 true 20 17 2) ∧
    decodeWord 0x2948832A = .ok (.vredMaxu .w64 true 20 17 2) ∧
    decodeWord 0x2948834A = .ok (.vredAnd .w64 true 20 17 2) ∧
    decodeWord 0x2948836A = .ok (.vredOr .w64 true 20 17 2) ∧
    decodeWord 0x2948838A = .ok (.vredXor .w64 true 20 17 2) ∧
    decodeWord 0x294883AA = .ok (.vscanAdd .i64 true 20 17 2) := by
  decide +kernel

theorem test_decode_major_15 :
    decodeWord 0x2B488012 = .ok (.vsatSigned .w16 20 17 2) ∧
    decodeWord 0x2B488032 = .ok (.vsatUnsigned .w16 20 17 2) ∧
    decodeWord 0x2B48AC4A = .ok (.vpackI .w32 20 17 11 2) ∧
    decodeWord 0x2B48AC6A = .ok (.vpackU .w32 20 17 11 2) ∧
    decodeWord 0x2B48808A = .ok (.vunpackLoI .w16 20 17 2) ∧
    decodeWord 0x2B4880AA = .ok (.vunpackHiI .w16 20 17 2) ∧
    decodeWord 0x2B4880CA = .ok (.vunpackLoU .w16 20 17 2) ∧
    decodeWord 0x2B4880EA = .ok (.vunpackHiU .w16 20 17 2) ∧
    decodeWord 0x2B48AD1A = .ok (.vdot4 true true 20 17 11 2) ∧
    decodeWord 0x2B48AD3A = .ok (.vdot4Sat true true 20 17 11 2) := by
  decide +kernel

theorem test_decode_major_16 :
    decodeWord 0x2D48AC0A = .ok (.vfadd .f64 20 17 11 2) ∧
    decodeWord 0x2D48AC1A = .ok (.vfsub .f64 20 17 11 2) ∧
    decodeWord 0x2D48AC2A = .ok (.vfmul .f64 20 17 11 2) ∧
    decodeWord 0x2D48AC3A = .ok (.vfdiv .f64 20 17 11 2) ∧
    decodeWord 0x2D48804A = .ok (.vfsqrt .f64 20 17 2) ∧
    decodeWord 0x2D48AC5A = .ok (.vfmin .f64 20 17 11 2) ∧
    decodeWord 0x2D48AC6A = .ok (.vfmax .f64 20 17 11 2) ∧
    decodeWord 0x2D48807A = .ok (.vfabs .f64 20 17 2) ∧
    decodeWord 0x2D48808A = .ok (.vfneg .f64 20 17 2) ∧
    decodeWord 0x2C38AD3A = .ok (.vfcmp .le .f64 3 17 11 2) := by
  decide +kernel

theorem test_decode_major_17 :
    decodeWord 0x2F48AC0A = .ok (.vfma .f64 20 17 11 2) ∧
    decodeWord 0x2F48AC1A = .ok (.vfms .f64 20 17 11 2) ∧
    decodeWord 0x2F48AC2A = .ok (.vfnma .f64 20 17 11 2) ∧
    decodeWord 0x2F48AC3A = .ok (.vfnms .f64 20 17 11 2) ∧
    decodeWord 0x2F48AC42 = .ok (.vfdot2 20 17 11 2) := by
  decide +kernel

theorem test_decode_major_18 :
    decodeWord 0x3148A94A = .ok (.vfcvt 1 .bf16 .f32 20 17 2) ∧
    decodeWord 0x3148A4E2 = .ok (.vfcls .bf16 20 17 2) ∧
    decodeWord 0x3148A6EA = .ok (.vfround .rup .bf16 20 17 2) := by
  decide +kernel

theorem test_decode_major_19 :
    decodeWord 0x33488002 = .ok (.vrcp 20 17 2) ∧
    decodeWord 0x3348800A = .ok (.vrsq 20 17 2) ∧
    decodeWord 0x33488012 = .ok (.vexp2 20 17 2) ∧
    decodeWord 0x3348801A = .ok (.vlog2 20 17 2) ∧
    decodeWord 0x33488022 = .ok (.vsin 20 17 2) ∧
    decodeWord 0x3348802A = .ok (.vcos 20 17 2) ∧
    decodeWord 0x33488032 = .ok (.vtanh 20 17 2) ∧
    decodeWord 0x3348803A = .ok (.vsig 20 17 2) := by
  decide +kernel

theorem test_decode_major_1A :
    decodeWord 0x34002C00 = .ok (.qsel 11) ∧
    decodeWord 0x3548AC0A = .ok (.qadd 20 17 11 2) ∧
    decodeWord 0x3548AC12 = .ok (.qsub 20 17 11 2) ∧
    decodeWord 0x3548801A = .ok (.qneg 20 17 2) ∧
    decodeWord 0x3548AC22 = .ok (.qmul 20 17 11 2) ∧
    decodeWord 0x3548802A = .ok (.qval 20 17 2) ∧
    decodeWord 0x3548AC32 = .ok (.qdig 20 17 11 2) ∧
    decodeWord 0x3438AC3A = .ok (.qcmpEq 3 17 11 2) ∧
    decodeWord 0x3438AC42 = .ok (.qcmpNe 3 17 11 2) ∧
    decodeWord 0x3548AC82 = .ok (.qenc 20 17 11 2) ∧
    decodeWord 0x3548808A = .ok (.qinv 20 17 2) ∧
    decodeWord 0x3548AC92 = .ok (.qdiv 20 17 11 2) ∧
    decodeWord 0x3438B09A = .ok (.qdec 3 12 17 2) := by
  decide +kernel

theorem test_decode_major_1B :
    decodeWord 0x37488002 = .ok (.bamax 20 17 2) ∧
    decodeWord 0x3748AC0A = .ok (.bscaleF32 20 17 11 2) ∧
    decodeWord 0x3748AC12 = .ok (.bscaleI32 20 17 11 2) ∧
    decodeWord 0x37488060 = .ok (.bquant .tern 20 17) ∧
    decodeWord 0x374880A2 = .ok (.bdeq .tern 20 17 2) ∧
    decodeWord 0x3748ACE0 = .ok (.baddq .tern 20 17 11) := by
  decide +kernel

theorem test_decode_major_20 :
    decodeWord 0x4144D2EA = .ok (.ld .w16 true true 20 9 0xa5 2) := by
  decide +kernel

theorem test_decode_major_21 :
    decodeWord 0x4344D2AA = .ok (.st .w16 true 9 0xa5 20 2) := by
  decide +kernel

theorem test_decode_major_22 :
    decodeWord 0x4444804A = .ok (.vld .w16 true 4 9 2) ∧
    decodeWord 0x4444A8CA = .ok (.vldS .w16 true 4 9 10 2) ∧
    decodeWord 0x44448162 = .ok (.vldF true 4 9 2) := by
  decide +kernel

theorem test_decode_major_23 :
    decodeWord 0x4644804A = .ok (.vst .w16 true 9 4 2) ∧
    decodeWord 0x4644A8CA = .ok (.vstS .w16 true 9 4 10 2) ∧
    decodeWord 0x46448162 = .ok (.vstF true 9 4 2) := by
  decide +kernel

theorem test_decode_major_24 :
    decodeWord 0x4844A85A = .ok (.vgath .w64 true 4 9 10 2) ∧
    decodeWord 0x4844A8DA = .ok (.vscat .w64 true 9 10 4 2) ∧
    decodeWord 0x4844A924 = .ok (.vldr 4 4 9 10) ∧
    decodeWord 0x4844A9E0 = .ok (.vldBlk true 4 9 10) ∧
    decodeWord 0x4844AA60 = .ok (.vstBlk true 9 4 10) := by
  decide +kernel

theorem test_decode_major_25 :
    decodeWord 0x4B48AC0A = .ok (.ldSync .w16 20 17 11 2) ∧
    decodeWord 0x4B48AC2A = .ok (.ldSyncU .w16 20 17 11 2) ∧
    decodeWord 0x4B488042 = .ok (.gtagRd 20 17 2) ∧
    decodeWord 0x4A08AC4A = .ok (.gtagSet 17 11 2) ∧
    decodeWord 0x4A088052 = .ok (.gtagClr 17 2) ∧
    decodeWord 0x4B48AE02 = .ok (.vldSync 20 17 11 2) := by
  decide +kernel

theorem test_decode_major_26 :
    decodeWord 0x4D48800A = .ok (.rsv .w64 20 17 2) ∧
    decodeWord 0x4C08AC1A = .ok (.wrv .w64 17 11 2) ∧
    decodeWord 0x4D48AC2A = .ok (.amoAdd .w64 20 17 11 2) ∧
    decodeWord 0x4D48AC3A = .ok (.amoAnd .w64 20 17 11 2) ∧
    decodeWord 0x4D48AC4A = .ok (.amoOr .w64 20 17 11 2) ∧
    decodeWord 0x4D48AC5A = .ok (.amoXor .w64 20 17 11 2) ∧
    decodeWord 0x4D48AC6A = .ok (.amoMin .w64 20 17 11 2) ∧
    decodeWord 0x4D48AC7A = .ok (.amoMax .w64 20 17 11 2) ∧
    decodeWord 0x4D48AC8A = .ok (.amoMinu .w64 20 17 11 2) ∧
    decodeWord 0x4D48AC9A = .ok (.amoMaxu .w64 20 17 11 2) ∧
    decodeWord 0x4D48ACAA = .ok (.amoSwap .w64 20 17 11 2) ∧
    decodeWord 0x4D48ACBA = .ok (.amoCas .w64 20 17 11 2) := by
  decide +kernel

theorem test_decode_major_27 :
    decodeWord 0x4E000022 = .ok (.fence .pod 2) ∧
    decodeWord 0x4E000062 = .ok (.fenceEng .pod 2) ∧
    decodeWord 0x4E088082 = .ok (.pf 17 2) := by
  decide +kernel

theorem test_decode_major_28 :
    decodeWord 0x5148AC02 = .ok (.holdRng 20 17 11 2) ∧
    decodeWord 0x5148AC0A = .ok (.holdLk 20 17 11 2) ∧
    decodeWord 0x5148AC12 = .ok (.holdRt 20 17 11 2) ∧
    decodeWord 0x5148AC1A = .ok (.holdGrp 20 17 11 2) ∧
    decodeWord 0x5008AC22 = .ok (.renew 17 11 2) ∧
    decodeWord 0x5148802A = .ok (.life 20 17 2) ∧
    decodeWord 0x51488032 = .ok (.hinfo 20 17 2) := by
  decide +kernel

theorem test_decode_major_29 :
    decodeWord 0x53400002 = .ok (.tick 20 2) ∧
    decodeWord 0x5208800A = .ok (.tickw 17 2) ∧
    decodeWord 0x52088012 = .ok (.dline 17 2) := by
  decide +kernel

theorem test_decode_major_2A :
    decodeWord 0x5408AC02 = .ok (.msend 17 11 2) ∧
    decodeWord 0x554F000A = .ok (.chlen 20 6 2) := by
  decide +kernel

theorem test_decode_major_2B :
    decodeWord 0x56000012 = .ok (.bar .die 2) ∧
    decodeWord 0x5608AC22 = .ok (.barPod 17 11 2) ∧
    decodeWord 0x56088042 = .ok (.done 17 2) ∧
    decodeWord 0x5600004A = .ok (.probe 2) := by
  decide +kernel

theorem test_decode_major_2C :
    decodeWord 0x5948AC02 = .ok (.hstart 20 17 11 2) ∧
    decodeWord 0x5948AC0A = .ok (.hprot 20 17 11 2) ∧
    decodeWord 0x58088012 = .ok (.hjoin 17 2) ∧
    decodeWord 0x5800001A = .ok (.stop 2) ∧
    decodeWord 0x59400022 = .ok (.tid 20 2) ∧
    decodeWord 0x5808802A = .ok (.launchGrid 17 2) ∧
    decodeWord 0x58088032 = .ok (.launchPipe 17 2) := by
  decide +kernel

theorem test_decode_major_2D :
    decodeWord 0x5B48800A = .ok (.enq .cp 20 17 2) ∧
    decodeWord 0x5B48804A = .ok (.eseq .w1 20 17 2) ∧
    decodeWord 0x5A088062 = .ok (.ewait 17 2) := by
  decide +kernel

theorem test_decode_major_38 :
    decodeWord 0x7140082A = .ok (.sysrd 20 0x105 2) ∧
    decodeWord 0x7008882A = .ok (.syswr 0x105 17 2) ∧
    decodeWord 0x7148C002 = .ok (.trap 20 17 2) ∧
    decodeWord 0x7000400A = .ok (.eret 2) ∧
    decodeWord 0x7148C012 = .ok (.hcall 20 17 2) ∧
    decodeWord 0x7000401A = .ok (.dbg 2) ∧
    decodeWord 0x7008C022 = .ok (.tlbinv 17 2) := by
  decide +kernel

/-! ## Witnesses: what the statements' hypotheses ask for, met by a concrete state, and the next state that follows

Each theorem is named after the clause whose hypotheses it meets; where a clause has several cases, each case has its own
conjunct, at a value on its boundary. -/

/-- The outcome is a next state in which the instruction ran. -/
def ranIn (o : Host.Outcome State Fault Refusal) : Bool := match o with | .next t => t.did == .ran | _ => false

/-- The outcome is a next state in which the instruction raised that fault. -/
def trapsIn (o : Host.Outcome State Fault Refusal) (c : Code) (detail val : Nat) : Bool :=
  match o with | .next t => t.did == .trapped ⟨c, detail, val, none, false⟩ | _ => false

/-- The outcome is a next state in which the instruction waits. -/
def waitsIn (o : Host.Outcome State Fault Refusal) (w : Wait) : Bool := match o with | .next t => t.did == .blocked w | _ => false

/-- The outcome is that next state. -/
def isNext (o : Host.Outcome State Fault Refusal) (t : State) : Bool := match o with | .next u => decide (u = t) | _ => false

/-- What a state needs for its running thread to take a fault at once. -/
def free (s : State) : Bool := !s.busy s.cur && s.me.role != .trailing

theorem wit_EncodingAndDecodingAgree :
    encode (.add 31 31 31 7) = some 0x03FF_FC07 ∧ (Instr.add 31 31 31 7).wf = true ∧
    (0x03FF_FC07 : IWord).toNat < 2 ^ 31 ∧ decodeWord 0x03FF_FC07 = .ok (.add 31 31 31 7) := by decide +kernel

/-- The small machine as a step meets it: nothing comes before its thread's fetch, and its word decodes. -/
theorem wit_AStepRunsTheDecodedInstruction :
    (base.agenda = [] ∧ base.fatal = none ∧ base.turn = 0 :: [] ∧ ((base.core 0).rotPos + 1) % 32 = 0 ∧
    ((base.core 0).rottab.toArray.getD 0 0).toNat = 128 + 0 ∧ tileOf (keyOf 0 0) = 0 ∧ (base.core 0).halt = false ∧
    (base.core 0).stopping = false ∧ (base.thr 0).live = true ∧ (base.thr 0).parked = false ∧ (base.thr 0).wait = none ∧
    faultWaits base 0 = false ∧ (∀ n, n < 4 → (base.core 0).dbgctl.getLsbD (12 + n) = false) ∧ (base.thr 0).ibuf = [] ∧
    (base.thr 0).walkFault = none ∧ (base.thr 0).failures = [] ∧ (base.thr 0).regs.lost = [] ∧ base.inFlight 0 = []) ∧
    (∃ e, tlbLookup base 0 (ctxOf base 0) (base.thr 0).pc.toNat = some e ∧
      leafCause base e (base.thr 0).pc.toNat needX = none ∧
      base.poison.contains (e.addr (base.thr 0).pc.toNat / 8) = false ∧
      decodeWord (wordAtPa base (lidOf base 0) (e.addr (base.thr 0).pc.toNat)) = .ok (.li 4 42) ∧
      pairBit (wordAtPa base (lidOf base 0) (e.addr (base.thr 0).pc.toNat)) = false) ∧
    (nextOf (step base)).rs 4 = 42 := by
  refine ⟨?_, ⟨placeEntry State.reset 1, ?_⟩, ?_⟩ <;> decide +kernel

/-- The same with a pair: `li s4, 4` beside `vand v1, v2, v3`. -/
def basePair : State := { base with mem := writeBytes base.mem 0 (leBytes 4 0x8A40_0004 ++ leBytes 4 0x2411_0C00) }

theorem wit_AStepRunsThePair :
    (∃ e e2, tlbLookup basePair 0 (ctxOf basePair 0) (basePair.thr 0).pc.toNat = some e ∧
      pairBit (wordAtPa basePair (lidOf basePair 0) (e.addr (basePair.thr 0).pc.toNat)) = true ∧
      decodeWord (wordAtPa basePair (lidOf basePair 0) (e.addr (basePair.thr 0).pc.toNat)) = .ok (.li 4 4) ∧
      tlbLookup basePair 0 (ctxOf basePair 0) ((basePair.thr 0).pc + 4).toNat = some e2 ∧
      leafCause basePair e2 ((basePair.thr 0).pc + 4).toNat needX = none ∧
      basePair.poison.contains (e2.addr ((basePair.thr 0).pc + 4).toNat / 8) = false ∧
      decodeWord (wordAtPa basePair (lidOf basePair 0) (e2.addr ((basePair.thr 0).pc + 4).toNat)) = .ok (.vand 1 2 3 0) ∧
      pairBad (wordAtPa basePair (lidOf basePair 0) (e.addr (basePair.thr 0).pc.toNat))
        (wordAtPa basePair (lidOf basePair 0) (e2.addr ((basePair.thr 0).pc + 4).toNat)) (.li 4 4) (.vand 1 2 3 0) = false) ∧
    ranIn (exec (.li 4 4) (advance (meeting basePair 0 false) 2)) = true ∧
    (nextOf (step basePair)).rs 4 = 4 ∧ (nextOf (step basePair)).me.pc = basePair.me.pc + 8 := by
  refine ⟨⟨placeEntry State.reset 1, placeEntry State.reset 1, ?_⟩, by decide +kernel, by decide +kernel, by decide +kernel⟩
  decide +kernel

/-- The small machine stopped by a supply fault. -/
def stopped : State := { base with fatal := some 2 }

theorem wit_OnlyResetFollowsAFatalError :
    stopped.fatal = some 2 ∧ isEvent (.svnRaise) = true ∧ ({ stopped with agenda := [.svnRaise] } : State).agenda = .svnRaise :: [] ∧
    (match exec .svnRaise stopped with | .fault (.packageStopped 2) => true | _ => false) = true ∧
    stopped.agenda = [] ∧ (match step stopped with | .fault (.packageStopped 2) => true | _ => false) = true := by
  decide +kernel

theorem wit_EveryStepKeepsMemoryCanonical : Memory.wf base.mem = true ∧ Memory.wf base.hostMem = true ∧ goesOn (step base) = true := by
  decide +kernel

/-! ### Scalar work -/

theorem wit_BitFieldsMoveTheControlledBits :
    let s := withS [(5, 0x9A00), (6, 0x3F3F)] base
    63 = (s.rs 6).toNat % 64 ∧
    63 = (if (s.rs 6).toNat / 2 ^ 8 % 64 = 0 then 64 else (s.rs 6).toNat / 2 ^ 8 % 64) ∧
    64 = (if ((0 : Word)).toNat / 2 ^ 8 % 64 = 0 then 64 else ((0 : Word)).toNat / 2 ^ 8 % 64) ∧
    ranIn (exec (.bfi 4 5 6 0) s) = true := by decide +kernel

/-- The last address of the space, and one beyond it either way. -/
theorem wit_PointerMovesWithin48Bits :
    let s := withS [(5, 0x9307_FFFF_FFFF_FFFE), (6, 1), (7, 2), (8, 0xFFFF_FFFF_FFFE), (9, 0xFFFF_FFFF_FFFF)] base
    free s = true ∧ s.rk 0 = true ∧ s.rk 3 = false ∧
    ranIn (exec (.ptrAdd 4 5 6 3) s) = true ∧ ranIn (exec (.ptrSub 4 5 6 3) s) = true ∧
    ((s.rs 5).toNat % 2 ^ 48 : Nat) + (s.rs 6).toInt = (2 ^ 48 : Nat) - 1 ∧ ranIn (exec (.ptrAdd 4 5 6 0) s) = true ∧
    ((s.rs 5).toNat % 2 ^ 48 : Nat) + (s.rs 7).toInt = (2 ^ 48 : Nat) ∧ trapsIn (exec (.ptrAdd 4 5 7 0) s) .tag 0 0x9307_FFFF_FFFF_FFFE = true ∧
    ((s.rs 5).toNat % 2 ^ 48 : Nat) - (s.rs 8).toInt = 0 ∧ ranIn (exec (.ptrSub 4 5 8 0) s) = true ∧
    ((s.rs 5).toNat % 2 ^ 48 : Nat) - (s.rs 9).toInt = -1 ∧ trapsIn (exec (.ptrSub 4 5 9 0) s) .tag 0 0x9307_FFFF_FFFF_FFFE = true := by
  decide +kernel

/-- Each field at its widest value, and one beyond it. -/
theorem wit_PointerFieldsAreReplaced :
    let s := withS [(5, 0x9307_0000_2000_0040), (6, 31), (7, 32), (8, 7), (9, 8), (10, 255), (11, 256), (12, 0xFFFF_FFFF_FFFF),
      (13, 0x1_0000_0000_0000)] base
    free s = true ∧ s.rk 0 = true ∧ s.rk 3 = false ∧ ranIn (exec (.ptrSetFmt 4 5 6 3) s) = true ∧
    (s.rs 6).toNat < 2 ^ 5 ∧ (runI (.ptrSetFmt 4 5 6 0) s).rs 4 = 0xFB07_0000_2000_0040 ∧
    2 ^ 5 ≤ (s.rs 7).toNat ∧ trapsIn (exec (.ptrSetFmt 4 5 7 0) s) .tag 0 0x9307_0000_2000_0040 = true ∧
    (s.rs 8).toNat < 2 ^ 3 ∧ (runI (.ptrSetBlen 4 5 8 0) s).rs 4 = 0x9707_0000_2000_0040 ∧
    2 ^ 3 ≤ (s.rs 9).toNat ∧ trapsIn (exec (.ptrSetBlen 4 5 9 0) s) .tag 0 0x9307_0000_2000_0040 = true ∧
    (s.rs 10).toNat < 2 ^ 8 ∧ (runI (.ptrSetGen 4 5 10 0) s).rs 4 = 0x93FF_0000_2000_0040 ∧
    2 ^ 8 ≤ (s.rs 11).toNat ∧ trapsIn (exec (.ptrSetGen 4 5 11 0) s) .tag 0 0x9307_0000_2000_0040 = true ∧
    (s.rs 12).toNat < 2 ^ 48 ∧ (runI (.ptrSetVa 4 5 12 0) s).rs 4 = 0x9307_FFFF_FFFF_FFFF ∧
    2 ^ 48 ≤ (s.rs 13).toNat ∧ trapsIn (exec (.ptrSetVa 4 5 13 0) s) .tag 0 0x9307_0000_2000_0040 = true := by
  decide +kernel

theorem wit_ComparesAndPredicateLogicWriteTheirResult :
    let s := withS [(4, 5)] base
    (runI (.cmp .ge 1 4 4 0) s).rk 1 = true ∧ (runI (.cmpi .ltu 1 4 0xFFF) s).rk 1 = true ∧ (s.rs 4).toNat = 5 ∧
    (BitVec.ofInt 64 (0xFFF : BitVec 12).toInt : Word) = BitVec.allOnes 64 := by decide +kernel

/-- A write of a register that keeps one value, of the last of each file, and beside them. -/
theorem wit_RegisterFilesKeepWhatIsWritten :
    let r := Regs.reset
    (r.ws 0 7).rs 0 = 0 ∧ (r.ws 31 7).rs 31 = 7 ∧ (r.ws 31 7).rs 30 = 0 ∧ (r.wk 0 false).rk 0 = true ∧ (r.wk 7 true).rk 7 = true ∧
    (r.wm 0 0).rm 0 = BitVec.allOnes 16 ∧ (r.wm 7 1).rm 7 = 1 ∧ (r.wv 23 1).rv 23 = 1 ∧ (r.wv 23 1).rv 22 = 0 := by decide +kernel

/-- Taken and not taken, forward and back, a loop at its last count and wrapping below zero. -/
theorem wit_RelativeTransfersGoToTheirTarget :
    let s := advance (withS [(4, 1), (5, 2)] base) 1
    (exec (.br 1 4) s |> ranIn) = true ∧ s.rk 1 = false ∧ (runI (.br 1 4) s).me.npc = s.me.npc ∧
    (runI (.br 0 4) s).me.npc = s.me.pc + 16 ∧ (runI (.brN 1 0x1FFFFF) s).me.npc = s.me.pc - 4 ∧
    (runI (.jmp 0x800000) s).me.npc = s.me.pc - 0x200_0000 ∧
    (runI (.call 1) s).rs 31 = BitVec.ofNat 64 s.me.npc.toNat ∧
    (runI (.loop 4 0xFFF) s).me.npc = s.me.npc ∧ (runI (.loop 4 0xFFF) s).rs 4 = 0 ∧
    (runI (.loop 5 0xFFF) s).me.npc = s.me.pc - 4 ∧ (runI (.loop 6 0xFFF) s).rs 6 = BitVec.allOnes 64 ∧
    (runI (.loopP 6 0xFFF) s).me.npc = s.me.npc ∧ (runI (.loopP 5 0xFFF) s).me.npc = s.me.pc - 4 := by decide +kernel

theorem wit_RegisterJumpsGoToAlignedTargets :
    let s := advance (withS [(6, 0xFFFF_0000_0000_1004), (7, 0xFFFF_0000_0000_1001), (31, 0x1003)] base) 1
    free s = true ∧ s.rk 1 = false ∧ ranIn (exec (.jr 6 1) s) = true ∧ ranIn (exec (.callr 6 1) s) = true ∧ ranIn (exec (.ret 1) s) = true ∧
    (s.rs 6).toNat % 4 = 0 ∧ (runI (.jr 6 0) s).me.npc = 0x1004 ∧ (runI (.callr 6 0) s).me.npc = 0x1004 ∧
    (s.rs 7).toNat % 4 ≠ 0 ∧ trapsIn (exec (.jr 7 0) s) .align 0 0x1001 = true ∧ trapsIn (exec (.callr 7 0) s) .align 0 0x1001 = true ∧
    trapsIn (exec (.ret 0) s) .align 0 0x1003 = true ∧
    (runI (.ret 0) (s.ws 31 0x1000)).me.npc = 0x1000 := by decide +kernel

/-! ### Vector work -/

/-- A result that is not a stop. -/
def okM {α : Type} (r : M α) : Bool := match r with | .ok _ => true | .error _ => false

theorem ok_of {α : Type} {r : M α} (h : okM r = true) : ∃ x, r = .ok x := by
  cases r with
  | ok x => exact ⟨x, rfl⟩
  | error e => simp [okM] at h

/-- A running thread with a channel of its launch: channel register 0 is its reading end, channel register 1 its writing end;
two messages stand in it and one allowance is left. -/
def chanBase : State :=
  base.updLaunch 1 fun l => { l with chans := [⟨0, 1, 0, 0, 3, [mkVec 32 fun i => i, mkVec 32 fun _ => 9], 1, [], 0⟩] }

/-- Sources from registers, and from a channel into a channel, as the element-wise words, the reductions and the moves ask
for them. -/
theorem wit_VectorSources :
    (∃ x, sources1 base 1 (some 2) = .ok x) ∧ (∃ x, sources2 base 1 2 (some 3) = .ok x) ∧ (∃ x, sources2 base 1 2 none = .ok x) ∧
    (∃ x, sources1 base 1 none = .ok x) ∧
    (∃ x, sources1 chanBase 24 (some 25) = .ok x) ∧ (∃ x, sources2 chanBase 24 24 (some 25) = .ok x) ∧
    (∃ x, sources2 chanBase 24 3 none = .ok x) :=
  ⟨ok_of (by decide +kernel), ok_of (by decide +kernel), ok_of (by decide +kernel), ok_of (by decide +kernel),
    ok_of (by decide +kernel), ok_of (by decide +kernel), ok_of (by decide +kernel)⟩

/-- A word from a channel into a channel: one message is popped, its successor stays, and the sum is under way. -/
theorem wit_VectorIntegerWorkIsElementwise :
    let t := runI (.vadd .w32 25 24 2 0) (withV 32 [(2, [1])] chanBase)
    ranIn (exec (.vadd .w32 25 24 2 0) (withV 32 [(2, [1])] chanBase)) = true ∧
    (t.launch 1).chans.map (fun c => (c.buf.length, c.credits, c.returns, c.flight.map fun x => elem x 32 15)) = [(1, 0, 1, [16])] ∧
    ranIn (exec (.vmad .w8 1 24 24 0) chanBase) = true := by decide +kernel

theorem wit_VectorShiftsAndImmediatesAreElementwise :
    okM (checkBound base [] (some 1)) = true ∧ okM (checkReady base [] (some 1)) = true ∧
    okM (checkBound chanBase [] (some 25)) = true ∧ okM (checkReady chanBase [] (some 25)) = true ∧
    ranIn (exec (.vli .w8 25 0x10 0) chanBase) = true ∧ elOf (runI (.vli .w8 1 0x10 0) base) 1 8 63 = 0xF0 ∧
    elOf (runI (.vshlImm .w64 1 2 31 0) (withV 64 [(2, [3])] base)) 1 64 7 = 3 * 2 ^ 31 := by decide +kernel

/-- Every active element reads an active one; one reads an inactive element; the same under z. -/
theorem wit_PermutationsReadTheIndexedElement :
    let s := (withV 32 [(1, [10, 11, 12]), (2, [1, 0, 2, 15]), (3, [1, 0, 2])] (withS [(5, 1)] base)).wm 1 0x0007
    free s = true ∧ (∀ e, e < 16 → active 32 (s.rm 1) e = true → active 32 (s.rm 1) (elem (s.rv 2) 32 e % 16) = true) ∧
    elOf (runI (.vperm .w32 false 4 1 2 1) s) 4 32 0 = 11 ∧ elOf (runI (.vshuf .w32 false 3 1 1 1) s) 3 32 0 = 11 ∧
    trapsIn (exec (.vrot .w32 false 4 1 5 1) s) .lane 0 0x8000 = true ∧ elOf (runI (.vrot .w32 true 4 1 5 1) s) 4 32 0 = 0 ∧
    elOf (runI (.vrot .w32 true 4 1 5 1) s) 4 32 2 = 11 := by decide +kernel

theorem wit_CompressAndExpandMoveSelectedElements :
    let s := (withV 32 [(1, [10, 11, 12, 13])] base).wm 2 0x8002
    elOf (runI (.vcompress .w32 4 1 2 0) s) 4 32 0 = 11 ∧ elOf (runI (.vcompress .w32 4 1 2 0) s) 4 32 2 = 0 ∧
    elOf (runI (.vexpand .w32 4 1 2 0) s) 4 32 15 = 11 ∧ ranIn (exec (.vexpand .w32 4 1 2 0) s) = true := by decide +kernel

/-- A reduction over all elements, one that meets an inactive element, and one under z. -/
theorem wit_IntegerReductionsReduceAllElements :
    let s := (withV 32 [(2, [0xFFFF_FFFF, 2, 3, 0])] base).wm 1 0x0001
    free s = true ∧ (∀ e, e < 16 → active 32 (s.rm 0) e = true) ∧ (runI (.vredAdd .i32 false 4 2 0) s).rs 4 = 4 ∧
    (runI (.vredMin .i32 false 4 2 0) s).rs 4 = BitVec.allOnes 64 ∧ (runI (.vredMaxu .w32 false 4 2 0) s).rs 4 = 0xFFFF_FFFF ∧
    active 32 (s.rm 1) 1 = false ∧ trapsIn (exec (.vredOr .w32 false 4 2 1) s) .lane 0 0xFFFE = true ∧
    (runI (.vredMax .i32 true 4 2 1) s).rs 4 = 0 ∧ (runI (.vredXor .w64 true 4 2 1) s).rs 4 = 0x2_FFFF_FFFF ∧
    (runI (.vredAnd .w32 true 4 2 1) s).rs 4 = 0 ∧ (runI (.vredMinu .w64 true 4 2 1) s).rs 4 = 0 := by decide +kernel

/-- An inactive element below the highest active one. -/
theorem wit_ScansOfInactiveElementsRaiseLane :
    let s := base.wm 1 0x8
    okM (sources1 s 2 (some 4)) = true ∧ active 32 (s.rm 1) 3 = true ∧ (∀ e, e < 16 → active 32 (s.rm 1) e = true → e ≤ 3) ∧
    active 32 (s.rm 1) 0 = false ∧ trapsIn (exec (.vscanAdd .i32 false 4 2 1) s) .lane 0 7 = true := by decide +kernel

/-- A scan up to the highest active element, and one of none. -/
theorem wit_FloatReductionsAndScansFollowTheirOrder :
    let s := ((withV 32 [(2, [1, 2, 3]), (4, [7])] base).wm 1 0x0007).wm 2 0x0004
    okM (sources1 s 2 (some 4)) = true ∧ (∀ e, e < 16 → active 32 (s.rm 1) e = true → e < 3) ∧ active 32 (s.rm 1) 2 = true ∧
    (∀ e, e < 3 → active 32 (s.rm 1) e = true) ∧ elOf (runI (.vscanAdd .i32 false 4 2 1) s) 4 32 2 = 6 ∧
    elOf (runI (.vscanAdd .i32 false 4 2 1) s) 4 32 3 = 7 ∧
    (∀ e, e < 16 → active 32 (s.rm 3) e = true → e < 0) ∧ (runI (.vscanAdd .f32 false 4 2 3) s).rv 4 = s.rv 4 ∧
    active 32 (s.rm 2) 2 = true ∧ elOf (runI (.vscanAdd .i32 true 4 2 2) s) 4 32 2 = 3 ∧
    (runI (.vredAdd .f64 true 4 2 0) s).did = .ran := by decide +kernel

theorem wit_NarrowingAndWideningClampOrExtend :
    let s := withV 16 [(1, [0x0080, 0xFF7F, 5]), (2, [0x00FF])] base
    (∃ x, sources2 s 1 2 (some 3) = .ok x) ∧ elOf (runI (.vpackI .w16 3 1 2 0) s) 3 8 0 = 0x7F ∧
    elOf (runI (.vpackU .w16 3 1 2 0) s) 3 8 63 = 0xFF ∧ (runI (.vpackU .w16 3 1 2 0) s).me.fpflags = fACCSAT ∧
    elOf (runI (.vunpackHiI .w8 3 2 0) s) 3 16 0 = 0xFFFF ∧ elOf (runI (.vunpackLoU .w8 3 1 0) s) 3 16 2 = 0x7F :=
  ⟨ok_of (by decide +kernel), by decide +kernel, by decide +kernel, by decide +kernel, by decide +kernel, by decide +kernel⟩

theorem wit_DivisionAndRootSpecialCases :
    0 < 1 ∧ fp32.noInf = false ∧ divRound fp32 (envRne false) (.num false 1 0) (.num true 0 0) = (0xFF80_0000, fDZ) ∧
    sqrtRound fp32 (envRne false) (.num true 1 0) = (0x7FC0_0000, fNV) := by decide +kernel

theorem wit_SpecialFunctionsJoinTheirQueue :
    okM (sources1 base 2 (some 1)) = true ∧ okM (sources1 chanBase 24 (some 25)) = true ∧
    ((runI (.vrcp 1 2 0) base).quad 0).queue.map (fun r => (r.flags, r.occ, r.latency)) = [(fDZ, 4, 16)] ∧
    ((runI (.vtanh 25 24 0) chanBase).quad 0).queue.map (fun r => (r.push.isSome, r.occ, r.latency)) = [(true, 8, 24)] ∧
    (runI (.vsin 1 2 0) base).me.wait = some .sfu := by decide +kernel

theorem wit_SpecialFunctionSpecialCases :
    unpackRaw fp32 0x7FC0_0001 = .nan (!true) ∧ unpackRaw fp32 0x7F80_0001 = .nan (!false) ∧
    sfuFn 2 false 0x7F80_0001 = (0x7FC0_0000, fNV) := by decide +kernel

theorem wit_RationalCoreMembersComputeResidues : 1 < 3 ∧ valuation 3 2 18 = 2 ∧ valuation 3 40 0 = 40 := by decide +kernel

/-- No divisor a multiple of p, and one at elements 0 and 5 (the example of entry 0). -/
theorem wit_RationalDivisionJoinsTheQueueOrRaisesQdiv :
    let s := (withV 64 [(2, [1]), (3, [3, 1, 1, 1, 1, 6, 1])] base).wm 1 0xFFDE
    okM (sources2 s 2 3 (some 1)) = true ∧ okM (sources1 s 3 (some 1)) = true ∧ free s = true ∧
    (∀ j, j < 8 → active 64 (s.rm 1) j = true → (modI (sgnN 64 (elem (s.rv 3) 64 j)) (primeOf s.prime).1 == 0) = false) ∧
    ranIn (exec (.qenc 1 2 3 1) s) = true ∧ ranIn (exec (.qinv 1 3 1) s) = true ∧ ranIn (exec (.qdiv 1 2 3 1) s) = true ∧
    (active 64 (s.rm 0) 5 = true ∧ (elem (s.rv 3) 64 5 % (primeOf s.prime).1 == 0) = true) ∧
    trapsIn (exec (.qenc 1 2 3 0) s) .qdiv 0 0x21 = true ∧ trapsIn (exec (.qinv 1 3 0) s) .qdiv 0 0x21 = true ∧
    trapsIn (exec (.qdiv 1 2 3 0) s) .qdiv 0 0x21 = true := by decide +kernel

theorem wit_RationalDecodeWritesNumeratorAndDenominator :
    okM (sources1 base 5 none) = true ∧ ranIn (exec (.qdec 4 6 5 0) base) = true := by decide +kernel

/-- Entry 14: 0xAAAAAAA7 is −1/3; a residue that is no bounded fraction decodes to 0/1, marked as failed. -/
theorem wit_DecodedRationalsAreCongruentToTheirResidue :
    14 < 16 ∧ 0xAAAA_AAA7 < modulus 14 ∧ reconstruct 14 0xAAAA_AAA7 = (-1, 3, false) ∧
    50_000 < modulus 14 ∧ reconstruct 14 50_000 = (0, 1, true) := by decide +kernel

theorem wit_EveryBoundedFractionIsRecovered :
    ((-1 : Int).natAbs ≤ decodeBound 14 ∧ (0 : Int) < 3 ∧ (3 : Int).natAbs ≤ decodeBound 14 ∧ Nat.gcd (-1 : Int).natAbs (3 : Int).natAbs = 1 ∧
      (((0xAAAA_AAA7 : Nat) : Int) * 3 - (-1)) % (modulus 14 : Nat) = 0) ∧
    ((decodeBound 14 : Int).natAbs ≤ decodeBound 14 ∧ reconstruct 14 (decodeBound 14) = (((decodeBound 14 : Nat) : Int), 1, false)) := by decide +kernel

theorem wit_BlockMaximumAndScaleWriteTheirResult :
    let s := withV 32 [(2, [0x7FC0_0000, 1])] base
    okM (sources1 s 2 none) = true ∧ (unpackRaw fp32 (elem (s.rv 2) 32 0)).isNan = true ∧ (runI (.bamax 4 2 0) s).rs 4 = 0x7FC0_0000 ∧
    (unpackRaw fp32 (elem (s.rv 3) 32 0)).isNan = false ∧ (runI (.bamax 4 3 0) s).rs 4 = 0 ∧
    ranIn (exec (.bscaleF32 5 2 3 0) s) = true ∧ ranIn (exec (.bscaleI32 5 2 3 0) s) = true := by decide +kernel

theorem wit_BlocksAreQuantisedAndScaledBack :
    okM (sources1 base 1 (some 2)) = true ∧ okM (sources2 base 1 2 (some 3)) = true ∧
    ranIn (exec (.bquant .tern 1 2) base) = true ∧ ranIn (exec (.baddq .fp8a 1 2 3) base) = true ∧
    elOf (runI (.bdeq .tern 1 2 0) base) 1 32 0 = 0x7FC0_0000 ∧ ranIn (exec (.bdeq .i4 1 2 0) base) = true := by decide +kernel

theorem wit_VectorWordsChangeOnlyTheirDestination :
    isChan 23 = false ∧ okM (sources1 chanBase 24 (some 25)) = true ∧ okM (sources2 chanBase 1 24 (some 2)) = true := by decide +kernel

/-- A channel not bound, one that is empty, and one that holds messages. -/
theorem wit_ChannelSourcesPopTheOldestMessage :
    isChan 24 = true ∧ isChan 26 = true ∧ readEnd chanBase chanBase.cur (26 - 24) = none ∧
    (match sources1 chanBase 26 none with | .error (.fault f) => f == ⟨.illegal, 2, curWord chanBase, none, false⟩ | _ => false) = true ∧
    (let e := chanBase.updLaunch 1 fun l => { l with chans := l.chans.map fun c => { c with buf := [] } }
     readEnd e e.cur (24 - 24) = some 0 ∧ chanBuf e e.cur 0 = [] ∧
       (match sources1 e 24 none with | .error (.wait .channel) => true | _ => false) = true) ∧
    readEnd chanBase chanBase.cur (24 - 24) = some 0 ∧ (chanBuf chanBase chanBase.cur 0).length = 2 := by decide +kernel

/-- The word in slot 11 of a core whose tile spills its inbox or not. -/
def atInbox (spill : Nat) : State :=
  ({ chanBase with cur := 11 } : State).updMyCore (fun c => { c with spill := spill, inbox := [mkVec 32 fun _ => 7] })

/-- A destination not bound, one without allowance, one with; a push to the inbox with nothing spilled, and with; a register source. -/
theorem wit_ChannelDestinationsPushTheirWord :
    let none' := chanBase.updLaunch 1 fun l => { l with chans := l.chans.map fun c => { c with credits := 0 } }
    isChan 25 = true ∧ writeEnd chanBase chanBase.cur (26 - 24) = none ∧ chanBase.busy chanBase.cur = false ∧
    impreciseDue chanBase chanBase.cur = false ∧ earlierReport chanBase chanBase.cur = none ∧ chanBase.me.role = .alone ∧
    trapsIn (exec (.vabs .w8 26 1 0) chanBase) .illegal 2 (curWord chanBase) = true ∧
    trapsIn (exec (.vabs .w8 26 24 0) chanBase) .illegal 2 (curWord chanBase) = true ∧
    writeEnd none' none'.cur (25 - 24) = some 0 ∧ canPush none' none'.cur 0 = false ∧ waitsIn (exec (.vabs .w8 25 1 0) none') .channel = true ∧
    ((runI (.vabs .w8 25 24 0) none').launch 1).chans.map (·.buf.length) = [2] ∧ waitsIn (exec (.vabs .w8 25 24 0) none') .channel = true ∧
    canPush chanBase chanBase.cur 0 = true ∧ ranIn (exec (.vabs .w8 25 24 0) chanBase) = true ∧ ranIn (exec (.vabs .w8 25 1 0) chanBase) = true ∧
    writeEnd (atInbox 0) 11 0 = some inboxChan ∧ (atInbox 0).myCore.spill = 0 ∧ (atInbox 8).myCore.spill ≠ 0 ∧
    trapsIn (exec (.vabs .w8 24 1 0) (atInbox 0)) .illegal 2 (curWord (atInbox 0)) = true := by decide +kernel

/-! ### Memory -/

/-- The running thread with a pointer in `s10` to its page, and one with FMT 9 (BF16) in `s11`, one with FMT 18 (SB-INT8) in
`s12`; `s5` holds 5. -/
def ptrs : State := withS [(5, 5), (10, 0x2_0000), (11, 0x4800_0000_0002_0000), (12, 0x9000_0000_0002_0000)] based

/-- The outcome of a check that finds a fault. -/
def findsFault {α : Type} (r : M α) (f : FaultRec) : Bool := match r with | .error (.fault x) => x == f | _ => false

theorem wit_Clear : Clear ptrs := by
  unfold Clear NoReport Unpaired
  decide +kernel

/-- Each access passes its checks and is put in flight; under a false guard nothing happens. -/
theorem wit_ScalarAccessesAreIssued :
    ptrs.rk 3 = false ∧ ranIn (exec (.ld .w32 false false 6 10 2 3) ptrs) = true ∧ ptrs.rk 0 = true ∧
    okM (checkAcc ptrs (oneAcc (ptrs.rs 10) ((127 : BitVec 8).toInt * (64 / 8 : Nat)) 8 8 needR 1)) = true ∧
    (runI (.ld .w64 false false 6 10 127 0) ptrs).reqs.map (fun r => (r.va, r.kind)) = [(0x2_03F8, .load)] ∧
    (runI (.st .w8 false 10 0 5 0) ptrs).reqs.map (fun r => (r.kind, r.buf)) = [(.store, [5])] ∧
    (runI (.st .w8 true 10 0 5 0) ptrs).reqs.length + (runI (.st .w8 true 10 0 5 0) ptrs).me.comb.length = 1 ∧
    okM (checkAcc ptrs (tagAcc (ptrs.rs 10) 4 4 needR 1)) = true ∧
    (runI (.ldSync .w32 6 10 5 0) ptrs).reqs.map (·.kind) = [.sync 5] ∧ (runI (.ldSyncU .w8 6 10 5 0) ptrs).reqs.map (·.kind) = [.sync 5] ∧
    (runI (.gtagRd 6 10 0) ptrs).reqs.map (·.kind) = [.tagRd] ∧ (runI (.gtagSet 10 5 0) ptrs).reqs.map (·.kind) = [.tagSet 5] ∧
    (runI (.gtagClr 10 0) ptrs).reqs.map (·.kind) = [.tagClr] := by decide +kernel

theorem wit_AtomicsAreIssued :
    (endOwn ptrs ptrs.cur).me.role = .alone ∧ okM (checkAcc (endOwn ptrs ptrs.cur) (oneAcc (ptrs.rs 10) 0 8 8 needRW 2)) = true ∧
    okM (checkAcc ptrs (oneAcc (ptrs.rs 10) 0 4 4 needRW 2)) = true ∧ ptrs.rk 3 = false ∧ ranIn (exec (.rsv .w64 5 10 3) ptrs) = true ∧
    ranIn (exec (.amoAdd .w32 5 10 5 3) ptrs) = true ∧
    (runI (.rsv .w64 5 10 0) ptrs).reqs.map (·.kind) = [.rsv] ∧ (runI (.wrv .w32 10 5 0) ptrs).reqs.map (·.kind) = [.wrv] ∧
    (runI (.amoCas .w32 5 10 5 0) ptrs).reqs.map (·.kind) = [.amo .cas 5 5] ∧
    (runI (.amoMaxu .w64 6 10 5 0) ptrs).reqs.map (·.kind) = [.amo .maxu 5 0] := by decide +kernel

theorem wit_VectorLoadsAreIssued :
    let s := ptrs.wm 1 0x8000
    (∀ e, e < 16 → active 32 (s.rm 2) e = false) ∧ ranIn (exec (.vld .w32 false 1 10 2) s) = true ∧ active 32 (s.rm 1) 15 = true ∧
    okM (checkBound s [] (some 1)) = true ∧ okM (checkReady s [] (some 1)) = true ∧
    okM (checkAcc s (elemAcc (s.rs 10) 32 (s.rm 1) (fun j => (j * (32 / 8) : Nat)) needR false 1)) = true ∧
    ((runI (.vld .w32 false 1 10 1) s).reqs.map fun r => r.parts.map fun p => p.moves.length) = [[4]] ∧
    ranIn (exec (.vldS .w32 true 1 10 5 1) (s.ws 5 0xFFC4)) = false ∧ ranIn (exec (.vldS .w32 true 1 10 5 1) (s.ws 5 4)) = true ∧
    (runI (.vldSync 1 10 5 0) s).reqs.map (·.kind) = [.sync 5] ∧
    idle (ptrFmt (s.rs 11)) (s.rm 2) = true ∧ ranIn (exec (.vldF false 1 11 2) s) = true ∧ idle (ptrFmt (s.rs 11)) (s.rm 0) = false ∧
    okM (checkAcc s (fmtAcc (s.rs 11) (s.rm 0) needR 1)) = true ∧ (runI (.vldF false 1 11 0) s).reqs.map (·.size) = [32] ∧
    okM (sources1 s 2 (some 1)) = true ∧ ranIn (exec (.vgath .w32 false 1 10 2 2) s) = true ∧
    (runI (.vgath .w64 false 1 10 2 0) s).reqs.map (·.parts.length) = [8] ∧
    okM (checkAcc s (blkAcc (s.rs 12) 5 needR 1)) = true ∧
    (runI (.vldBlk false 1 12 5) s).reqs.map (fun r => (r.parts.map (·.va), r.size)) = [([0x2_000A, 0x2_0070], 18)] := by
  decide +kernel

/-- A group of packages 0 (its home) and 1, GID 7, one core of each (Table 15-11). -/
def gdesc : List Word := [0x0200_0007, 0x0100, 0, 0x0001_0001, 0, 0, 0, 0]

/-- A live group hold of context 1 with handle 5. -/
def grouped : State :=
  ptrs.updCtx 1 fun c => { c with holds := c.holds ++ [(5, ⟨0, true, true, .group gdesc false, 1000000, 0, [], false⟩)] }

theorem wit_VectorLoadsAreIssued_vldr :
    ptrFmt (grouped.rs 11) = 9 ∧ isChan 1 = false ∧ liveGroup grouped (ctxOf grouped (tileOf grouped.cur)) 5 = some gdesc ∧
    ((grouped.rs 5).toNat % 2 ^ 16 = 5) ∧ okM (checkAcc grouped
      { ptr := grouped.rs 11, pieces := ldrPieces (grouped.rs 11), al := max 1 (codeBits 9 / 8), base := true, tagged := false,
        need := needR, fmtBad := false, each := false, kind := 1 }) = true ∧
    ranIn (exec (.vldr 2 1 11 5) grouped) = true := by decide +kernel

theorem wit_VectorStoresAreIssued :
    let s := (withV 32 [(3, [0x4040_0000])] ptrs).wm 1 0x8000
    okM (sources1 s 3 none) = true ∧ okM (sources2 s 2 3 none) = true ∧
    (∀ e, e < 16 → active 32 (s.rm 2) e = false) ∧ ranIn (exec (.vst .w32 false 10 3 2) s) = true ∧
    okM (checkAcc s (elemAcc (s.rs 10) 32 (s.rm 1) (fun j => (j * (32 / 8) : Nat)) needW false 2)) = true ∧
    ((runI (.vst .w32 false 10 3 1) s).reqs.map fun r => r.parts.map (·.moves)) = [[[(0x103C, 60), (0x103D, 61), (0x103E, 62), (0x103F, 63)]]] ∧
    ranIn (exec (.vstS .w8 false 10 3 5 0) s) = true ∧
    idle (ptrFmt (s.rs 11)) (s.rm 2) = true ∧ ranIn (exec (.vstF false 11 3 2) s) = true ∧ idle (ptrFmt (s.rs 11)) (s.rm 0) = false ∧
    (runI (.vstF false 11 3 0) s).reqs.map (fun r => (r.size, r.buf.take 2)) = [(32, [0x40, 0x40])] ∧
    ranIn (exec (.vscat .w32 false 10 2 3 2) s) = true ∧ (runI (.vscat .w32 false 10 2 3 0) s).reqs.map (·.parts.length) = [16] ∧
    okM (checkAcc s (blkAcc (s.rs 12) 5 needW 2)) = true ∧ ranIn (exec (.vstBlk true 12 3 5) s) = true := by decide +kernel

/-- One byte below the space and one beyond it, the last word of the space, a misaligned address, a page that the TLBs lack, a
walk's fault, a page that may not be written. -/
theorem wit_ScalarAccessChecksInOrder :
    let s := ptrs
    findsFault (checkAcc s (oneAcc 0 (-1) 1 1 needR 1)) ⟨.tag, 0, 0, none, false⟩ = true ∧
    findsFault (checkAcc s (oneAcc 0xFFFF_FFFF_FFF8 1 8 8 needR 1)) ⟨.tag, 0, 0xFFFF_FFFF_FFF8, none, false⟩ = true ∧
    (match checkAcc s (oneAcc 0xFFFF_FFFF_FFF8 0 8 8 needR 1) with | .error (.miss p) => p == 0xF_FFFF_FFFF | _ => false) = true ∧
    findsFault (checkAcc s (oneAcc 0x2_0001 0 2 2 needR 1)) ⟨.align, 0, 0x2_0001, none, false⟩ = true ∧
    s.me.walkFault = none ∧ tlbLookup s (tileOf s.cur) (ctxOf s (tileOf s.cur)) 0xFFFF_FFFF_FFF8 = none ∧
    findsFault (checkAcc (s.updMe fun t => { t with walkFault := some (0x20, 1) }) (oneAcc 0x2_0000 0 4 4 needR 1)) ⟨.xlate, 1, 0x2_0000, none, false⟩ = true ∧
    (match tlbLookup s (tileOf s.cur) (ctxOf s (tileOf s.cur)) 0x2_0000 with
      | some e => leafFault s e 0x2_0000 0x2_0000 needX == some ⟨.xlate, 6, 0x2_0000, none, false⟩ && leafFault s e 0x2_0000 0x2_0000 needR == none
      | none => false) = true ∧
    findsFault (checkAcc s (oneAcc 0x2_0000 0 4 4 needX 1)) ⟨.xlate, 6, 0x2_0000, none, false⟩ = true ∧
    s.myCore.dbgctl = 0 ∧ okM (checkAcc s (oneAcc 0x2_0000 0xFF8 8 8 needR 1)) = true := by decide +kernel

/-- One page for each cause: of another pod, unmapped, carved, without each permission, and with a generation. -/
theorem wit_LeafChecksInOrder :
    let s := based.setDie 0 { Die.reset with carve := 512 }
    let at' := fun (pa : Nat) => ({ page with pa := pa } : TlbEntry)
    let g := { page with gen := 3 }
    (s.pod.contains (pkgOf (2 ^ 44)) = true) = False ∧ leafFault s (at' (2 ^ 44)) 0 0x2_0000 needR = some ⟨.xlate, 8, 0x2_0000, none, false⟩ ∧
    isSram 0x100_0000_0000 = false ∧ isDrawer 0x100_0000_0000 = false ∧
    leafFault s (at' 0x100_0000_0000) 0 0x2_0000 needR = some ⟨.xlate, 3, 0x2_0000, none, false⟩ ∧
    carved s 0x8_0000 = true ∧ carved s 0x7_F000 = false ∧ leafFault s (at' 0x8_0000) 0 0x2_0000 needR = some ⟨.xlate, 7, 0x2_0000, none, false⟩ ∧
    leafFault s { page with r := false } 0 0x2_0000 needR = some ⟨.xlate, 4, 0x2_0000, none, false⟩ ∧
    leafFault s { page with w := false } 0 0x2_0000 needRW = some ⟨.xlate, 5, 0x2_0000, none, false⟩ ∧
    leafFault s page 0 0x2_0000 needX = some ⟨.xlate, 6, 0x2_0000, none, false⟩ ∧
    leafFault s page 0 0x2_0000 needRW = none ∧ leafFault s g 0x2_0000 0x2_0000 needR = some ⟨.tag, 0, 0x2_0000, none, false⟩ ∧
    leafFault s g 0x4_0000_0002_0000 0x2_0000 needR = some ⟨.lapsed, 0, 0x2_0000, none, false⟩ ∧
    leafFault s g 0x3_0000_0002_0000 0x2_0000 needR = none ∧
    leafFault s { g with lap := true } 0x3_0000_0002_0000 0x2_0000 needR = some ⟨.lapsed, 0, 0x2_0000, none, false⟩ := by
  decide +kernel

/-- Nothing outstanding; a store outstanding. -/
theorem wit_FencesEndAndPrefetchIsHarmless :
    let b := runI (.st .w8 false 10 0 5 0) ptrs
    ptrs.rk 3 = false ∧ ranIn (exec (.fence .pod 3) ptrs) = true ∧ ptrs.busy ptrs.cur = false ∧ ptrs.me.contain = [] ∧ ptrs.me.stalls = [] ∧
    placedWithin ptrs .pod = true ∧ ranIn (exec (.fence .pod 0) ptrs) = true ∧ engIdle ptrs = true ∧
    ranIn (exec (.fenceEng .core 0) ptrs) = true ∧ b.busy b.cur = true ∧ waitsIn (exec (.fence .core 0) b) .accessSlot = true ∧
    ranIn (exec (.pf 10 0) ptrs) = true ∧ ranIn (exec (.pf 31 0) (ptrs.ws 31 (-1))) = true := by decide +kernel

/-! ### Holds, system registers, traps -/

/-- The running thread met again with words that have come. -/
def answeredBy (ws : List Word) (s : State) : State := s.updMe fun t => { t with got := some (.words ws) }

theorem wit_HoldInstructionsAskAndTakeTheAnswer :
    let s := ptrs
    let a := answeredBy [0x1005, 0x0001_0000_5000_0000] s
    s.rk 3 = false ∧ s.me.got = none ∧ ranIn (exec (.holdRng 8 4 5 3) s) = true ∧ ranIn (exec (.holdRt 8 4 5 3) s) = true ∧
    a.me.role = .alone ∧ a.me.got = some (.words [0x1005, 0x0001_0000_5000_0000]) ∧ (runI (.holdRng 8 4 5 0) a).rs 9 = 0x0001_0000_5000_0000 ∧
    (runI (.holdLk 8 4 5 0) a).rs 8 = 0x1005 ∧ (runI (.renew 4 5 0) a).did = .ran ∧ (runI (.life 8 4 0) a).rs 8 = 0x1005 ∧
    [(0x1005 : Word)].length ≠ 2 ∧ (runI (.holdRt 8 4 5 0) (answeredBy [0x1005] s)).rs 8 = 0x1005 ∧
    (runI (.holdGrp 8 4 5 0) a).rs 8 = 0x1005 ∧
    okM (checkAcc s (oneAcc (s.rs 10) 0 1 1 needRW 2)) = true ∧ okM (checkAcc s (oneAcc (s.rs 10) 0 16 8 needR 1)) = true ∧
    okM (checkAcc s (oneAcc (s.rs 10) 0 64 8 needR 1)) = true ∧
    ((runI (.holdRng 8 5 5 0) s).die 0).keeper.map (·.kind) = [0] ∧ ((runI (.holdLk 8 10 5 0) s).die 0).keeper.map (·.wordPa) = [0x1000] ∧
    (runI (.holdRt 8 10 5 0) s).reqs.map (·.size) = [16] ∧ (runI (.holdGrp 8 10 5 0) s).reqs.map (·.size) = [64] ∧
    ((runI (.renew 5 5 0) s).die 0).keeper.map (·.kind) = [4] ∧ (s.rs 4).toNat % 2 ^ 16 = 0 ∧ free s = true ∧
    trapsIn (exec (.renew 4 5 0) s) .priv 0 (curWord s) = true ∧ ((runI (.life 8 5 0) s).die 0).keeper.map (·.kind) = [5] ∧
    ((runI (.hinfo 8 5 0) s).die 0).keeper.map (·.kind) = [6] := by decide +kernel

/-- A thread of slot 13 of tile 0 runs (R10). -/
def firmware : State := (withS [(5, 0x9)] ({ ptrs with cur := 13 } : State)).updMe fun t => { t with live := true }

theorem wit_SystemRegistersReadAsTheStateHoldsThem :
    privileged firmware.cur = true ∧ (runI (.sysrd 4 0x105 0) (firmware.updMyCore fun c => { c with stagger := 63 })).rs 4 = 63 ∧
    (runI (.sysrd 4 0x000 0) ptrs).rs 4 = 0 ∧ (runI (.sysrd 4 0x002 0) ptrs).rs 4 = 1 ∧
    (runI (.sysrd 4 0x011 0) (ptrs.raise fNX)).rs 4 = 0x10 := by decide +kernel

/-- Each side of the assigned numbers; a privileged number from slot 0; a register that is not written. -/
theorem wit_SystemRegisterAccessesAreChecked :
    let no := fun (n : Fin 2048) => trapsIn (exec (.sysrd 4 n 3) ptrs) .illegal 4 (curWord ptrs) &&
      trapsIn (exec (.syswr n 4 3) ptrs) .illegal 4 (curWord ptrs)
    free ptrs = true ∧ no 0x004 = true ∧ no 0x00F = true ∧ no 0x016 = true ∧ no 0x01F = true ∧ no 0x024 = true ∧ no 0x0FF = true ∧
    no 0x107 = true ∧ no 2047 = true ∧ privileged ptrs.cur = false ∧ trapsIn (exec (.sysrd 4 0x100 0) ptrs) .priv 0 (curWord ptrs) = true ∧
    trapsIn (exec (.syswr 0x106 4 0) ptrs) .priv 0 (curWord ptrs) = true ∧ trapsIn (exec (.syswr 0x003 4 0) ptrs) .illegal 4 (curWord ptrs) = true ∧
    trapsIn (exec (.syswr 0x015 4 0) ptrs) .illegal 4 (curWord ptrs) = true ∧ free firmware = true ∧
    trapsIn (exec (.syswr 0x104 4 0) firmware) .illegal 4 (curWord firmware) = true := by decide +kernel

theorem wit_SystemRegistersTakeWhatIsWritten :
    let s := ptrs.ws 5 0xFFFF_FFFF_FFFF_FFFF
    s.me.role = .alone ∧ s.rk 3 = false ∧ ranIn (exec (.syswr 0x010 5 3) s) = true ∧ ranIn (exec (.syswr 0x023 5 3) s) = true ∧
    (runI (.syswr 0x010 5 0) s).me.fpctl = 15 ∧ (runI (.syswr 0x011 5 0) s).me.fpflags = 255 ∧ (runI (.syswr 0x012 5 0) s).me.qprime = 15 ∧
    (runI (.syswr 0x013 5 0) s).me.dlEn = true ∧ (runI (.syswr 0x013 5 0) s).me.dlLeft = 0xFFFF_FFFF_FFFF ∧
    (runI (.syswr 0x020 5 0) s).me.trapvec = 0xFFFF_FFFF_FFFC ∧ (runI (.syswr 0x021 5 0) s).me.trapcause = 0xFFFF_0007_FFFF ∧
    (runI (.syswr 0x022 5 0) s).me.trappc = 0xFFFF_FFFF_FFFF ∧ (runI (.syswr 0x023 5 0) s).me.trapval = BitVec.allOnes 64 ∧
    privileged firmware.cur = true ∧ firmware.me.role = .alone ∧
    (runI (.syswr 0x100 5 0) firmware).myCore.shadow[0] = 9 ∧ (runI (.syswr 0x103 5 0) firmware).myCore.pend = true ∧
    (runI (.syswr 0x105 5 0) firmware).myCore.stagger = 9 ∧ ranIn (exec (.syswr 0x106 5 0) firmware) = true := by decide +kernel

/-- The running thread with a handler at 0x4000, its budget run out beside another fault. -/
def handled : State := ptrs.updMe fun t => { t with trapvec := 0x4000, dlEn := true, dlDue := true }

theorem wit_TakingAFaultSavesAndGoesToTheHandler :
    (⟨.lane, 0, 5, none, false⟩ : FaultRec).terminal = false ∧ handled.me.trapvec.toNat % 2 ^ 48 / 4 * 4 ≠ 0 ∧
    handled.me.trapcause.getLsbD 18 = false ∧ (takeFault handled 0 ⟨.lane, 0, 5, none, false⟩).me.pc = 0x4000 ∧
    (takeFault handled 0 ⟨.lane, 0, 5, none, false⟩).me.trapcause = 0x6_0003 := by decide +kernel

theorem wit_TerminalFaultsEndTheThread :
    let d := handled.updMe fun t => { t with trapcause := 0x4_0005 }
    (⟨.uncorr, 0, 0, none, true⟩ : FaultRec).terminal = true ∧ ((takeFault handled 0 ⟨.uncorr, 0, 0, none, true⟩).thr 0).live = false ∧
    (ptrs.thr 0).trapvec.toNat % 2 ^ 48 / 4 * 4 = 0 ∧ ((takeFault ptrs 0 ⟨.lane, 0, 0, none, false⟩).core 0).doneOp = some 0 ∧
    (d.thr 0).trapcause.getLsbD 18 = true ∧ ((takeFault d 0 ⟨.lane, 0, 0, none, false⟩).core 0).worst = 3 ∧ slotOf 0 = 0 := by
  decide +kernel

/-- The lowest and the highest code, the codes beside them, a field set above DETAIL. -/
theorem wit_TrapRaisesTheNamedFault :
    let tr := fun (w : Word) => exec (.trap 6 5 0) (handled.ws 5 w)
    free handled = true ∧ handled.rk 3 = false ∧ ranIn (exec (.trap 6 5 3) handled) = true ∧
    codeOfNum 1 = some .debug ∧ codeOfNum 20 = some .uncorr ∧ codeOfNum 0 = none ∧ codeOfNum 21 = none ∧
    trapsIn (tr 0xFF01) .debug 0xFF 0 = true ∧ trapsIn (tr 0x0014) .uncorr 0 0 = true ∧ trapsIn (tr 0x0310) .stall 3 0 = true ∧
    trapsIn (tr 0x0000) .illegal 1 0 = true ∧ trapsIn (tr 0x0015) .illegal 1 0 = true ∧ trapsIn (tr 0x1_0001) .illegal 1 0 = true := by
  decide +kernel

/-- A saved program counter that is aligned, one that is not; a leading thread whose partner is parked. -/
theorem wit_EretReturnsToTheSavedPc :
    let s := handled.updMe fun t => { t with trappc := 0x1234_5678, trapcause := 0x4_0005 }
    let m := handled.updMe fun t => { t with trappc := 0x1002 }
    let p := (({ handled with cur := 1 } : State).updThr 1 fun t => { t with live := true, trappc := 0x1000 }).updThr 2 fun t =>
      { t with live := true, role := .trailing, parked := true }
    ranIn (exec (.eret 3) s) = true ∧ s.me.role ≠ .trailing ∧ s.me.trappc.toNat % 4 = 0 ∧ (runI (.eret 0) s).me.npc = 0x1234_5678 ∧
    (runI (.eret 0) s).me.trapcause = 5 ∧ m.me.trappc.toNat % 4 ≠ 0 ∧ trapsIn (exec (.eret 0) m) .align 0 0x1002 = true ∧
    slotOf p.cur % 2 = 1 ∧ (p.thr (partnerOf p.cur)).live = true ∧ (p.thr (partnerOf p.cur)).role = .trailing ∧
    ((runI (.eret 0) p).thr 2).parked = false ∧ (runI (.eret 0) p).me.role = .leading := by decide +kernel

theorem wit_HostCallDebugAndInvalidate :
    let a := answeredBy [1, 2, 3, 4, 5, 6, 7, 8] ptrs
    let d := ptrs.updMyCore fun c => { c with dbgctl := 0x200 }
    let f := firmware.ws 4 0x0020_0000_0002_0000
    privileged firmware.cur = true ∧ free firmware = true ∧ trapsIn (exec (.hcall 6 4 0) firmware) .illegal 1 (curWord firmware) = true ∧
    privileged ptrs.cur = false ∧ okM (checkAcc ptrs (oneAcc (ptrs.rs 10) 0 64 8 needR 1)) = true ∧
    (runI (.hcall 6 10 0) ptrs).reqs.map (·.size) = [64] ∧ a.me.got = some (.words [1, 2, 3, 4, 5, 6, 7, 8]) ∧
    ((runI (.hcall 6 10 0) a).ctx 1).posted.isSome = true ∧ (runI (.hcall 6 10 0) a).me.wait = some .call ∧
    [(7 : Word)].length ≠ 8 ∧ (runI (.hcall 6 10 0) (answeredBy [7] ptrs)).rs 6 = 7 ∧
    ranIn (exec (.dbg 3) ptrs) = true ∧ d.myCore.dbgctl.getLsbD 9 = true ∧ trapsIn (exec (.dbg 0) d) .debug 3 d.me.pc.toNat = true ∧
    ptrs.myCore.dbgctl.getLsbD 9 = false ∧ ranIn (exec (.dbg 0) ptrs) = true ∧
    trapsIn (exec (.tlbinv 4 0) ptrs) .priv 0 (curWord ptrs) = true ∧ tlbinvBad (f.rs 4) = false ∧ ranIn (exec (.tlbinv 4 0) f) = true ∧
    ((runI (.tlbinv 4 0) f).core 0).tlb.length + 1 = (f.core 0).tlb.length ∧ tlbinvBad 0xFFFF_FFFF_FFFF_FFFF = true ∧
    trapsIn (exec (.tlbinv 4 0) (f.ws 4 0xFFFF_FFFF_FFFF_FFFF)) .illegal 1 (curWord f) = true := by decide +kernel

/-! ### Time, messages, barriers, helpers, engine commands, launches -/

theorem wit_TimeInstructionsReadAndSetTheClock :
    let s : State := { ptrs with ptb := 5 }
    (s.rs 5).toNat ≤ s.ptb ∧ ranIn (exec (.tickw 5 0) s) = true ∧ s.rk 3 = false ∧ ranIn (exec (.tickw 10 3) s) = true ∧
    s.ptb < (s.ws 5 6 |>.rs 5).toNat ∧ waitsIn (exec (.tickw 5 0) (s.ws 5 6)) (.time 6) = true ∧
    ranIn (exec (.dline 5 3) s) = true ∧ (runI (.dline 5 0) s).me.dlEn = true ∧ (runI (.dline 4 0) s).me.dlEn = false ∧
    (runI (.tick 6 0) s).rs 6 = 5 := by decide +kernel

theorem wit_MessagesLeaveWithTheirHeader :
    let s := (withV 64 [(1, [0xAB, 0])] (ptrs.ws 5 0x0000_2100_0000_0003)).updCtx 1 fun c => { c with pkey := 0x1234 }
    s.rk 0 = true ∧ s.me.contain = [] ∧ s.me.stalls = [] ∧ s.net = [] ∧ okM (sources1 s 1 none) = true ∧
    (runI (.msend 5 1 0) s).net.map (fun m => (m.dst, (bodyHeader m.body).toNat, elem m.body 64 1)) = [(3, 0x1234_2100_0000_0003, 0xAB)] ∧
    chanWord chanBase 0 = some 0x302 ∧ (runI (.chlen 4 0 0) chanBase).rs 4 = 0x302 ∧ (runI (.chlen 4 1 0) chanBase).rs 4 = 0x1_0301 ∧
    chanWord chanBase 2 = none ∧ free chanBase = true ∧ trapsIn (exec (.chlen 4 2 0) chanBase) .illegal 2 (curWord chanBase) = true := by
  decide +kernel

/-- The running thread in slot 10, and in slot 11. -/
def slot10 : State := ({ ptrs with cur := 10 } : State).updMe fun t => { t with live := true }
def slot11 : State := ({ ptrs with cur := 11 } : State).updMe fun t => { t with live := true }

theorem wit_BarriersDoneAndProbeWait :
    let s := grouped.updMe fun t => { t with fpflags := fNX }
    let l : State := { s with ptb := 6 }
    let f : State := { s with episodes := [⟨7, 5, [(9, 0)], false, false, []⟩] }
    let z : State := { s with episodes := [⟨7, 5, [(0, 1)], false, false, []⟩] }
    slotOf slot10.cur ≤ 10 ∧ slotOf slot10.cur ≠ 0 ∧ free slot10 = true ∧ free slot11 = true ∧
    trapsIn (exec (.bar .core 0) slot11) .illegal 1 (curWord slot11) = true ∧ trapsIn (exec (.bar .quad 0) slot10) .illegal 1 (curWord slot10) = true ∧
    slotOf s.cur = 0 ∧ s.rk 3 = false ∧ ranIn (exec (.bar .pkg 3) s) = true ∧ ranIn (exec (.bar .core 3) (slot10)) = true ∧
    s.busy s.cur = false ∧ s.me.failures = [] ∧ s.me.contain = [] ∧ s.me.stalls = [] ∧ placedWithin s .pkg = true ∧ placedWithin s .core = true ∧
    waitsIn (exec (.bar .pkg 0) s) (.barrier .pkg fNX s.cycle) = true ∧ waitsIn (exec (.bar .core 0) slot10) (.barrier .core 0 0) = true ∧
    trapsIn (exec (.done 5 0) slot10) .illegal 1 (curWord slot10) = true ∧ trapsIn (exec (.probe 0) slot10) .illegal 1 (curWord slot10) = true ∧
    trapsIn (exec (.barPod 5 5 0) slot10) .illegal 1 (curWord slot10) = true ∧
    ranIn (exec (.done 5 3) s) = true ∧ ranIn (exec (.probe 3) s) = true ∧ ranIn (exec (.barPod 5 5 3) s) = true ∧
    waitsIn (exec (.done 5 0) s) .completion = true ∧ (runI (.done 5 0) s).myCore.doneOp = some 5 ∧ waitsIn (exec (.probe 0) s) .probe = true ∧
    placedWithin s .pod = true ∧ s.me.got = none ∧ liveGroup s (ctxOf s (tileOf s.cur)) ((s.rs 5).toNat % 2 ^ 16) = some gdesc ∧
    myCores s gdesc = 1 ∧ groupKey s (ctxOf s (tileOf s.cur)) 5 = 7 ∧ s.episode 7 5 = none ∧
    waitsIn (exec (.barPod 5 5 0) s) (.podBarrier 7 5 fNX) = true ∧
    (l.rs 5).toNat < l.ptb ∧ trapsIn (exec (.barPod 5 5 0) l) .barlate 0 5 = true ∧
    (f.episode 7 5).map (fun e => e.tiles.length) = some (myCores f gdesc) ∧ trapsIn (exec (.barPod 5 5 0) f) .barlate 0 5 = true ∧
    (z.episode 7 5).map (·.tiles) = some [(tileOf z.cur, 1)] ∧ waitsIn (exec (.barPod 5 5 0) z) (.podBarrier 7 5 fNX) = true := by decide +kernel

/-- Every slot of 1 to 10 taken. -/
def crowded : State := (List.range 10).foldl (fun s i => s.updThr (i + 1) fun t => { t with live := true }) ptrs

/-- Free slots from the first on, only the last free, none free; for pairs, only the last pair free. -/
theorem wit_HelpersStartInTheLowestFreeSlot :
    let s := ptrs.ws 6 0x1000
    let b := ptrs.ws 6 0x1002
    let z := (crowded.ws 6 0x1000).updThr 10 fun t => { t with live := false }
    let y := (crowded.ws 6 0x1000).updThr 9 fun t => { t with live := false }
    slotOf slot10.cur ≠ 0 ∧ free slot10 = true ∧ trapsIn (exec (.hstart 4 6 5 0) slot10) .illegal 1 (curWord slot10) = true ∧
    trapsIn (exec (.hprot 4 6 5 0) slot10) .illegal 1 (curWord slot10) = true ∧ slotOf s.cur = 0 ∧ s.rk 3 = false ∧
    ranIn (exec (.hstart 4 6 5 3) s) = true ∧ ranIn (exec (.hprot 4 6 5 3) s) = true ∧ (b.rs 6).toNat % 4 ≠ 0 ∧
    trapsIn (exec (.hstart 4 6 5 0) b) .align 0 0x1002 = true ∧ trapsIn (exec (.hprot 4 6 5 0) b) .align 0 0x1002 = true ∧
    (s.rs 6).toNat % 4 = 0 ∧ (∀ i, i < 11 → 1 ≤ i → slotFree crowded 0 i = false) ∧ (runI (.hstart 4 6 5 0) (crowded.ws 6 0x1000)).rs 4 = 0 ∧
    slotFree s 0 1 = true ∧ (runI (.hstart 4 6 5 0) s).rs 4 = 1 ∧ ((runI (.hstart 4 6 5 0) s).thr 1).regs.rs 4 = 5 ∧
    slotFree z 0 10 = true ∧ (∀ j, j < 10 → 1 ≤ j → slotFree z 0 j = false) ∧ (runI (.hstart 4 6 5 0) z).rs 4 = 10 ∧
    (∀ j, j < 5 → slotFree z 0 (2 * j + 1) = false ∨ slotFree z 0 (2 * j + 2) = false) ∧ (runI (.hprot 4 6 5 0) z).rs 4 = 0 ∧
    slotFree (y.updThr 10 fun t => { t with live := false }) 0 (2 * 4 + 1) = true ∧
    (∀ m, m < 4 → slotFree y 0 (2 * m + 1) = false ∨ slotFree y 0 (2 * m + 2) = false) ∧
    (runI (.hprot 4 6 5 0) (y.updThr 10 fun t => { t with live := false })).rs 4 = 9 ∧ (runI (.hprot 4 6 5 0) s).rs 4 = 1 := by
  decide +kernel

theorem wit_HelpersJoinAndStop :
    let c := crowded.ws 6 10
    let p := (c.updThr 9 fun t => { t with live := false }).updThr 10 fun t => { t with role := .trailing }
    trapsIn (exec (.hjoin 6 0) slot10) .illegal 1 (curWord slot10) = true ∧ ranIn (exec (.hjoin 6 3) c) = true ∧
    (c.rs 4).toNat < 1 ∧ trapsIn (exec (.hjoin 4 0) c) .illegal 1 (curWord c) = true ∧
    trapsIn (exec (.hjoin 4 0) (c.ws 4 11)) .illegal 1 (curWord c) = true ∧
    (ptrs.thr (keyOf 0 10)).live = false ∧ ranIn (exec (.hjoin 6 0) (ptrs.ws 6 10)) = true ∧ ranIn (exec (.hjoin 6 0) (ptrs.ws 6 1)) = true ∧
    (c.thr 10).live = true ∧ waitsIn (exec (.hjoin 6 0) c) .join = true ∧ (p.thr 9).live = false ∧
    waitsIn (exec (.hjoin 6 0) (p.ws 6 9)) .join = true ∧ slotOf ptrs.cur < 1 ∧ trapsIn (exec (.stop 0) ptrs) .illegal 1 (curWord ptrs) = true ∧
    12 < slotOf firmware.cur ∧ trapsIn (exec (.stop 0) firmware) .illegal 1 (curWord firmware) = true ∧
    ranIn (exec (.stop 3) slot10) = true ∧ slot10.me.wait ≠ some .call ∧ ranIn (exec (.stop 0) slot10) = true ∧
    ((runI (.stop 0) slot10).thr 10).live = false ∧ slotOf { slot10 with cur := 12 }.cur ≤ 12 := by decide +kernel

/-- A core whose CP holds eight commands. -/
def fullCp : State := ptrs.updMyCore fun c => { c with cp := { c.cp with queue := List.replicate 8 ⟨0, 0, 0, 0⟩ } }

theorem wit_EngineCommandsArePushedAndAwaited :
    let s := ptrs.updMyCore fun c => { c with eseq := 0x41 }
    let t := runI (.enq .mx 5 2 0) s
    okM (sources1 s 2 none) = true ∧ engineRoom s.myCore .mx = true ∧ t.rs 5 = 0x41 ∧ t.myCore.eseq = 0x42 ∧
    okM (checkBound fullCp [2] none) = true ∧ engineRoom fullCp.myCore .cp = false ∧ waitsIn (exec (.enq .cp 0 4 0) fullCp) .engineQueue = true ∧
    (ringAt t.myCore 0x41).seq.toNat = 0x41 ∧ (runI (.eseq .w0 6 5 0) t).rs 6 = 0x0041_0000_0000_0000 ∧
    (ringAt t.myCore 0x42).seq.toNat ≠ 0x42 ∧ (runI (.eseq .w0 6 7 0) (t.ws 7 0x42)).rs 6 = BitVec.allOnes 64 ∧
    ranIn (exec (.ewait 5 3) t) = true ∧ ranIn (exec (.ewait 7 0) (t.ws 7 0x42)) = true ∧ (ringAt t.myCore 0x41).state < 2 ∧
    waitsIn (exec (.ewait 5 0) t) .engine = true := by decide +kernel

/-- Context 1 with page tables: 0x20000 is a page at 0x1000, readable and writable, 0x21000 one at 0x2000 that may only be
read (Table 7-3). -/
def tabled : State :=
  { ptrs.updCtx 1 fun c => { c with root := 0x10000 } with
    mem := writeWord (writeWord (writeWord (writeWord (writeWord ptrs.mem 0x10000 0x1_1040) 0x11000 0x1_2040) 0x12000 0x1_3040)
      0x13100 0x1086) 0x13108 0x2084 }

/-- A payload for one core, entry and PARAM in the context's page (Tables 6-4 and 6-5). -/
def payload : List Word := [0x2_0000, 0x2_0000, 1, 0, 0, 0, 0, 0, 0, 0, 0, 0, 0, 0]

theorem wit_DeviceLaunchesArePlacedOneDeeper :
    let s := answeredBy payload tabled
    let deep := s.updLaunch 1 fun l => { l with depth := 16 }
    let full := s.updCtx 1 fun c => { c with quota := [(0, 16)] }
    let wait := full.updLaunch 1 fun l => { l with payload := [0, 0, 0, 0, 0, 0, 0, 0, 0, 0, 7, 0, 0, 0] }
    let bad := answeredBy (payload.set 13 1) tabled
    ptrs.rk 3 = false ∧ ranIn (exec (.launchGrid 10 3) ptrs) = true ∧ ranIn (exec (.launchPipe 10 3) ptrs) = true ∧
    okM (checkAcc ptrs (oneAcc (ptrs.rs 10) 0 112 8 needR 1)) = true ∧ (runI (.launchGrid 10 0) ptrs).reqs.map (·.size) = [112] ∧
    s.me.role = .alone ∧ s.me.got = some (.words payload) ∧ (s.launch 1).depth < 16 ∧ quotaUsed s 1 0 < 16 ∧
    rejectCode s 1 false false payload = none ∧ ranIn (exec (.launchGrid 10 0) s) = true ∧
    ((runI (.launchGrid 10 0) s).launch s.nextId).depth = 1 ∧ ((runI (.launchGrid 10 0) s).ctx 1).fifo = [s.nextId] ∧
    16 ≤ (deep.launch 1).depth ∧ free deep = true ∧ trapsIn (exec (.launchGrid 10 0) deep) .pool 0 7 = true ∧
    16 ≤ quotaUsed full 1 0 ∧ pPoolwait (full.launch 1).payload = 0 ∧ trapsIn (exec (.launchPipe 10 0) full) .pool 0 0 = true ∧
    pPoolwait (wait.launch 1).payload ≠ 0 ∧ waitsIn (exec (.launchGrid 10 0) wait) (.pool 0) = true ∧
    rejectCode bad 1 false false (payload.set 13 1) = some 2 ∧ ranIn (exec (.launchGrid 10 0) bad) = true ∧
    pDone (payload.set 13 1) = 0 ∧ ((runI (.launchGrid 10 0) bad).ctx 1).abandon = 1 ∧ rejectCode s 1 true false payload = some 3 ∧
    ranIn (exec (.launchPipe 10 0) s) = true := by decide +kernel

/-! ### Accesses at their homes -/

/-- The one request in flight and its first part meet a condition. -/
def onePartIs (s : State) (f : Req → Part → Bool) : Bool :=
  match s.reqs with
  | [r] => match r.parts with
    | p :: _ => f r p
    | [] => false
  | _ => false

/-- What the clauses of performance ask of part 0 at its home tile `h`. -/
def atItsHome (s : State) (h : Nat) : Bool :=
  onePartIs s fun r p => decide (s.req r.id = some r ∧ r.parts[0]? = some p ∧ p.stage = .waiting ∧ homeTile s p.pa = some h ∧
    (∀ m ∈ p.moves, isDrawer m.1 = false) ∧ isSram p.pa = true ∧ behindEarlier s r 0 p = false ∧ bankTurn s h r 0 = true ∧
    (∀ w ∈ p.words, resvOn s h w = none ∧ waitersOn s w = []) ∧ s.fatal = none)

/-- A step of the machine takes place. -/
def happensIn (i : Instr) (s : State) : Bool := s.fatal == none && goesOn (exec i s)

/-- A step of the machine takes place and leaves exactly that. -/
def leaves (i : Instr) (s t : State) : Bool := s.fatal == none && isNext (exec i s) { t with did := .nothing }

/-- A word load in flight, of the word 0x8000_0001 at physical 0x1008. -/
noncomputable def loading : State :=
  runI (.ld .w32 false false 6 10 2 0) { ptrs with mem := writeBytes ptrs.mem 0x1008 (leBytes 4 0x8000_0001) }

theorem wit_LoadsArePerformed :
    atItsHome loading 0 = true ∧ onePartIs loading (fun r p => decide (r.kind = .load ∧ loadPoison loading r.lid p = false ∧ (p.moves.map (·.2)).Nodup ∧
      (0x1008, 0) ∈ p.moves ∧ (0x100B, 3) ∈ p.moves)) = true ∧
    (runI (.accessAtHome 2 0) loading).reqs.map (fun r => (r.buf, r.parts.map (·.stage))) = [([1, 0, 0, 0x80], [.done])] := by
  decide +kernel

/-- A byte store in flight. -/
noncomputable def storing : State := runI (.st .w8 false 10 7 5 0) ptrs

/-- Both memories in canonical form. -/
noncomputable def bothOk (s : State) : Bool := Memory.wf s.mem && Memory.wf s.hostMem

theorem wit_StoresArePerformed :
    bothOk storing = true ∧ atItsHome storing 0 = true ∧ onePartIs storing (fun r p => decide (r.kind = .store ∧ r.owner = .thread 0 ∧ storePoison storing r.lid p = false ∧
      (p.moves.map (·.1)).Nodup ∧ p.moves = [(0x1007, 0)])) = true ∧
    readByte (runI (.accessAtHome 2 0) storing).mem 0x1007 = 5 := by decide +kernel

/-- A synchronising load for sequence 5, its granule's tag given. -/
noncomputable def syncing (tag : Byte) : State := (runI (.ldSync .w32 6 10 5 0) ptrs).setTag (0x1000 / 64) tag

/-- A granule not FULL, the tag just below FULL; FULL with another sequence; FULL with its own. -/
theorem wit_SynchronisingLoadsMeetTheTag :
    atItsHome (syncing 0x7F) 0 = true ∧ onePartIs (syncing 0x7F) (fun r p => decide (r.kind = .sync 5 ∧ r.owner = .thread 0 ∧
      ((syncing 0x7F).tag (p.pa / 64)).toNat < 128 ∧ ((syncing 0x7F).thr 0).wait ≠ some .granule)) = true ∧
    (runI (.accessAtHome 2 0) (syncing 0x7F)).me.wait = some .granule ∧
    atItsHome (syncing 0x80) 0 = true ∧ onePartIs (syncing 0x80) (fun _ p => decide (128 ≤ ((syncing 0x80).tag (p.pa / 64)).toNat ∧
      ((syncing 0x80).tag (p.pa / 64)).toNat % 128 ≠ 5)) = true ∧
    (runI (.accessAtHome 2 0) (syncing 0x80)).reqs.map (·.fault) = [some ⟨.sched, 0x80, 0x2_0000, none, false⟩] ∧
    atItsHome (syncing 0x85) 0 = true ∧ onePartIs (syncing 0x85) (fun r p => decide (((syncing 0x85).tag (p.pa / 64)).toNat % 128 = 5 ∧
      loadPoison (syncing 0x85) r.lid p = false)) = true ∧
    (runI (.accessAtHome 2 0) (syncing 0x85)).reqs.map (fun r => r.parts.map (·.stage)) = [[.done]] := by decide +kernel

/-- The load performed, and the load failed. -/
noncomputable def loaded : State := runI (.accessAtHome 2 0) loading
noncomputable def failedLoad : State :=
  { loading with reqs := loading.reqs.map fun r => { partAt r 0 .failed with fault := some ⟨.stall, 3, r.va, none, false⟩ } }

/-- What the return of a plain load's value asks. -/
def returns (s : State) : Bool :=
  onePartIs s fun r _ => decide (s.req r.id = some r ∧ presented s r.id = false ∧ r.owner = .thread 0 ∧ r.settled = true ∧ (s.thr 0).live = true ∧
    r.lid = lidOf s 0 ∧ (s.thr 0).born ≤ r.seq ∧ (s.thr 0).role = .alone ∧ sfuPending s 0 = false ∧ r.kind = .load ∧ r.fin = .scalar 6 32 true ∧
    r.undo.isSome = true ∧ r.undo.map (·.pops) = some [] ∧ r.undo.map (·.pushes) = some [] ∧ s.fatal = none)

theorem wit_LoadValuesReturn :
    returns loaded = true ∧ loaded.reqs.map (·.fault) = [none] ∧ (runI (.loadValueReturn 2) loaded).rs 6 = 0xFFFF_FFFF_8000_0001 ∧
    (runI (.loadValueReturn 2) loaded).reqs = [] ∧ (runI (.loadValueReturn 2) loaded).me.wait = none ∧
    returns failedLoad = true ∧ impreciseDue failedLoad 0 = false ∧ happensIn (.loadValueReturn 2) failedLoad = true ∧
    ((runI (.loadValueReturn 2) failedLoad).thr 0).live = false := by decide +kernel

noncomputable def stored' : State := runI (.accessAtHome 2 0) storing

theorem wit_StoresAreAcknowledged :
    let f : State := { storing with reqs := storing.reqs.map fun r => { partAt r 0 .failed with fault := some ⟨.stall, 3, r.va, none, false⟩ } }
    onePartIs stored' (fun r _ => decide (stored'.req r.id = some r ∧ r.owner = .thread 0 ∧ r.kind.acked = true ∧ r.settled = true ∧ r.fault = none)) = true ∧
    leaves (.storeAck 2) stored' { stored' with reqs := [] } = true ∧
    onePartIs f (fun r _ => decide (r.settled = true ∧ r.fault.isSome = true ∧ r.lid = lidOf f 0 ∧ (f.thr 0).born ≤ r.seq)) = true ∧
    (runI (.storeAck 2) f).me.failures.length = 1 := by decide +kernel

/-- A combining entry at its 64th cycle, and one cycle earlier, when it does not leave. -/
def combining (cycle : Nat) : State :=
  { ptrs.updThr 0 (fun t => { t with comb := [⟨0x40, [(0x1001, 7)], 0, 0x2_0001, 0⟩] }) with cycle := cycle }

theorem wit_CombiningEntriesDrain :
    ((combining 64).thr (keyOf 0 0)).comb = [⟨0x40, [(0x1001, 7)], 0, 0x2_0001, 0⟩] ∧ 0 + 64 ≤ (combining 64).cycle ∧
    (runI (.combiningEntryTimeout 0 0 0x40) (combining 64)).reqs.map (·.buf) = [[7]] ∧ happensIn (.combiningEntryTimeout 0 0 0x40) (combining 63) = false := by
  decide +kernel

/-- A reservation of word 0x200 at its 256th cycle, and one cycle earlier. -/
def reserving (cycle : Nat) : State :=
  { (ptrs.updThr 0 fun t => { t with reserved := some 0x200 }).updBank 0 (fun b => { b with resv := [⟨0x200, 0, none, 0⟩] }) with cycle := cycle }

/-- What the clause on atomics asks of part 0 at tile 0. -/
noncomputable def atomic (s : State) (stage : Stage) : Bool :=
  bothOk s && onePartIs s fun r p => decide (s.req r.id = some r ∧ r.parts[0]? = some p ∧ homeTile s p.pa = some 0 ∧ isSram p.pa = true ∧
    (∀ m ∈ p.moves, isDrawer m.1 = false) ∧ bankTurn s 0 r 0 = true ∧ (∀ w ∈ p.words, waitersOn s w = []) ∧ r.owner = .thread 0 ∧
    p.stage = stage ∧ (stage = .waiting → behindEarlier s r 0 p = false) ∧ loadPoison s r.lid p = false ∧ storePoison s r.lid p = false ∧
    s.fatal = none)

/-- The word reserved for the running thread, and a fetching addition granted there. -/
noncomputable def rsvDone : State := { runI (.loadValueReturn 2) (runI (.accessAtHome 2 0) (runI (.rsv .w64 4 10 0) ptrs)) with cycle := 1 }
noncomputable def amoGranted : State := { runI (.accessAtHome 2 0) (runI (.amoAdd .w32 4 10 5 0) ptrs) with cycle := 1 }

theorem wit_AtomicsArePerformed :
    let rs := runI (.rsv .w64 4 10 0) ptrs
    let am := runI (.amoAdd .w32 4 10 5 0) ptrs
    atomic rs .waiting = true ∧ resvOn rs 0 0x200 = none ∧ (runI (.accessAtHome 2 0) rs).me.reserved = some 0x200 ∧
    ((runI (.accessAtHome 2 0) rs).bank 0).resv = [⟨0x200, 0, none, rs.cycle⟩] ∧ atomic am .waiting = true ∧
    atomic amoGranted .granted = true ∧ atomicOn amoGranted 0 0x200 = some ⟨0x200, 0, none, am.cycle⟩ ∧
    onePartIs amoGranted (fun r p => decide (p.moves.length = r.size ∧ (p.moves.map (·.1)).Nodup)) = true ∧
    readByte (runI (.accessAtHome 2 0) amoGranted).mem 0x1000 = 5 ∧ ((runI (.accessAtHome 2 0) amoGranted).bank 0).resv = [] := by
  decide +kernel

/-- A compare that fails, a term that has ended, a conditional write with its reservation and without. -/
theorem wit_AtomicsArePerformed_others :
    let cas := { runI (.accessAtHome 2 0) (runI (.amoCas .w32 5 10 5 0) ptrs) with cycle := 1 }
    let late := amoGranted.updBank 0 fun b => { b with resv := [] }
    let w := runI (.wrv .w64 10 5 0) rsvDone
    let bare := runI (.wrv .w64 10 5 0) ptrs
    let id := (w.reqs.map (·.id)).headD 0
    atomic cas .granted = true ∧ amoValue .cas 32 0 5 5 = none ∧ (runI (.accessAtHome 2 0) cas).mem = ptrs.mem ∧
    atomic late .granted = true ∧ atomicOn late 0 0x200 = none ∧
    (runI (.accessAtHome 2 0) late).reqs.map (·.fault) = [some ⟨.lapsed, 0, 0x2_0000, none, false⟩] ∧
    atomic w .waiting = true ∧ resvOn w 0 0x200 = some ⟨0x200, 0, none, ptrs.cycle⟩ ∧
    readByte (runI (.accessAtHome id 0) w).mem 0x1000 = 5 ∧ atomic bare .waiting = true ∧ resvOn bare 0 0x200 = none ∧
    (runI (.accessAtHome 2 0) bare).reqs.map (·.fault) = [some ⟨.lapsed, 0, 0x2_0000, none, false⟩] := by decide +kernel

theorem wit_AtomicsArePerformed_tags :
    let s := fun (i : Instr) => (runI i ptrs).setTag (0x1000 / 64) 0x85
    (∀ i ∈ [Instr.gtagRd 6 10 0, .gtagSet 10 5 0, .gtagClr 10 0], atomic (s i) .waiting = true) ∧
    (runI (.accessAtHome 2 0) (s (.gtagRd 6 10 0))).reqs.map (·.buf) = [[0x85]] ∧
    (runI (.accessAtHome 2 0) (runI (.gtagSet 10 5 0) ptrs)).tag 0x40 = 0x85 ∧
    (runI (.accessAtHome 2 0) (s (.gtagClr 10 0))).tag 0x40 = 0x05 := by decide +kernel

theorem wit_ReservationTermsEnd :
    let s := reserving 256
    homeTile s (8 * 0x200) = some 0 ∧ atomicOn s 0 0x200 = some ⟨0x200, 0, none, 0⟩ ∧ 0 + 256 ≤ s.cycle ∧ waitersOn s 0x200 = [] ∧
    ((runI (.atomicTermExpiry 0x200) s).thr 0).reserved = none ∧ ((runI (.atomicTermExpiry 0x200) s).bank 0).resv = [] ∧
    happensIn (.atomicTermExpiry 0x200) (reserving 255) = false := by decide +kernel

/-- A store of another thread to a word that thread 32 (tile 2) has reserved, deferred at cycle 0; the bank with room, and
full. -/
noncomputable def deferredAt (cycle : Nat) : State :=
  let s := { (runI (.st .w8 false 10 0 5 0) ptrs).updBank 0 (fun b => { b with resv := [⟨0x200, 32, none, cycle⟩] }) with cycle := cycle }
  { s with reqs := s.reqs.map fun r => partAt r 0 (.deferred 7 0) }

theorem wit_DeferredRequestsComeAgain :
    let s := deferredAt 64
    onePartIs s (fun r p => decide (r.id = 2 ∧ r.parts = [p] ∧ p.stage = .deferred 7 0 ∧ homeTile s p.pa = some 0 ∧ heldOff s 0 r p = true)) = true ∧
    0 + 64 ≤ s.cycle ∧ stored s 0 < 64 ∧ (runI (.deferredRepresent 0 7) s).reqs.map (fun r => r.parts.map (·.stage)) = [[.queued 7]] ∧
    happensIn (.deferredRepresent 0 7) (deferredAt 63) = false := by decide +kernel

/-- An unsigned word load performed; the answers of the hold instructions and of `hcall` there. -/
theorem wit_AccessStepsAndAnswersTakePlace :
    let l := runI (.accessAtHome 2 0) (runI (.ld .w32 true false 6 10 2 0) { ptrs with mem := writeBytes ptrs.mem 0x1008 (leBytes 4 0x8000_0001) })
    let s := answeredBy [7, 9] ptrs
    onePartIs l (fun r _ => decide (l.req 2 = some r ∧ r.settled = true ∧ r.fault = none ∧ r.kind = .load ∧ r.fin = .scalar 6 32 false ∧
      r.undo.map (·.pops) = some [] ∧ r.undo.map (·.pushes) = some [])) = true ∧ (runI (.loadValueReturn 2) l).rs 6 = 0x8000_0001 ∧
    s.rk 0 = true ∧ s.me.role = .alone ∧ s.me.got = some (.words [7, 9]) ∧ privileged s.cur = false ∧
    (runI (.holdRng 8 4 5 0) s).rs 8 = 7 ∧ (runI (.holdRng 8 4 5 0) s).rs 9 = 9 ∧ (runI (.holdLk 8 4 5 0) s).rs 8 = 7 ∧
    (runI (.holdRt 8 4 5 0) (answeredBy [7] ptrs)).rs 8 = 7 ∧ (runI (.holdGrp 8 4 5 0) s).rs 8 = 7 ∧ ranIn (exec (.renew 4 5 0) s) = true ∧
    (runI (.life 8 4 0) s).rs 8 = 7 ∧ (runI (.hinfo 8 4 0) s).rs 8 = 7 ∧ (runI (.hcall 8 4 0) s).rs 8 = 7 := by decide +kernel

/-! ### A core's own steps -/

/-- A `vrcp` in the queue of quad 0. -/
noncomputable def sfuing : State := runI (.vrcp 1 2 0) base

theorem wit_SfuServesItsHead :
    (sfuing.quad 0).queue.length = 1 ∧ (sfuing.quad 0).freeAt ≤ sfuing.cycle ∧ ((runI (.sfuServiceStart 0) sfuing).quad 0).serving.map (·.2) = [16] ∧
    ((runI (.sfuServiceStart 0) sfuing).quad 0).freeAt = 4 := by decide +kernel

theorem wit_SfuResultsAreWritten :
    let s := { runI (.sfuServiceStart 0) sfuing with cycle := 16 }
    ((s.quad 0).serving.head?.map fun x => (x.2, x.1.key, x.1.push)) = some (16, 0, none) ∧ 0 ≠ noThread ∧ 16 ≤ s.cycle ∧
    elOf (runI (.sfuResult 0) s) 1 32 15 = 0x7F80_0000 ∧ (runI (.sfuResult 0) s).me.fpflags = fDZ ∧ (runI (.sfuResult 0) s).me.wait = none ∧
    happensIn (.sfuResult 0) { s with cycle := 15 } = false := by decide +kernel

/-- The step to entry 0 with an armed shadow of four slots, and with one in which slot 0 comes twice in four. -/
def armed (w0 : Word) : State :=
  base.updCore 0 fun c => { c with pend := true, rotPos := 31, shadow := #v[w0, 0x8382_8180_8382_8180, 0x8382_8180_8382_8180, 0x8382_8180_8382_8180] }

/-- Entry `i` of the shadow. -/
def shadowAt (s : State) (i : Nat) : Nat := ((s.core 0).shadow.toArray.getD (i % 32 / 8) 0).toNat / 256 ^ (i % 8) % 256

/-- What R12 and R14 ask of entry `i` of the shadow. -/
def goodEntry (s : State) (i : Nat) : Bool :=
  decide (shadowAt s i / 16 % 8 = 0) && (decide (shadowAt s i < 128) || [1, 2, 3].all fun k =>
    decide (shadowAt s ((i + k) % 32) < 128) || decide (shadowAt s ((i + k) % 32) % 16 ≠ shadowAt s i % 16))

/-- What R12 and R14 ask of the shadow's entries. -/
def goodTable (s : State) : Bool := (List.range 32).all (goodEntry s)

theorem wit_ArmedShadowsAreChecked :
    goodTable (armed 0x8382_8180_8382_8180) = true ∧ goodTable (armed 0x8382_8180_8380_8180) = false ∧ goodTable (armed 0x8382_8180_8382_8190) = false ∧
    ((armed 0).core 0).pend = true ∧ ((armed 0).core 0).rotPos = 31 ∧
    ((runI (.rottabShadowCheck 0) (armed 0x8382_8180_8382_8180)).core 0).rottab.toArray.getD 1 0 = 0x81 ∧
    ((runI (.rottabShadowCheck 0) (armed 0x8382_8180_8380_8180)).core 0).rej = true ∧
    ((runI (.rottabShadowCheck 0) (armed 0x8382_8180_8382_8190)).core 0).rej = true := by decide +kernel

theorem wit_RotationTablesAreArmed : happensIn (.rottabArm 4095 1 2 3 4) base = true ∧
    ((runI (.rottabArm 4095 1 2 3 4) base).core 4095).pend = true := by decide +kernel

theorem wit_DeadlinesAreTaken :
    let s := handled
    AtBoundary s (keyOf 0 0) ∧ (s.thr 0).role = .alone ∧ (s.thr 0).dlEn = true ∧ (s.thr 0).dlLeft = 0 ∧ (s.core 0).halt = false ∧
    impreciseDue s 0 = false ∧ (s.thr 0).failures = [] ∧ (s.thr 0).contain = [] ∧ (s.thr 0).stalls = [] ∧ s.fatal = none ∧
    (runI (.deadlineExpiry 0 0) s).me.trapcause = 0x4_000D ∧ (runI (.deadlineExpiry 0 0) s).me.dlEn = false := by
  unfold AtBoundary
  decide +kernel

/-- A failed command of slot 0 in ring entry 1. -/
def failedCmd : State :=
  handled.updCore 0 fun c => { c with eseq := 2, ring := [(1, ⟨1, 0x0A, 4, 1, 3, false, false, 0, 0, 3, 8, 0x2_0040⟩)] }

theorem wit_ImpreciseFaultsAreTaken :
    AtBoundary failedCmd (keyOf 0 0) ∧ (failedCmd.thr 0).act = false ∧
    (pendingImprecise failedCmd 0).map (·.1) = some 1 ∧ codeOfNum 0x0A = some .xlate ∧
    (runI (.impreciseFaultTaken 0 0) failedCmd).me.trapval = 0x2_0040 ∧ (runI (.impreciseFaultTaken 0 0) failedCmd).me.trapcause = 0x0001_0007_040A ∧
    ((runI (.impreciseFaultTaken 0 0) failedCmd).core 0).ring.map (·.2.taken) = [true] := by
  unfold AtBoundary
  decide +kernel

/-- A report for slot 3, which runs; the same where it has ended; and where another thread has started there since. -/
theorem wit_DiversionsAreReported :
    let s := fun (born : Nat) => ({ ptrs.updThr 3 (fun t => { t with live := true, born := 4 }) with reports := [(3, 1, born, 0x77)] } : State)
    let d : State := { ptrs with reports := [(3, 1, 4, 0x77)] }
    (s 4).reports[0]? = some (3, 1, 4, 0x77) ∧ lidOf (s 4) (tileOf 3) = 1 ∧ ((s 4).thr 3).live = true ∧ ((s 4).thr 3).born = 4 ∧
    ((runI (.containReport 0) (s 4)).thr 3).contain = [0x77] ∧ (d.thr 3).live = false ∧ (d.thr (keyOf 0 0)).live = true ∧
    ((runI (.containReport 0) d).thr 0).contain = [0x77] ∧ ((s 3).thr 3).born ≠ 3 ∧ ((s 3).thr 0).live = true ∧
    ((runI (.containReport 0) (s 3)).thr 0).contain = [0x77] ∧ ((runI (.containReport 0) (s 3)).thr 3).contain = [] := by decide +kernel

theorem wit_TimedWaitsEnd :
    let w := fun (x : Wait) => ptrs.updThr 0 fun t => { t with wait := some x }
    let at' := fun (s : State) (n : Nat) => ({ s with ptb := n, cycle := n } : State)
    let p := ((w (.pool 5)).updLaunch 1 fun l => { l with payload := [0, 0, 0, 0, 0, 0, 0, 0, 0, 0, 7, 0, 0, 0] }).updCtx 1 fun c =>
      { c with quota := [(0, 16)] }
    (runI (.timeWaitEnd 0 0) (at' (w (.time 9)) 9)).me.wait = none ∧ happensIn (.timeWaitEnd 0 0) (at' (w (.time 9)) 8) = false ∧
    (runI (.staggerReady 0) (at' (w (.stagger 9)) 9)).me.wait = none ∧ happensIn (.staggerReady 0) (at' (w (.stagger 9)) 8) = false ∧
    5 + pPoolwait ((at' p 12).launch (lidOf (at' p 12) 0)).payload ≤ (at' p 12).ptb ∧ 16 ≤ quotaUsed (at' p 12) 1 0 ∧
    ((at' p 12).core 0).halt = false ∧ impreciseDue (at' p 12) 0 = false ∧ happensIn (.poolwaitExpiry 0 0) (at' p 12) = true ∧
    ((runI (.poolwaitExpiry 0 0) (at' p 12)).core 0).worst = 15 ∧ happensIn (.poolwaitExpiry 0 0) (at' p 11) = false := by decide +kernel

/-! ### Holds and translation -/

/-- A keeper's request of the running thread for a handle, with holds 5 (a group) and 6 (a lock on word 0x200) live. -/
noncomputable def asking (i : Instr) (handle : Word) : State :=
  runI i ((grouped.ws 6 handle).updCtx 1 fun c => { c with holds := c.holds ++ [(6, ⟨0, true, true, .lock 0x200 0x2_0000, 500, 0, [], false⟩)] })

/-- What the keeper's clauses ask of the request. -/
def keeperHas (s : State) (crown : Bool) (kind : Nat) : Bool :=
  match (s.die 0).keeper with
  | [k] => decide (k.crown = crown ∧ k.kind = kind ∧ (s.thr k.key).live = true ∧ (s.thr k.key).wait = some (.keeper k.id) ∧ k.id = 2 ∧ k.key = 0 ∧
      k.ctx = 1 ∧ s.fatal = none)
  | _ => false

theorem wit_KeepersAnswer :
    let q := { (asking (.renew 6 5 0) 6) with reqs := [{ lockReq base ⟨0, 0, 1, 1, 0, 0x2_0000, 0, [], 0x1000, false⟩ 7 with
      parts := [⟨0, [(0x1000, 0)], .queued 3⟩] }] }
    let p := (asking (.renew 6 5 0) 6).setHold 1 6 ⟨0, true, true, .lock 0x200_0000_0200 0x2_0000, 500, 0, [], false⟩
    keeperHas (asking (.life 4 6 0) 5) false 5 = true ∧ (holdAt (asking (.life 4 6 0) 5) 1 5).reuse.toNat = 5 / 4096 ∧
    (runI (.holdRequestAtKeeper 0) (asking (.life 4 6 0) 5)).me.got = some (.words [1000000]) ∧
    keeperHas (asking (.hinfo 4 6 0) 5) false 6 = true ∧ (holdAt (asking (.hinfo 4 6 0) 5) 1 5).live = true ∧
    (runI (.holdRequestAtKeeper 0) (asking (.hinfo 4 6 0) 5)).me.got = some (.words [0x4000_0000_0000_0007]) ∧
    keeperHas (asking (.renew 6 5 0) 6) false 4 = true ∧ queuedOn (asking (.renew 6 5 0) 6) 0 0x200 = false ∧
    (holdAt (runI (.holdRequestAtKeeper 0) (asking (.renew 6 5 0) 6)) 1 6).expiry = 1024 ∧
    keeperHas q false 4 = true ∧ queuedOn q 0 0x200 = true ∧ (holdAt (runI (.holdRequestAtKeeper 0) q) 1 6).expiry = 1024 ∧
    keeperHas p false 4 = true ∧ homeTile p (8 * 0x200_0000_0200) = none ∧ (runI (.holdRequestAtKeeper 0) p).me.got = some (.words []) ∧
    keeperHas (asking (.life 4 6 0) 0x1005) false 5 = true ∧ (holdAt (asking (.life 4 6 0) 0x1005) 1 5).reuse.toNat ≠ 0x1005 / 4096 ∧
    (runI (.holdRequestAtKeeper 0) (asking (.life 4 6 0) 0x1005)).me.got = some (.fault ⟨.lapsed, 0, 0x1005, none, false⟩) ∧
    (holdAt (asking (.hinfo 4 6 0) 7) 1 7).live = false ∧
    (runI (.holdRequestAtKeeper 0) (asking (.hinfo 4 6 0) 7)).me.got = some (.fault ⟨.lapsed, 0, 7, none, false⟩) ∧
    keeperHas (asking (.holdRng 8 6 5 0) 0x40) false 0 = true ∧ keeperHas (runI (.holdRequestAtKeeper 0) (asking (.holdRng 8 6 5 0) 0x40)) true 0 = true := by
  decide +kernel

/-- Index 1 free; no index free. -/
noncomputable def allTaken : State := (runI (.holdLk 8 10 5 0) ptrs).updCtx 1 fun c =>
  { c with holds := (List.range' 0 4096).map fun i => (i, ⟨0, true, true, .context, 0, 0, [], false⟩) }

theorem tfind_const (x : Hold) (n : Nat) : ∀ a k, a ≤ k → k < a + n → tfind ((List.range' a n).map fun i => (i, x)) k = some x := by
  induction n with
  | zero => intro a k h1 h2; omega
  | succ n ih =>
    intro a k h1 h2
    rw [List.range'_succ, List.map_cons]
    simp only [tfind]
    split
    · rfl
    · exact ih (a + 1) k (by omega) (by omega)

theorem holds_allTaken : (allTaken.ctx 1).holds = (List.range' 0 4096).map fun i => (i, (⟨0, true, true, .context, 0, 0, [], false⟩ : Hold)) := by
  simp only [allTaken, State.updCtx, State.setCtx, State.ctx, tget, tfind_tset, if_pos, Option.getD_some]

theorem wit_LocksJoinTheirWordsQueue_full : ∀ i, 1 ≤ i → i ≤ 4095 → (holdAt allTaken 1 i).free = false := by
  intro i h1 h2
  rw [holdAt, State.hold, holds_allTaken, tfind_const _ 4096 0 i (by omega) (by omega)]
  rfl

theorem wit_LocksJoinTheirWordsQueue :
    let s := runI (.holdLk 8 10 5 0) ptrs
    keeperHas s false 1 = true ∧ (holdAt s 1 1).free = true ∧
    (runI (.holdRequestAtKeeper 0) s).reqs.map (fun r => (r.kind, r.parts.map (·.pa))) = [(.lock 1 1, [0x1000])] ∧
    (runI (.holdRequestAtKeeper 0) s).me.wait = some .reservation ∧ keeperHas allTaken false 1 = true := by decide +kernel

/-- A request at the Crown: a range of one 4 KiB page in the thread's slice; a route of port 0; a group. -/
noncomputable def crowned (kind : Nat) (arg : Word) (desc : List Word) (c : Ctx → Ctx) : State :=
  ((((ptrs.updMe fun t => { t with wait := some (.keeper 2) }).updCtx 1 fun x => c { x with sramb := 4096, slots := 0x00FF_FFFF, root := 0x10000 }).updDie 0
    fun d => { d with keeper := [⟨2, 0, 1, kind, 8, arg, 2000, desc, 0, true⟩] }))

theorem wit_TheCrownAnswers :
    let r := crowned 0 0x40 [] id
    let small := crowned 0 0x40 [] fun c => { c with sramb := 4095 }
    let rt := crowned 2 0 [0x0000_0001, 0] id
    let none' := (crowned 2 0 [0x0007_FF01, 0] id).updPort 0 fun p => { p with outTab := [(2047, .transit)] }
    let grp := { crowned 3 0 gdesc id with pod := [0, 1] }
    keeperHas r true 0 = true ∧ forcedStatus r ⟨2, 0, 1, 0, 8, 0x40, 2000, [], 0, true⟩ = none ∧ freeIndex r 1 = some 1 ∧
    rangeOk r 1 0 0x40 0x3_0000 [0x4_0000] = true ∧
    ((runI (.crownHoldPlacement 2 (.range 0x3_0000 [0x4_0000])) r).thr 0).got = some (.words [0x0001, 0x0001_0000_0003_0000]) ∧
    forcedStatus small ⟨2, 0, 1, 0, 8, 0x40, 2000, [], 0, true⟩ = some 2 ∧
    ((runI (.crownHoldPlacement 2 (.refuse 2)) small).thr 0).got = some (.words [0x2_0000, 0]) ∧
    keeperHas rt true 2 = true ∧ forcedStatus rt ⟨2, 0, 1, 2, 8, 0, 2000, [1, 0], 0, true⟩ = none ∧ rtFree rt [1, 0] 2047 = true ∧
    ((runI (.crownHoldPlacement 2 (.route 2047)) rt).thr 0).got = some (.words [BitVec.ofNat 64 (2047 * 2 ^ 24 + 1)]) ∧
    slotsBefore rt ⟨2, 0, 1, 2, 8, 0, 2000, [1, 0], 0, true⟩ = false ∧
    (freeIndex none' 1).isSome = true ∧ rtPref [0x0007_FF01, 0] = 2047 ∧ rtFree none' [0x0007_FF01, 0] 2047 = false ∧
    ((runI (.crownHoldPlacement 2 (.refuse 5)) none').thr 0).got = some (.words [0x5_0000]) ∧
    keeperHas grp true 3 = true ∧ forcedStatus grp ⟨2, 0, 1, 3, 8, 0, 2000, gdesc, 0, true⟩ = none ∧
    ((runI (.crownHoldPlacement 2 .group) grp).thr 0).got = some (.words [1]) ∧
    ((runI (.crownHoldPlacement 2 (.refuse 7)) grp).thr 0).got = some (.words [0x7_0000]) := by decide +kernel

/-- Context 1 with a hold of a kind in index 6, expiring at 100, at time `t`. -/
def expiring (k : HoldKind) (t : Nat) : State :=
  { ptrs.updCtx 1 (fun c => { c with holds := c.holds ++ [(6, ⟨0, true, true, k, 100, 0, [], false⟩)] }) with ptb := t }

theorem wit_ExpiredHoldsLapse :
    let r := expiring (.range 0x2_0000 1 12 1 [0x1000]) 100
    let c := { ptrs with ptb := 60000000000 }
    let l := { expiring (.lock 0x200_0000_0200 0x2_0000) 100 with routing := [(1, 8)] }
    r.hold 1 6 = some ⟨0, true, true, .range 0x2_0000 1 12 1 [0x1000], 100, 0, [], false⟩ ∧ (r.ctx 1).frozenAt = none ∧ 100 ≤ r.ptb ∧ r.fatal = none ∧
    ((runI (.holdLapseMark 1 6) r).hold 1 6).map (fun h => (h.live, h.lapsing)) = some (false, [0x1000]) ∧
    ((runI (.holdLapseMark 1 6) r).core 0).tlb.map (·.vpn) = ((r.core 0).tlb.map (·.vpn)).filter (· != 0x20) ∧
    homeTile r (8 * 0x200) = some 0 ∧ (∀ v ∈ (r.bank 0).resv, v.lock ≠ some (1, 6)) ∧
    happensIn (.holdLapseMark 1 6) (expiring (.lock 0x200 0x2_0000) 100) = true ∧
    happensIn (.holdLapseMark 1 6) (expiring (.route 0 5 1 [1, 0]) 100) = true ∧ happensIn (.holdLapseMark 1 6) (expiring (.route 0 5 1 [1, 0]) 99) = false ∧
    (c.hold 1 0).map (fun h => (h.kind, h.expiry)) = some (.context, 60000000000) ∧
    ((runI (.holdLapseMark 1 0) c).hold 1 0).map (·.live) = some false ∧ homeTile l (8 * 0x200_0000_0200) = none ∧
    portFor l (pkgOf (8 * 0x200_0000_0200)) = some 8 ∧ ((runI (.holdLapseMark 1 6) l).hold 1 6).map (fun h => (h.live, h.lapsing, h.free)) = some (false, [0x1000_0000_1000], false) ∧
    ((runI (.holdLapseMark 1 6) l).port 8).fifo.map (fun o => (o.pkt.type, o.pkt.dstPkg, o.pkt.addr)) = [(5, 1, 0x1000_0000_1000)] := by
  decide +kernel

theorem wit_LapsedPagesAreZeroed :
    let s := { expiring (.range 0x2_0000 1 12 1 [0x1000]) 100 with mem := [(0xFFF, 1), (0x1000, 2), (0x1FFF, 3), (0x2000, 4)], usedFrames := [(0x1000, 4096), (0x8000, 4096)] }
    let t := runI (.holdLapseMark 1 6) s
    (t.hold 1 6).map (fun h => h.lapsing.contains 0x1000) = some true ∧ t.reqs = [] ∧ (∀ x ∈ t.threads, x.2.comb = []) ∧ t.fatal = none ∧
    (runI (.lapseAtHome 1 6 0x1000) t).mem = [(0xFFF, 1), (0x2000, 4)] ∧ (runI (.lapseAtHome 1 6 0x1000) t).usedFrames = [(0x8000, 4096)] ∧
    ((runI (.lapseAtHome 1 6 0x1000) t).hold 1 6).map (·.free) = some true := by decide +kernel

/-- A load of a page that the TLBs lack, its page mapped, and one that is not mapped. -/
noncomputable def missing (va : Word) : State := runI (.ld .w32 false false 6 9 0 0) ((tabled.ws 9 va).updCore 0 fun c => { c with tlb := c.tlb.drop 1 })

theorem wit_WalkersTakeThePagesThatWait :
    (((missing 0x2_1000).die 0).walks.filter (·.taken)).length < 32 ∧ nextWalkCtx ((missing 0x2_1000).die 0) = some 1 ∧
    ((runI (.tlbMissWalk 0 1) (missing 0x2_1000)).die 0).walks.map (·.taken) = [true] := by decide +kernel

theorem wit_WalkResultsArrive :
    let s := runI (.tlbMissWalk 0 1) (missing 0x2_1000)
    let b := runI (.tlbMissWalk 0 1) (missing 0x2_2000)
    let id := fun (t : State) => ((t.die 0).walks.map (·.id)).headD 0
    (s.die 0).walks.map (fun w => (w.taken, w.stale, w.waiters, w.engs, w.vpn)) = [(true, false, [0], [], 0x21)] ∧
    (s.thr 0).missPage = some 0x21 ∧ (s.thr 0).wait = some .translation ∧ ((runI (.walkComplete 0 (id s)) s).thr 0).wait = none ∧
    ((runI (.walkComplete 0 (id s)) s).core 0).tlb.any (fun e => e.vpn == 0x21 && e.pa == 0x2000) = true ∧
    ((runI (.walkComplete 0 (id b)) b).thr 0).walkFault = some (0x22, 1) := by decide +kernel

/-! ### Channels, messages, barriers -/

theorem wit_ChannelsMoveOn :
    let s := chanBase.updLaunch 1 fun l => { l with chans := [⟨0, 1, 0, 0, 3, [mkVec 32 fun i => i], 1, [mkVec 32 fun _ => 9], 2⟩] }
    s.fatal = none ∧ ((s.launch 1).chans[0]?).map (fun c => (c.flight.length, c.returns)) = some (1, 2) ∧
    ((runI (.channelMessageArrival 1 0) s).launch 1).chans.map (fun c => c.buf.map fun v => elem v 32 1) = [[1, 9]] ∧
    ((runI (.channelCreditReturn 1 0) s).launch 1).chans.map (fun c => (c.returns, c.credits)) = [(1, 2)] := by decide +kernel

/-- A message of the running thread to its own core, under way, with a capability; the core's context has key 0x1234. -/
def sending (cap : Nat) : State :=
  { ptrs.updCtx 1 fun c => { c with pkey := 0x1234 } with
    net := [⟨0, 1, 1, mkVec 64 fun i => if i = 0 then cap * 2 ^ 48 else i, 0, 0, none, false, none, 0⟩] }

theorem wit_MessagesArePlacedOrDiverted :
    let near := (sending 0x1234).updCore 0 fun c => { c with inbox := List.replicate 61 0, inboxDue := 2 }
    let full := (sending 0).updCore 0 fun c => { c with inbox := List.replicate 63 0, inboxDue := 1 }
    (∀ c ∈ [0, 0x1234, 0x1235], (sending c).net.length = 1 ∧ (sending c).fatal = none ∧ (sending c).pkg = 0 ∧
      ((sending c).core 0).launch = some 1 ∧ ((sending c).launch 1).ctx = 1 ∧ ((sending c).ctx 1).pkey.toNat = 0x1234 ∧
      ((sending c).net.take 0).length = 0 ∧ (sending c).sup.length < 4096 ∧
      (sending c).net.all (fun m => m.pkg == 0 && m.dst == 0 && m.txid == none && m.peer == none && (bodyHeader m.body).toNat / 2 ^ 48 == c) = true) ∧
    ((runI (.messagePlacement 0 0) (sending 0)).core 0).inbox.length = 1 ∧ ((runI (.messagePlacement 0 0) (sending 0)).core 0).recv = 1 ∧
    ((runI (.messagePlacement 0 0) (sending 0x1234)).core 0).inbox.length = 1 ∧ (near.core 0).inbox.length + (near.core 0).inboxDue = 63 ∧
    ((runI (.messagePlacement 0 0) near).core 0).inbox.length = 62 ∧ happensIn (.messagePlacement 0 0) full = false ∧
    (runI (.messagePlacement 0 0) (sending 0x1235)).sup.map (fun e => (e.reason, e.cap, e.rkey)) = [(1, 0x1235, 0x1234)] ∧
    (runI (.messagePlacement 0 0) (sending 0x1235)).reports.map (fun r => (r.1, r.2.1, r.2.2.1)) = [(0, 1, 0)] := by decide +kernel

/-- A launch whose payload has PARAM 9, a handler table of two entries in the context's page and OVFL 0x30000. -/
def handling (inbox : List Vec) (spill : Nat) : State :=
  (tabled.updLaunch 1 fun l => { l with payload := [0, 9, 0, 0, 0, 0x2_0000, 1, 0x3_0000, 0, 0, 0, 0, 0, 0] }).updCore 0 fun c =>
    { c with inbox := inbox, spill := spill }

theorem wit_Slot11Wakes :
    let a := handling (List.replicate 48 0) 0
    let b := handling (List.replicate 16 0) 1
    mayWake a 0 = true ∧ (a.thr (keyOf 0 11)).live = false ∧ (a.thr (keyOf 0 11)).parked = false ∧ pOvfl (a.launch (lidOf a 0)).payload ≠ 0 ∧
    (a.core 0).inbox.length = 48 ∧ a.fatal = none ∧ ((runI (.slot11WakeSpill 0) a).thr 11).regs.rs 4 = 48 ∧
    ((runI (.slot11WakeSpill 0) a).thr 11).regs.rs 1 = 9 ∧ ((runI (.slot11WakeSpill 0) a).thr 11).pc = 0x3_0000 ∧
    mayWake b 0 = true ∧ (b.thr (keyOf 0 11)).live = false ∧ (b.core 0).inbox.length = 16 ∧ (b.core 0).spill = 1 ∧
    ((runI (.slot11WakeReplay 0) b).thr 11).regs.rs 4 = 0x190 := by decide +kernel

/-- A message for handler `h`. -/
def toHandler (h : Nat) : Vec := mkVec 64 fun i => if i = 0 then h * 2 ^ 40 else i

theorem wit_Slot12Wakes :
    let s := fun (h : Nat) => { handling [toHandler h] 0 with mem := writeWord (handling [] 0).mem 0x1008 0x7000 }
    (∀ h ∈ [1, 2], ((s h).core 0).inbox = toHandler h :: [] ∧ mayWake (s h) 0 = true ∧ asleep (s h) 0 11 = true ∧ asleep (s h) 0 12 = true ∧
      wakes11 (s h) 0 = false ∧ (bodyHeader (toHandler h)).toNat / 2 ^ 40 % 256 = h ∧ (s h).fatal = none ∧
      handlerCount ((s h).launch (lidOf (s h) 0)).payload = 2) ∧
    (match walkCheck (s 1) 1 0x2_0000 (0x2_0000 + 8) needR with | .ok pa => pa == 0x1008 | _ => false) = true ∧
    ((runI (.slot12Wake 0) (s 1)).thr 12).pc = 0x7000 ∧ ((runI (.slot12Wake 0) (s 1)).thr 12).regs.rs 4 = 1 ∧
    elem (((runI (.slot12Wake 0) (s 1)).thr 12).regs.rv 0) 64 3 = 3 ∧
    ((runI (.slot12Wake 0) (s 2)).thr 12).live = false ∧ ((runI (.slot12Wake 0) (s 2)).core 0).worst = 8 := by decide +kernel

/-- A launch of tiles 0 and 4095 (in another quad and die), both at the same barrier since cycle 5. -/
def atBarrier (sc : BScope) (cycle : Nat) : State :=
  let w := fun (f : BitVec 8) (t : Thread) => { t with live := true, wait := some (.barrier sc f 5) }
  let s := (ptrs.updThr 0 (w 1)).updThr (keyOf 4095 0) (w 2)
  let s := (s.updLaunch 1 fun l => { l with tiles := [0, 4095] }).updCore 4095 fun c => { c with launch := some 1, index := 1, stagger := 2 }
  { s with cycle := cycle }

theorem wit_BarriersRelease :
    participants (atBarrier .pkg 101) .pkg 0 = [0, keyOf 4095 0] ∧
    (∀ k ∈ [0, keyOf 4095 0], ((atBarrier .pkg 101).core (tileOf k)).halt = false ∧ ((atBarrier .pkg 101).thr k).wait.isSome = true) ∧
    ((atBarrier .pkg 101).core 0).launch.isSome = true ∧ (atBarrier .pkg 101).fatal = none ∧
    ((runI (.barrierRelease .pkg 0) (atBarrier .pkg 101)).thr 0).fpflags = 3 ∧ ((runI (.barrierRelease .pkg 0) (atBarrier .pkg 101)).thr 0).wait = none ∧
    ((runI (.barrierRelease .pkg 0) (atBarrier .pkg 101)).thr (keyOf 4095 0)).wait = some (.stagger (101 + 2 * (pkgCol 4095 + pkgRow 4095))) ∧
    happensIn (.barrierRelease .pkg 0) (atBarrier .pkg 100) = false ∧
    participants (atBarrier .core 6) .core 0 = [0] ∧ happensIn (.barrierRelease .core 0) (atBarrier .core 6) = true ∧
    participants (atBarrier .quad 9) .quad 0 = [0] ∧ happensIn (.barrierRelease .quad 0) (atBarrier .quad 9) = true ∧
    participants (atBarrier .die 53) .die 4095 = [keyOf 4095 0] ∧ happensIn (.barrierRelease .die 4095) (atBarrier .die 53) = true := by
  decide +kernel

/-- The running thread waits at an episode of tick 5 of its group, in which package 1 has arrived or not. -/
def atEpisode (remote : List Nat) : State :=
  { grouped.updMe fun t => { t with wait := some (.podBarrier 7 5 1) } with
    ptb := 5, episodes := [⟨7, 5, [(0, 1)], true, false, remote.map fun m => (m, 2)⟩] }

theorem wit_PodBarriersEnd :
    (∀ r ∈ [[1], []], ((atEpisode r).episode 7 5).isSome = true ∧ (atEpisode r).ptb = 5 ∧ groupByKey (atEpisode r) 7 = some gdesc ∧
      waitersAt (atEpisode r) 7 5 = [0] ∧ myCores (atEpisode r) gdesc = 1 ∧ grpList gdesc = [0, 1] ∧ (atEpisode r).fatal = none ∧
      ((atEpisode r).core 0).halt = false ∧ impreciseDue (atEpisode r) 0 = false) ∧
    ((runI (.podBarrierTick 7 5) (atEpisode [1])).thr 0).pc = (atEpisode [1]).me.pc + 4 ∧
    ((runI (.podBarrierTick 7 5) (atEpisode [1])).thr 0).fpflags = 3 ∧ (runI (.podBarrierTick 7 5) (atEpisode [1])).episodes = [] ∧
    happensIn (.podBarrierTick 7 5) (atEpisode []) = true ∧ (runI (.podBarrierTick 7 5) (atEpisode [])).episodes = [] ∧
    ((runI (.podBarrierTick 7 5) (atEpisode [])).core 0).faulted = true := by decide +kernel

/-- 2,048 slots before the tick: all cores there, one missing, one halted; and the tick on a core that is being saved. -/
theorem wit_PodBarriersEnd_decided :
    let s := fun (tiles : List (Nat × BitVec 8)) => { atEpisode [1] with episodes := [⟨7, 5, tiles, false, false, [(1, 2)]⟩] }
    let halt := runI (.debugHalt 0) (s [(0, 1)])
    let late := fun (t : State) => (runI (.podBarrierTick 7 5) t).episodes.map fun e => (e.closed, e.late)
    let saving := (atEpisode []).updCore 0 fun c => { c with stopping := true }
    (∀ t ∈ [s [(0, 1)], s [], halt], (5 : Nat) < t.ptb + 2048 ∧ groupByKey t 7 = some gdesc ∧ t.fatal = none) ∧ slotHalted halt (keyOf 0 0) = true ∧
    late (s [(0, 1)]) = [(true, false)] ∧ late (s []) = [(true, true)] ∧ late halt = [(true, true)] ∧
    arrivalAway (atEpisode [1]) ⟨7, 5, [(0, 1)], true, false, [(1, 2)]⟩ (fun _ => true) (fun _ => true) = false ∧
    arrivalStalled (atEpisode [1]) ⟨7, 5, [(0, 1)], true, false, [(1, 2)]⟩ = false ∧ Machine.stopped saving 0 = true ∧ impreciseDue saving 0 = false ∧
    ((runI (.podBarrierTick 7 5) saving).thr 0).got = some (.fault ⟨.barlate, 0, 5, none, false⟩) := by decide +kernel

/-- A launch of tiles 0 and 1, both at `probe`; the token at its first or second core. -/
def probing (at' : Nat) (sum : Int) (black : Bool) : State :=
  let w := fun (t : Thread) => { t with live := true, wait := some .probe }
  let s := (ptrs.updThr 0 w).updThr (keyOf 1 0) w
  let s := (s.updCore 1 fun c => { c with launch := some 1, sent := 3, recv := 1, index := 1 }).updCore 0 fun c => { c with sent := 2 }
  s.updLaunch 1 fun l => { l with tiles := [0, 1], probeAt := at', probeSum := sum, probeBlack := black }

theorem wit_ProbesPassTheToken :
    (∀ x ∈ [(0, 0, false), (1, -2, false), (1, -2, true), (1, -1, false)], let s := probing x.1 x.2.1 x.2.2
      (s.launch 1).tiles[(s.launch 1).probeAt]? = some x.1 ∧ (s.launch 1).state = .running ∧ (s.core x.1).launch = some 1 ∧ passive s x.1 = true ∧
      (s.launch 1).tiles.Nodup ∧ (s.core x.1).black = false ∧ s.fatal = none) ∧
    ((runI (.probeToken 1) (probing 0 0 false)).launch 1).probeSum = 2 ∧ ((runI (.probeToken 1) (probing 0 0 false)).launch 1).probeAt = 1 ∧
    ((runI (.probeToken 1) (probing 1 (-2) false)).thr 0).wait = none ∧ ((runI (.probeToken 1) (probing 1 (-2) false)).core 0).sent = 0 ∧
    ((runI (.probeToken 1) (probing 1 (-2) true)).launch 1).probeAt = 0 ∧ ((runI (.probeToken 1) (probing 1 (-2) true)).thr 0).wait = some .probe ∧
    ((runI (.probeToken 1) (probing 1 (-1) false)).thr 0).wait = some .probe ∧ happensIn (.probeToken 1) (probing 1 (-1) false) = true := by
  decide +kernel

/-! ### Engines -/

/-- A command of the words given, the rest 0. -/
def cmdOf (l : List Nat) : Vec := mkVec 64 fun i => l.getD i 0

/-- Pointers to the context's page with FMT 0, 1, 10 and 18. -/
def p0 : Nat := 0x2_0000
def p1 : Nat := 0x0800_0000_0002_0000
def p10 : Nat := 0x5000_0000_0002_0000
def p18 : Nat := 0x9000_0000_0002_0000

/-- Core 0 with a command of slot 0 that runs on engine `e`, sequence 1. -/
def running (s : State) (e : Eng) (l : List Nat) (n next : Nat) (items : List Item) : State :=
  s.updCore 0 fun c => c.setEng e ⟨[], some ⟨⟨1, 0, 0, cmdOf l⟩, n, next, items, 0, none, 1, 0, 0, 0, 0, none⟩⟩

/-- A settled read of item `i` of engine `e`, request 7, with the bytes it has brought. -/
def withRead (s : State) (e : Eng) (i : Nat) (buf : List Byte) : State :=
  { s with reqs := [{ engReq s 0 e i .load [⟨0x2_0000, [(0x1000, 0)], .done⟩] buf 0x2_0000 none with id := 7 }] }

/-- The running command meets a condition. -/
def runIs (s : State) (e : Eng) (f : Run → Bool) : Bool := match runOf s 0 e with | some r => f r | none => false

/-- An engine's kind and item, and its request, as the clauses of its items ask for them. -/
def readBy (s : State) (k : CmdKind) (i : Nat) : Bool :=
  runIs s (kindEng k) fun r => decide (kindOf r.cmd.word = some k ∧ r.item i = some ⟨i, .reading 7, [], false⟩ ∧ s.fatal = none) &&
    (match s.req 7 with | some q => q.settled && q.fault == none | none => false)

/-- Where an item stands after a step. -/
def stageOf (s : State) (e : Eng) (i : Nat) : Option ItemStage := ((runOf s 0 e).bind fun r => r.item i).map (·.stage)

/-- Core 0 with two commands queued at an engine. -/
def queued (e : Eng) (l : List Nat) : State := ptrs.updCore 0 fun c => c.setEng e ⟨[⟨1, 0, 0, cmdOf l⟩, ⟨2, 0, 0, cmdOf [1]⟩], none⟩

theorem wit_CommandsStartOrAreRefused :
    let a := queued .mx [0x01]
    let b := queued .mx [0x101]
    let c := queued .cp [0x11, p0, p0, 0, 0x1_0000_0000]
    (∀ x ∈ [a, b, c], (x.core 0).launch.isSome = true ∧ (x.core 0).stopping = false ∧ x.fatal = none) ∧
    kindOf (cmdOf [0x01]) = some .zero ∧ (match startCheck a 0 .mx (cmdOf [0x01]) with | .ok .zero => true | _ => false) = true ∧
    runIs (runI (.mxZero 0 .start) a) .mx (fun r => r.next == 0 && r.nitems == 1) = true ∧
    (match startCheck b 0 .mx (cmdOf [0x101]) with | .error x => x == (.engine, 2, 0x101) | _ => false) = true ∧
    (ringAt ((runI (.mxZero 0 .start) b).core 0) 1).state = 3 ∧ (ringAt ((runI (.mxZero 0 .start) b).core 0) 1).detail = 2 ∧
    ((runI (.mxZero 0 .start) b).core 0).mx.queue = [] ∧ ((runI (.mxZero 0 .start) b).core 0).engFail = true ∧
    (match startCheck c 0 .cp (cmdOf [0x11, p0, p0, 0, 0x1_0000_0000]) with | .error x => x == (.engine, 3, 0x11) | _ => false) = true ∧
    ((runI (.cpCopy 0 .start) c).core 0).cp.queue.length = 1 := by decide +kernel

theorem wit_ZeroClearsItsTile :
    let s := (running ptrs .mx [0x1C0_0001] 1 0 []).updCore 0 fun c => { c with acc := [(0, 5), (7 * 1024, 6), (8 * 1024 - 1, 7)] }
    runIs s .mx (fun r => decide (kindOf r.cmd.word = some .zero ∧ r.next < r.nitems ∧ r.fault = none ∧ cAcc r.cmd.word = 7)) = true ∧
    (s.core 0).stopping = false ∧ s.fatal = none ∧ ((runI (.mxZero 0 .startItem) s).core 0).acc = [(0, 5)] ∧
    stageOf (runI (.mxZero 0 .startItem) s) .mx 0 = some .performed := by decide +kernel

theorem wit_RowsAreFormed :
    let f := running ptrs .cp [0x12, 0, p0, 0, 0x1_0000_0003, 0, 0x5A5] 1 0 []
    let v := (running ptrs .mx [0x06, 0, p0, 0, 0, 0x0200_0000] 16 0 []).updCore 0 fun c => { c with acc := [(1024 + 63, 0x0102_0304)] }
    let d := (running ptrs .mx [0x05, 0, p10] 1 0 []).updCore 0 fun c => { c with acc := [(0, 0x3F80_0000)] }
    runIs f .cp (fun r => decide (kindOf r.cmd.word = some .fill ∧ r.next < r.nitems ∧ r.fault = none)) = true ∧
    runIs v .mx (fun r => decide (kindOf r.cmd.word = some .save ∧ r.next < r.nitems ∧ r.fault = none)) = true ∧
    runIs d .mx (fun r => decide (kindOf r.cmd.word = some .drain ∧ r.next < r.nitems ∧ r.fault = none ∧ cReq r.cmd.word = false)) = true ∧
    (∀ x ∈ [f, v, d], (x.core 0).stopping = false ∧ (x.core 0).accBad = [] ∧ x.fatal = none) ∧
    runIs (runI (.cpFill 0 .startItem) f) .cp (fun r => r.items == [⟨0, .ready, [0xA5, 0xA5, 0xA5], false⟩]) = true ∧
    runIs (runI (.mxSave 0 .startItem) v) .mx (fun r => r.items.map (fun x => x.data.drop 252) == [[4, 3, 2, 1]]) = true ∧
    runIs (runI (.mxDrain 0 .startItem) d) .mx (fun r => r.items.map (fun x => x.data.take 4) == [[0, 0, 0x80, 0x3F]]) = true := by
  decide +kernel

/-- Whether spans translate; the fault they meet. -/
def spansOk (s : State) (n : Need) (l : List Span) : Bool := match spansMoves s 0 none n 0 l with | .ok _ => true | _ => false
def spansFault (s : State) (n : Need) (l : List Span) (f : FaultRec) : Bool :=
  match spansMoves s 0 none n 0 l with | .error (.fault x) => x == f | _ => false

/-- Commands that read, by kind, each with its first item to start. -/
def readers : List (CmdKind × List Nat) :=
  [(.ldacc, [0x02, p0]), (.loadw, [0x2000_0003, p1]), (.mma, [0x2000_0004, p1]), (.drain, [0x10_0000_0005, 0, p1, 0, 0, 0, p0, 0]),
    (.restore, [0x07, p0, 0, 0, 0, 0x0100_0000]), (.copy, [0x11, p0, p0, 0, 0x1_0000_0020]), (.route, [0x13, p0, p0, 0, 0x20, 6])]

theorem wit_RowsAreRead :
    (∀ x ∈ readers, let s := running ptrs (kindEng x.1) x.2 1 0 []
      runIs s (kindEng x.1) (fun r => decide (kindOf r.cmd.word = some x.1 ∧ r.next < r.nitems ∧ r.fault = none) && (x.1 != .copy || copyMayRead r 0) &&
        r.walkFault.isNone && spansOk s needR (readSpans x.1 r.cmd.word r.group 0) && (readyData (s.core 0) x.1 r.cmd.word 0).isNone) = true ∧
      (s.core 0).stopping = false ∧ s.fatal = none ∧ stageOf (runI (cmdStep x.1 0 .startItem) s) (kindEng x.1) 0 = some (.reading s.nextId)) ∧
    (let s := running ptrs .cp [0x11, 0xFFFF_FFFF_FFE1, p0, 0, 0x1_0000_0020] 1 0 []
    spansFault s needR (readSpans .copy (cmdOf [0x11, 0xFFFF_FFFF_FFE1, p0, 0, 0x1_0000_0020]) 1 0) ⟨.tag, 0, 0xFFFF_FFFF_FFE1, none, false⟩ = true ∧
    stageOf (runI (.cpCopy 0 .startItem) s) .cp 0 = some .failed) := by decide +kernel

theorem wit_RowsAreLoaded :
    let a := withRead (running ptrs .mx [0x0040_0002, p0] 1 1 [⟨0, .reading 7, [], false⟩]) .mx 0 (leBytes 252 0 ++ [4, 3, 2, 1])
    let b := withRead (running ptrs .mx [0x07, p0, 0, 0, 0, 0x8100_0000] 32 32 [⟨31, .reading 7, [], false⟩]) .mx 31 (9 :: leBytes 255 0)
    readBy a .ldacc 0 = true ∧ ((runI (.mxLdacc 0 (.item 0)) a).core 0).acc = [(1024 + 63, 0x0102_0304)] ∧
    readBy b .restore 31 = true ∧ ((runI (.mxRestore 0 (.item 31)) b).core 0).acc = [(7 * 1024 + 15 * 64, 9)] := by decide +kernel

theorem wit_PlanesAreLoaded :
    let a := withRead (running ptrs .mx [0x4000_0003, p1] 2 2 [⟨1, .reading 7, [], false⟩]) .mx 1 (leBytes 63 0 ++ [0xFE])
    let b := withRead (running ptrs .mx [0x2_0000_0003, p18] 64 64 [⟨63, .reading 7, [], false⟩]) .mx 63 ([0x80, 0x3F] ++ leBytes 15 0 ++ [7])
    readBy a .loadw 1 = true ∧ isBlk 1 = false ∧ tget ((runI (.mxLoadw 0 (.item 1)) a).core 0).mulPlane.cells (64 + 63) 0 = 0xFE ∧
    readBy b .loadw 63 = true ∧ isBlk 18 = true ∧ cK (cmdOf [0x2_0000_0003]) = 16 ∧
    tget ((runI (.mxLoadw 0 (.item 63)) b).core 0).mulPlane.cells (15 * 64 + 63) 0 = 7 ∧
    tget ((runI (.mxLoadw 0 (.item 63)) b).core 0).mulPlane.scales (63 * 4) 0 = 0x3F80 := by decide +kernel

/-- INT8 times INT8 with K 1 and M 1: 2 times 3, added to 4. -/
theorem wit_GroupsAreAdded :
    let w := [0x2018_0004, p1]
    let s := (withRead (running ptrs .mx w 1 1 [⟨0, .reading 7, [], false⟩]) .mx 0 [2]).updCore 0 fun c =>
      { c with mulPlane := ⟨true, 1, 0, 1, [(0, 3)], []⟩, acc := [(0, 4)] }
    readBy s .mma 0 = true ∧ runIs s .mx (fun r => r.failedBefore 0 == false && r.prefixDone == 0) = true ∧
    accPoison (s.core 0) (cAcc (cmdOf w)) (cM (cmdOf w)) = false ∧ ((runI (.mxMma 0 (.item 0)) s).core 0).acc = [(0, 10)] ∧
    ((runI (.mxMma 0 (.item 0)) s).core 0).mxprog.groups = 1 := by decide +kernel

theorem wit_ReadRowsAreMadeReady :
    let d := withRead (running ptrs .mx [0x10_0000_0005, 0, p1, 0, 0, 0, p0, 0] 1 1 [⟨0, .reading 7, [], false⟩]) .mx 0 (leBytes 4 0xFFFF_FFFE)
    let c := withRead (running ptrs .cp [0x11, p0, p0, 0, 0x1_0000_0003] 1 1 [⟨0, .reading 7, [], false⟩]) .cp 0 [1, 2, 3]
    let r := withRead (running ptrs .cp [0x13, p0, p0, 0, 0x20, 6] 1 1 [⟨0, .reading 7, [], false⟩]) .cp 0 (leBytes 32 5)
    readBy d .drain 0 = true ∧ (d.core 0).accBad = [] ∧
    runIs (runI (.mxDrain 0 (.item 0)) d) .mx (fun r => r.items.map (fun x => (x.stage, x.data.take 1)) == [(.ready, [0xFE])]) = true ∧
    readBy c .copy 0 = true ∧ runIs (runI (.cpCopy 0 (.item 0)) c) .cp (fun r => r.items == [⟨0, .ready, [1, 2, 3], false⟩]) = true ∧
    readBy r .route 0 = true ∧ stageOf (runI (.cpRoute 0 (.item 0)) r) .cp 0 = some .ready := by decide +kernel

/-- Commands that write, by kind; the last item of a relay command is its status. -/
def writers : List (CmdKind × List Nat × Nat) :=
  [(.drain, [0x05, 0, p10], 0), (.save, [0x06, 0, p0, 0, 0, 0x0200_0000], 15), (.copy, [0x11, p0, p0, 0, 0x1_0000_0020], 0),
    (.fill, [0xFF12, 0, p0, 0, 0x1_0000_0003], 0), (.reduce, [0x21, p10, p10, 0, 16, 5, p0], 1), (.bcast, [0x22, p0, p0, 0, 64, 5, p0], 0)]

theorem wit_ReadyRowsAreStored :
    ∀ x ∈ writers, let e := kindEng x.1
      let s := running ptrs e x.2.1 16 16 [⟨x.2.2, .ready, [1], false⟩]
      runIs s e (fun r => decide (kindOf r.cmd.word = some x.1 ∧ r.item x.2.2 = some ⟨x.2.2, .ready, [1], false⟩) && (x.1 != .copy || copyMayWrite r 0) &&
        r.walkFault.isNone && spansOk s needW (writeSpan x.1 r.cmd.word x.2.2)) = true ∧ s.fatal = none ∧
      stageOf (runI (cmdStep x.1 0 (.item x.2.2)) s) e x.2.2 = some (.writing s.nextId) ∧
      (runI (cmdStep x.1 0 (.item x.2.2)) s).reqs.map (·.stamp) = [if x.1 = .fill then some 127 else none] := by decide +kernel

theorem wit_StoredRowsEnd :
    let s := fun (f : Option FaultRec) => { running ptrs .cp [0x12, 0, p0, 0, 0x1_0000_0003] 1 1 [⟨0, .writing 7, [1], false⟩] with
      reqs := [{ engReq ptrs 0 .cp 0 .store [⟨0x2_0000, [(0x1000, 0)], if f.isSome then .failed else .done⟩] [1] 0x2_0000 none with id := 7, fault := f }] }
    let g : FaultRec := ⟨.stall, 3, 0x2_0000, none, false⟩
    (∀ f ∈ [none, some g], runIs (s f) .cp (fun r => decide (kindOf r.cmd.word = some .fill ∧ r.item 0 = some ⟨0, .writing 7, [1], false⟩ ∧
      ∀ x ∈ r.items, x.stage ≠ .failed)) = true ∧ ((s f).req 7).map (fun q => (q.settled, q.fault)) = some (true, f) ∧ (s f).fatal = none) ∧
    stageOf (runI (.cpFill 0 (.item 0)) (s none)) .cp 0 = some .performed ∧
    runIs (runI (.cpFill 0 (.item 0)) (s (some g))) .cp (fun r => r.fault == some g) = true := by decide +kernel

/-- A copy's row whose read had failed after a part of it, and a row whose read fails. -/
theorem wit_StoredRowsEnd_failures :
    let g : FaultRec := ⟨.stall, 3, 0x2_0000, none, false⟩
    let req := fun (f : Option FaultRec) => { engReq ptrs 0 .cp 0 .store [⟨0x2_0000, [(0x1000, 0)], if f.isSome then .failed else .done⟩] [1] 0x2_0000 none with
      id := 7, fault := f }
    let s := { running ptrs .cp [0x11, p0, p0, 0, 0x1_0000_0003] 1 1 [⟨0, .writing 7, [1], true⟩] with reqs := [req none] }
    let d := { running ptrs .mx [0x02, p10, 0, 0] 1 1 [⟨0, .reading 7, [], false⟩] with reqs := [req (some g)] }
    runIs s .cp (fun r => decide (kindOf r.cmd.word = some .copy ∧ r.item 0 = some ⟨0, .writing 7, [1], true⟩)) = true ∧
    stageOf (runI (.cpCopy 0 (.item 0)) s) .cp 0 = some .failed ∧
    runIs d .mx (fun r => decide (kindOf r.cmd.word = some .ldacc ∧ r.item 0 = some ⟨0, .reading 7, [], false⟩)) = true ∧
    stageOf (runI (.mxLdacc 0 (.item 0)) d) .mx 0 = some .failed ∧ runIs (runI (.mxLdacc 0 (.item 0)) d) .mx (fun r => r.fault == some g) = true := by
  decide +kernel

theorem wit_RoutePacketsLeave :
    let s := (running (expiring (.route 0 5 1 [1, 0]) 0) .cp [0x13, p0, p0, 0, 0x20, 6, 99] 1 1 [⟨0, .ready, leBytes 32 5, false⟩]).updCtx 1 fun c =>
      { c with pkey := 0x1234 }
    runIs s .cp (fun r => decide (kindOf r.cmd.word = some .route ∧ r.item 0 = some ⟨0, .ready, leBytes 32 5, false⟩) &&
      spansOk s needW (writeSpan .route r.cmd.word 0)) = true ∧ routeOf s (ctxOf s 0) 6 = some (true, [1, 0]) ∧ s.fatal = none ∧
    stageOf (runI (.cpRoute 0 (.item 0)) s) .cp 0 = some (.sent s.txid (rtPort [1, 0])) ∧
    ((runI (.cpRoute 0 (.item 0)) s).port (rtPort [1, 0])).fifo.map (fun o => (o.pkt.cap, o.after)) = [(0x1234, 99)] := by decide +kernel

theorem wit_RelayCommandsPresent :
    let r := withRead (running grouped .rl [0x21, p10, p10, 0, 16, 5, p0] 2 1 [⟨0, .reading 7, [], false⟩]) .rl 0 (leBytes 60 0 ++ [0, 0, 0x80, 0x3F])
    let b := running grouped .rl [0x22, p0, p0, 0, 64, 0x1_0005, p0] 2 0 []
    liveGroup r (ctxOf r 0) 5 = some gdesc ∧ readBy r .reduce 0 = true ∧ r.frame = 0 ∧
    stageOf (runI (.rlReduce 0 (.item 0)) r) .rl 0 = some (.waitingRound 1) ∧
    (runI (.rlReduce 0 (.item 0)) r).presents.map (fun p => (p.key, p.frame, p.kind, p.elems.drop 15)) = [(7, 1, 1, [0x3F80_0000])] ∧
    liveGroup b (ctxOf b 0) 5 = some gdesc ∧
    runIs b .rl (fun x => decide (kindOf x.cmd.word = some .bcast ∧ x.next < x.nitems ∧ x.fault = none ∧ x.next < relayRounds .bcast x.cmd.word ∧
      b.frame < x.frame + 1 + x.next)) = true ∧ b.fatal = none ∧
    (runI (.rlBcast 0 .startItem) b).presents.map (fun p => (p.key, p.frame, p.kind, p.root)) = [(7, 1, 2, 1)] := by decide +kernel

theorem wit_CommandsComplete :
    let f : FaultRec := ⟨.stall, 3, 0x2_0000, none, false⟩
    let put := fun (s : State) (e : Eng) (g : Run → Run) => updRun s 0 e g
    let a := put (running ptrs .cp [0x12, 0, p0, 0, 0x1_0000_0003] 1 1 [⟨0, .performed, [], false⟩]) .cp fun r => { r with flags := fNX }
    let b := put (running ptrs .mx [0x02, p0] 2 2 [⟨0, .performed, [], false⟩, ⟨1, .failed, [], false⟩]) .mx fun r => { r with fault := some f }
    runIs a .cp (fun r => runEnded r && r.fault.isNone) = true ∧ a.fatal = none ∧ (a.thr (keyOf 0 0)).live = true ∧ (a.thr (keyOf 0 0)).born = 0 ∧
    (ringAt ((runI (.engineCommandComplete 0 .cp) a).core 0) 1).state = 2 ∧ (ringAt ((runI (.engineCommandComplete 0 .cp) a).core 0) 1).doneN = 1 ∧
    (runI (.engineCommandComplete 0 .cp) a).me.fpflags = fNX ∧
    runIs b .mx (fun r => runEnded r && r.fault == some f) = true ∧ (b.core 0).mx.queue = [] ∧ b.fatal = none ∧
    (ringAt ((runI (.engineCommandComplete 0 .mx) b).core 0) 1).state = 3 ∧ (ringAt ((runI (.engineCommandComplete 0 .mx) b).core 0) 1).doneN = 1 ∧
    (ringAt ((runI (.engineCommandComplete 0 .mx) b).core 0) 1).addr = 0x2_0000 := by decide +kernel

/-- Rows of a drain, a save, a copy and a fill that have been stored. -/
theorem wit_EngineStepsTakePlace :
    ∀ x ∈ writers.take 4, let e := kindEng x.1
      let s := { running ptrs e x.2.1 16 16 [⟨x.2.2, .writing 7, [1], false⟩] with
        reqs := [{ engReq ptrs 0 e x.2.2 .store [⟨0x2_0000, [(0x1000, 0)], .done⟩] [1] 0x2_0000 none with id := 7 }] }
      runIs s e (fun r => decide (kindOf r.cmd.word = some x.1 ∧ r.fault = none ∧ r.item x.2.2 = some ⟨x.2.2, .writing 7, [1], false⟩)) = true ∧
      (s.req 7).map (fun q => (q.settled, q.fault)) = some (true, none) ∧ s.fatal = none ∧
      stageOf (runI (cmdStep x.1 0 (.item x.2.2)) s) e x.2.2 = some .performed := by decide +kernel

/-! ### Relay rounds and gateways -/

/-- A port of `s` changed, and the clock at a tick. -/
def atPort (s : State) (port : Nat) (f : Port → Port) (ptb : Nat) : State := { s.updPort port f with ptb := ptb }

/-- The same, the port trained and the time base set. -/
def upPort (s : State) (port : Nat) (f : Port → Port) (ptb : Nat) : State :=
  { atPort s port (fun p => { f p with trained := true }) ptb with tbSet := true }

/-- A `vldr` of the running thread presented to the round of frame 1, package 1's contribution received or not. -/
noncomputable def rounding (remote : List Contribution) : State :=
  let s := runI (.vldr 2 1 11 5) grouped
  { s with ptb := 2052, rounds := [⟨7, 1, gdesc, true, remote⟩], presents := [⟨7, 1, 0, 0, 0, some 0, 9, [0x3F80], [], some 2, gdesc⟩] }

/-- What the clauses of a round ask of the `vldr` that waits for it. -/
noncomputable def ldrWaits (s : State) : Bool :=
  ((s.req 2).bind (·.undo)).map (fun u => (u.pops.length, u.pushes.length)) == some (0, 0) &&
    (s.req 2).map (fun q => (q.lid, q.seq)) == some (lidOf s 0, 0) &&
    (match s.req 2 with | some q => (match q.fin with | .ldr _ _ _ _ _ => true | _ => false) | none => false) &&
    (s.thr 0).live && (s.thr 0).born == 0 &&
    (s.thr 0).role == .alone && !sfuPending s 0

theorem wit_RoundsAreSummedAtTheHome :
    let c : Contribution := ⟨8, 1, 0, 9, [0x4000], 0, false⟩
    (∀ x ∈ [[], [c]], let s := rounding x
      s.rounds.find? (fun y => y.key == 7 && y.frame == 1) = some ⟨7, 1, gdesc, true, x⟩ ∧ grpHome gdesc = s.pkg ∧
      1 * 2048 + lastInSlot s 7 + 4 = s.ptb ∧ (∀ c ∈ s.cores, c.2.rl.run = none) ∧ s.fatal = none ∧ ldrWaits s = true ∧
      received s ⟨7, 1, gdesc, true, x⟩ = x) ∧
    ((runI (.relayRoundSum 7 1 [c]) (rounding [c])).thr 0).wait = none ∧
    elem (((runI (.relayRoundSum 7 1 [c]) (rounding [c])).thr 0).regs.rv 1) 32 0 = 0x4040_0000 ∧
    ((runI (.relayRoundSum 7 1 []) (rounding [])).thr 0).regs.rk 2 = false ∧ (runI (.relayRoundSum 7 1 []) (rounding [])).presents = [] ∧
    happensIn (.relayRoundSum 7 1 []) { rounding [] with ptb := 2051 } = false := by decide +kernel

/-- The group's hold has lapsed since the `vldr` was presented: both members are absent. -/
noncomputable def unheld : State :=
  { (rounding []).setHold 1 5 ⟨0, true, false, .group gdesc false, 0, 0, [], false⟩ with
    ptb := 2048, rounds := [⟨7, 1, gdesc, false, []⟩] }

theorem wit_RoundsOfNoHoldEnd :
    let t := runI (.relayRoundSum 7 1 []) unheld
    unheld.rounds.find? (fun y => y.key == 7 && y.frame == 1) = some ⟨7, 1, gdesc, false, []⟩ ∧ groupHold unheld 7 = none ∧
    (roundOutcome gdesc []).absent = 3 ∧ (roundOutcome gdesc []).code = 1 ∧ 1 * 2048 ≤ unheld.ptb ∧ unheld.fatal = none ∧
    ldrWaits unheld = true ∧ t.rounds = [] ∧ t.presents = [] ∧ (t.thr 0).regs.rk 2 = false ∧ (t.thr 0).wait = none ∧
    happensIn (.relayRoundSum 7 1 []) { unheld with ptb := 2047 } = false := by decide +kernel

/-- A beat of a payload: the bytes given, then zeros. -/
def beat (l : List Byte) : List Byte := (l ++ List.replicate 32 0).take 32

/-- A packet of package 1 for this one. -/
noncomputable def pk (type len addr : Nat) (payload : List Byte) : Packet := sealed ⟨type, len, 0, 0, 1, 7, 3, addr, payload, 0, none, [], none⟩

/-- Package 1 lies beyond port 8, package 2 beyond port 9, both trained; slots 50 and 32 of port 8 are pool slots; context 1
has key 0x1234 and was given 0x1000 to 0x1FFF. -/
def linked : State :=
  { upPort (upPort (ptrs.updCtx 1 (fun c => { c with pkey := 0x1234, image := [(0x1000, 4096)] })) 9 id 50) 8
      (fun p => { p with inTab := [(50, .pool 0), (32, .transit)] }) 50 with routing := [(1, 8), (2, 9)] }

/-- An SB-INT8 block of sixteen equal values. -/
noncomputable def blk (x : Nat) : Vec := (runI (.bquant .i8 1 2) (withV 32 [(2, [x]), (3, [x])] ptrs)).rv 1

/-- Core 32 of port 8 has received two blocks in slot 5, core 33 one in slot 6, to go on by port `f`. -/
noncomputable def gated (f : Nat) : State :=
  let p := fun (x : Byte) => pk 9 2 0x1000 (List.replicate 64 x)
  { linked with gate := [⟨32, 2053, 1, 6, f, p 1⟩, ⟨33, 2054, 1, 6, f, p 0⟩, ⟨32, 2053, 1, 6, f, p 2⟩], ptb := 2075 }

/-- What the core holds of slot 2053 goes on by port 11, or to its home here, in whatever format the core's program has. -/
theorem wit_GatewaysAddBlocks :
    let p := pk 9 2 0x1000 (List.replicate 64 3)
    (∀ f ∈ [11, 15], ((gated f).gate.find? fun x => x.core / 4 == 8 && gateDue (gated f) x).map (fun g => (g.core, g.slot, g.ctx, g.handle, g.fwd)) =
        some (32, 2053, 1, 6, f) ∧
      (((gated f).gate.filter fun x => x.core == 32 && x.slot == 2053 && x.ctx == 1 && x.handle == 6).map
        fun x => payloadBlocks x.pkt.payload).flatten = [vecOf (List.replicate 64 1), vecOf (List.replicate 64 2)] ∧ (gated f).fatal = none) ∧
    inCarveOut (gated 15) p = false ∧ pagesTouched p = [0x1000] ∧ pageOwner (gated 15) 0x1000 = some 1 := by
  decide +kernel

/-- The sum of SB-INT8 blocks of ones and of twos is a block of threes. -/
theorem test_gateway_block :
    let r := gatewayBlock .i8 [blk 0x3F80_0000, blk 0x4000_0000]
    r.1 = blk 0x4040_0000 ∧ r.2 = 0 := by decide +kernel

/-- The group's package with a port toward package 1, its in-slot the group's with a FWD, and a round of frame 1. -/
def slotted (slot f : Nat) (desc : List Word) : State :=
  { upPort grouped 8 (fun p => { p with inTab := [(slot, .route 1 5 f)] }) 2053 with
    frame := 1, routing := [(1, 8)], rounds := [⟨7, 1, desc, true, []⟩] }

theorem wit_ContributionsArrive :
    let p := pk 0x0A 1 0x1_0900 (leBytes 2 0x4000 ++ leBytes 30 0)
    let remotes := fun (s : State) => s.rounds.map fun r => r.remote.map fun c => (c.member, c.fmt, c.elems.take 1, c.lost)
    (∀ s ∈ [slotted 5 15 gdesc, slotted 6 15 gdesc, slotted 5 9 gdesc], carries s 8 = true ∧ s.fatal = none) ∧
    badPacket p = false ∧ wholePacket p = true ∧
    inGroupSlot (slotted 5 15 gdesc) 8 7 = true ∧ inGroupSlot (slotted 6 15 gdesc) 8 7 = false ∧ grpIndex gdesc 1 = some 1 ∧
    remotes (runI (.relayContribution 8 p) (slotted 5 15 gdesc)) = [[(1, 9, [0x4000], false)]] ∧
    leaves (.relayContribution 8 p) (slotted 6 15 gdesc) (slotted 6 15 gdesc) = true ∧ inOwner (slotted 5 9 gdesc) 8 2053 = .route 1 5 9 ∧
    ((runI (.relayContribution 8 (sealed { p with dstPkg := 2 })) (slotted 5 9 gdesc)).port 9).fifo.map (fun o => (o.owner, o.after, o.left)) =
      [(.route 1 5 15, 2055, 2)] ∧
    happensIn (.relayContribution 8 (sealed { p with len := 4, payload := List.replicate 128 0 })) (slotted 5 15 gdesc) = true := by decide +kernel

/-- A CRC that fails, and a TYPE that is not assigned. -/
theorem wit_ContributionsArrive_discarded :
    let p := pk 0x0A 1 0x1_0900 (leBytes 32 0)
    ∀ q ∈ [{ p with crc := p.crc + 1 }, sealed { p with type := 7 }, sealed { p with len := 129 }], badPacket q = true ∧
      ((runI (.relayContribution 8 q) (slotted 5 15 gdesc)).port 8).crcErr = 1 ∧
      ((runI (.relayContribution 8 q) (slotted 5 15 gdesc)).rounds.map fun r => r.remote.map (·.lost)) = [[true]] := by decide +kernel

theorem wit_BroadcastsArrive :
    let s := slotted 5 15 [0x0201_0007, 0x0100, 0, 0x0001_0001, 0, 0, 0, 0]
    let p := pk 0x0B 1 0x1_0000_0000 (leBytes 32 0)
    p.dstPkg = s.pkg ∧ badPacket p = false ∧ wholePacket p = true ∧ carries s 8 = true ∧
    (s.rounds.find? fun x => x.key == 7 && x.frame % 2 ^ 20 == p.addr / 2 ^ 32).map (fun r => grpHome r.desc) = some 1 ∧
    inGroupSlot s 8 7 = true ∧ s.fatal = none ∧ happensIn (.relayBroadcast ⟨8, p⟩) s = true ∧ (runI (.relayBroadcast ⟨8, p⟩) s).rounds = [] ∧
    ((runI (.relayBroadcast ⟨8, sealed { p with dstPkg := 2 }⟩) (slotted 5 9 gdesc)).port 9).fifo.map (fun o => (o.owner, o.after, o.left)) =
      [(.route 1 5 15, 2055, 2)] := by
  decide +kernel

/-! ### Ports -/

theorem wit_FramesBegin :
    let tab : List (Nat × SlotOwner) := [(0, .pool 0)]
    let s := fun (d : Nat) => { atPort ptrs 8 (fun p => { p with shadow := [(d, 1, tab)] }) 2048 with tbSet := true, ctxs := [] }
    (∀ d ∈ [0, 1], (s d).tbSet = true ∧ (s d).frame < (s d).ptb / 2048 ∧ ((s d).port 8).shadow = [(d, 1, tab)] ∧ (s d).fatal = none) ∧
    (runI .frameBoundary (s 0)).frame = 1 ∧ ((runI .frameBoundary (s 0)).port 8).outTab = tab ∧ ((runI .frameBoundary (s 1)).port 8).inTab = tab ∧
    happensIn .frameBoundary { s 0 with ptb := 2047 } = false := by decide +kernel

/-- Slots 0 to 319: 64 of each die's pool, and 64 of transit. -/
def fullTable : List (Nat × SlotOwner) := (List.range 320).map fun i => (i, if i < 256 then .pool (i / 64) else .transit)

/-- A drawer port with D 1,200: its out-slots given, or its in-slots. -/
theorem wit_SlotTablesAreArmed_drawer :
    let d := ptrs.updPort 0 fun p => { p with delay := 1200 }
    let drawn := fun (dir : Dir) => (((runI (.slotTableArm 0 dir fullTable 1) d).port 0).shadow.map fun x =>
      (x.1, x.2.1, x.2.2.length, x.2.2.map (·.1) |>.head?))
    (d.port 0).role = .drawer ∧ drawn .outward = [(0, 1, 320, some 0), (1, 1, 320, some 1200)] ∧
    drawn .inward = [(1, 1, 320, some 0), (0, 1, 320, some 848)] := by decide +kernel

theorem wit_SlotTablesAreArmed :
    (ptrs.port 8).role = .peer ∧ ptrs.frame < 1 ∧
    (fullTable.all fun e => decide (e.1 < 2048) && match e.2 with | .pool d => decide (d < 4) | .route _ _ _ => false | _ => true) = true ∧
    (∀ d, d < 4 → 64 ≤ (fullTable.filter fun e => e.2 == .pool d).length) ∧ 64 ≤ (fullTable.filter fun e => e.2 == .transit).length ∧
    ptrs.fatal = none ∧ ((runI (.slotTableArm 8 .inward fullTable 1) ptrs).port 8).shadow.map (fun x => (x.1, x.2.1, x.2.2.length)) = [(1, 1, 320)] := by
  decide +kernel

theorem wit_SlotTablesAreArmed_nodup : (fullTable.map (·.1)).Nodup := by
  rw [show fullTable.map (·.1) = List.range 320 by decide +kernel]
  exact List.nodup_range

/-- A packet of this package to package 1 with tag 7. -/
noncomputable def outPk (type : Nat) (payload : List Byte) : Packet := sealed ⟨type, (payload.length + 31) / 32, 0, 1, 0, 7, 0, 2 ^ 44 + 0x1000, payload, 0, none, [], none⟩

/-- Port 8, trained, whose slot 5 is now and belongs to die 0's pool, with one packet of so many beats. -/
noncomputable def departing (type left : Nat) : State :=
  upPort ptrs 8 (fun p => { p with outTab := [(5, .pool 0)], fifo := [⟨.pool 0, outPk type [], 2053, left⟩] }) 2053

theorem wit_PacketsDepart :
    (∀ x ∈ [(1, 32), (2, 32), (3, 33)], let s := departing x.1 x.2
      carries s 8 = true ∧ (s.port 8).slotDone ≤ s.ptb ∧ (s.die 0).pfWant = [] ∧
      (s.port 8).outTab.find? (fun e => e.1 == s.slotNow) = some (5, .pool 0) ∧ s.fatal = none) ∧
    awaitsAnswer (departing 1 32) (outPk 1 []) = true ∧ awaitsAnswer (departing 2 32) (outPk 2 []) = false ∧
    (runI (.outSlotDeparture 8) (departing 1 32)).flights.map (fun f => (f.port, f.slot)) = [(8, 2053)] ∧
    ((runI (.outSlotDeparture 8) (departing 2 32)).port 8).fifo = [] ∧ (runI (.outSlotDeparture 8) (departing 2 32)).flights = [] ∧
    ((runI (.outSlotDeparture 8) (departing 3 33)).port 8).fifo.map (·.left) = [1] := by decide +kernel

theorem wit_PortsAreTrained :
    (ptrs.port 0).role = .drawer ∧ (ptrs.port 0).trained = false ∧ (ptrs.port 11).role = .peer ∧ (ptrs.port 11).trained = false ∧
    ((runI (.portTraining 0 9 400) ptrs).port 0).delay = 400 ∧ ((runI (.portTraining 0 9 1200) ptrs).port 0).trained = true ∧
    ((runI (.portTraining 11 9 0) ptrs).port 11).flight = 9 ∧ happensIn (.portTraining 0 9 1201) ptrs = false := by decide +kernel

/-- A request of the running thread for eight bytes, its one part sent with tag 7 on a port. -/
def outReq (kind : ReqKind) (pa port : Nat) : Req where
  id := 9
  owner := .thread 0
  ctx := 1
  lid := 1
  va := 0x2_0000
  rlx := false
  kind := kind
  size := 8
  parts := [⟨0x2_0000, (List.range 8).map fun i => (pa + i, i), .sent 7 port⟩]
  buf := List.replicate 8 5
  fin := .none
  undo := none
  fault := none
  stamp := none
  seq := 0
  last := false

/-- The state with that request, and its packet in flight since slot 0. -/
noncomputable def away (s : State) (kind : ReqKind) (pa port : Nat) (p : Packet) : State := { s with reqs := [outReq kind pa port], flights := [⟨port, 0, p⟩] }

/-- The sixteenth error came in slot 49: the stall begins with slot 50. -/
theorem wit_RetrainingStarts :
    let s := atPort ptrs 8 (fun p => { p with trained := true, frameErrs := 16, errAt := 49 }) 50
    let a := away s .load (2 ^ 44 + 0x1000) 8 (outPk 1 [])
    (s.port 8).role = .peer ∧ (s.port 8).stalled = none ∧ (s.port 8).errAt < s.ptb ∧ s.flights = [] ∧ s.fatal = none ∧
    ((runI (.retrainStart 8) s).port 8).stalled = some 50 ∧ ((runI (.retrainStart 8) s).port 8).retrain = 1 ∧
    happensIn (.retrainStart 8) { s with ptb := 49 } = false ∧
    a.flights.map (fun f => (f.port, f.pkt.type)) = [(8, 1)] ∧ (sentPart a 8 7).map (fun x => (x.1.id, x.2.1)) = some (9, 0) ∧
    a.req 9 = some (outReq .load (2 ^ 44 + 0x1000) 8) ∧ (runI (.retrainStart 8) a).flights = [] ∧
    (runI (.retrainStart 8) a).reqs.map (·.fault) = [some ⟨.stall, 8, 0x2_0000, none, false⟩] := by decide +kernel

theorem wit_PortsResume :
    let s := { atPort ptrs 0 (fun p => { p with trained := true, stalled := some 432, frameErrs := 16 }) 20480 with frame := 10 }
    let a := away { s with ptb := 18432, frame := 9 } .store 0x400_0000_0000 0 (sealed { outPk 3 (beat [1, 2, 3, 4, 5, 6, 7, 8]) with dstPkg := 0, addr := 0x400_0000_0000, keep := beat (List.replicate 8 0xFF) })
    (s.port 0).stalled = some 432 ∧ s.ptb % 2048 = 0 ∧ s.ptb / 2048 = s.frame ∧ s.flights = [] ∧ s.fatal = none ∧
    ((runI (.retrainResume 0 []) s).port 0).frameErrs = 0 ∧ ((runI (.retrainResume 0 []) s).port 0).stalled = none ∧
    (a.port 0).role = .drawer ∧ (sentPart a 0 7).map (fun x => (x.1.id, x.2.1, x.2.2.pa)) = some (9, 0, 0x400_0000_0000) ∧
    a.req 9 = some (outReq .store 0x400_0000_0000 0) ∧ pkgOf 0x400_0000_0000 = a.pkg ∧ (sentPart a 0 7).map (fun x => storePoison a 1 x.2.2) = some false ∧
    a.ptb ≤ 432 + 20000 ∧ (runI (.retrainResume 0 [7]) a).reqs.map (fun r => r.parts.map (·.stage)) = [[.done]] ∧
    (runI (.retrainResume 0 []) a).reqs.map (·.fault) = [some ⟨.stall, 0, 0x2_0000, none, false⟩] := by decide +kernel

theorem wit_StalledPortsStopThePackage :
    let s := atPort ptrs 8 (fun p => { p with stalled := some 9 }) 20010
    (s.port 8).stalled = some 9 ∧ 9 + 20000 < s.ptb ∧ s.dump = none ∧ s.fatal = none ∧ (runI (.portResumeTimeout 8) s).fatal = some 3 ∧
    happensIn (.portResumeTimeout 8) { s with ptb := 20009 } = false := by decide +kernel

/-! ### Packets -/

/-- The step of a packet, by its type. -/
noncomputable def stepOf (p : Packet) : Instr :=
  match p.type with
  | 1 => .readRequest p
  | 2 => .readReply p
  | 3 => .writePacket p
  | 4 => .writeStatus p
  | 8 => .activeMessagePacket p
  | 12 => .podBarrierPacket p
  | _ => .reservationPacket p

/-- The packets that other packages send: accesses, a message, an arrival. -/
noncomputable def peerAccesses : List Packet :=
  [pk 0x01 0 0x1008 [], pk 0x03 1 0x1008 (beat [1]), pk 0x03 3 0x1000 (List.replicate 96 1), pk 0x05 1 0x1008 (beat [1]), pk 0x05 0 0x1008 []]
noncomputable def incoming : List Packet := peerAccesses ++ [pk 0x08 2 3 (leBytes 64 0x77), pk 0x0C 0 0 []]

/-- What `comesIn` asks of a packet at port 8, as one condition. -/
def comes (s : State) (p : Packet) : Bool :=
  p.srcPkg != s.pkg && portFor s p.srcPkg == some 8 && (s.port 8).role == .peer && carries s 8 &&
    pooled (inOwner s 8 (inSlotTime s p)) && (badPacket p || wholePacket p)

/-- A packet's step, the packet then changed. -/
noncomputable def stepWith (p : Packet) (f : Packet → Packet) : Instr :=
  match stepOf p with
  | .readRequest p => .readRequest (f p)
  | .readReply p => .readReply (f p)
  | .writePacket p => .writePacket (f p)
  | .writeStatus p => .writeStatus (f p)
  | .activeMessagePacket p => .activeMessagePacket (f p)
  | .podBarrierPacket p => .podBarrierPacket (f p)
  | .reservationPacket p => .reservationPacket (f p)
  | i => i

theorem wit_PacketsAreForwardedOrDiscarded :
    let on := fun (p : Packet) => sealed { p with dstPkg := 2 }
    linked.flights = [] ∧ linked.fatal = none ∧ portFor linked 2 = some 9 ∧
    ∀ p ∈ incoming ++ [pk 0x02 1 0 (leBytes 32 1), pk 0x04 0 0 []],
      (∀ bad ∈ [(fun q => { on q with crc := (on q).crc + 1 } : Packet → Packet), fun q => sealed { on q with type := 0x07 }],
        comes linked (bad p) = true ∧ badPacket (bad p) = true ∧ ((runI (stepWith p bad) linked).port 8).frameErrs = 1) ∧
      comes linked (on p) = true ∧ badPacket (on p) = false ∧
      ((runI (stepWith p on) linked).port 9).fifo.map (fun o => (o.owner, o.after, o.left)) = [(.transit, 50, 1 + p.len)] := by decide +kernel

theorem wit_PeersAccessesAreChecked :
    let run := fun (p : Packet) (f : Packet → Packet) => runI (stepWith p f) linked
    let locked := { linked with boot := { linked.boot with fwlock := 0x8000_0002_0000_0000 } }
    let fw := fun (p : Packet) => sealed { p with addr := fwAddr linked 0x1000 }
    let masked := { pk 0x03 1 0x1008 (beat [1]) with keep := beat [0xF0] }
    let wide := pk 0x03 1 0x1FFF (beat [1])
    pageOwner linked 0x1008 = some 1 ∧ pageOwner linked 0x2000 = none ∧ linked.sup.length < 4096 ∧
    (∀ p ∈ peerAccesses, p.dstPkg = linked.pkg ∧ comes linked p = true ∧ badPacket p = false ∧ inCarveOut linked p = false ∧
      (∀ a ∈ pagesTouched p, pageOwner linked a = some 1) ∧ (run p id).reqs.length = 1 ∧
      (run p fun p => sealed { p with cap := 0x1234 }).reqs.map (·.owner) = [.peer 1 3 7 8 0x1234] ∧
      (run p fun p => sealed { p with cap := 0x1235 }).sup.map (fun e => (e.reason, e.cap, e.rkey)) = [(2, 0x1235, 0x1234)] ∧
      ((run p fun p => sealed { p with addr := 0x2000 }).port 8).fifo.map (fun o => (o.pkt.type, o.pkt.txid)) = [(2, 7)]) ∧
    (runI (.writePacket masked) linked).reqs.map (fun r => (r.kind, r.parts.map fun p => p.moves.length)) = [(.storeMask (beat [0xF0]), [1])] ∧
    pagesTouched wide = [0x1FFF, 0x2000] ∧
    ((runI (.writePacket wide) linked).port 8).fifo.map (fun o => (o.pkt.type, o.pkt.len)) = [(2, 0)] ∧
    inCarveOut locked (fw (pk 0x01 0 0 [])) = true ∧ (runI (.readRequest (fw (pk 0x01 0 0 []))) locked).boot.viol = 1 ∧
    ((runI (.readRequest (fw (pk 0x01 0 0 []))) locked).port 8).fifo.map (fun o => (o.pkt.type, o.pkt.payload)) = [(2, List.replicate 32 0xFF)] ∧
    inCarveOut locked (fw (pk 0x03 1 0 (beat [1]))) = true ∧
    ((runI (.writePacket (fw (pk 0x03 1 0 (beat [1])))) locked).port 8).fifo.map (fun o => (o.pkt.type, o.pkt.len)) = [(4, 0)] := by
  decide +kernel

theorem wit_PeersMessagesComeIn :
    let p := pk 0x08 2 3 (leBytes 64 0x77)
    p.dstPkg = linked.pkg ∧ comes linked p = true ∧ badPacket p = false ∧
    (runI (.activeMessagePacket p) linked).net.map (fun m => (m.dst, m.peer, (bodyHeader m.body).toNat)) = [(3, some (1, 3, 7), 0x77)] := by
  decide +kernel

/-- An arrival for tick 5, in which a core here has arrived, and one for tick 6. -/
theorem wit_PeersArrivalsCount :
    let s := { linked with episodes := [⟨7, 5, [(0, 8)], false, false, []⟩] }
    let back := { linked with episodes := [⟨7, 5, [(0, 8)], false, false, [(1, 3), (2, 4)]⟩] }
    let p := fun (t : Nat) => { pk 0x0C 0 0 [] with stamp := some (t, false) }
    let gone := { p 5 with stamp := some (5, true) }
    comes s (p 5) = true ∧ (s.episodes.map fun e => (e.key, e.tick, e.remote)) = [((p 5).cap * 2 ^ 16 + (p 5).txid, 5, [])] ∧
    (runI (.podBarrierPacket (p 5)) s).episodes.map (fun e => (e.tick, e.remote)) = [(5, [(1, 3)])] ∧
    (runI (.podBarrierPacket (p 6)) s).episodes.map (fun e => (e.tick, e.remote)) = [(5, []), (6, [(1, 3)])] ∧
    comes back gone = true ∧ badPacket gone = false ∧ (runI (.podBarrierPacket gone) back).episodes.map (fun e => (e.tick, e.remote)) = [(5, [(2, 4)])] := by decide +kernel

theorem wit_RouteDataGoesOn :
    let s := fun (slot f : Nat) => linked.updPort 8 fun q => { q with inTab := [(slot, .route 1 6 f)] }
    let p := { pk 0x09 1 0x1008 (beat [1]) with route := some (1, 6) }
    let on := sealed { p with dstPkg := 2 }
    let big := { pk 0x09 3 0x1000 (List.replicate 96 1) with route := some (1, 6), stamp := some (3, true) }
    let other := { on with route := some (1, 7) }
    (∀ f ∈ [11, 15, 27], carries (s 50 f) 8 = true ∧ ((s 50 f).port 8).role = .peer ∧ inOwner (s 50 f) 8 50 = .route 1 6 f ∧
      (s 50 f).fatal = none) ∧ badPacket p = false ∧ wholePacket p = true ∧ ((s 50 11).port 11).fifo = [] ∧
    ((runI (.routeData ⟨8, on⟩) (s 50 11)).port 11).fifo.map (fun o => (o.owner, o.after, o.left)) = [(.route 1 6 15, 52, 2)] ∧
    ((runI (.routeData ⟨8, p⟩) (s 50 11)).port 8).crcErr = 1 ∧
    ((runI (.routeData ⟨8, { p with crc := p.crc + 1 }⟩) (s 50 15)).port 8).crcErr = 1 ∧
    inOwner (s 50 11) 8 (50 - 18) = .idle ∧ badPacket other = false ∧ ((runI (.routeData ⟨8, other⟩) (s 50 11)).port 8).crcErr = 1 ∧
    ((runI (.routeData ⟨8, other⟩) (s 50 11)).port 11).fifo = [] ∧
    (runI (.routeData ⟨8, on⟩) (s 50 27)).gate.map (fun g => (g.core, g.slot, g.ctx, g.handle, g.fwd)) = [(34, 50, 1, 6, 11)] ∧
    inOwner (s 32 15) 8 50 = .idle ∧ inOwner (s 32 15) 8 32 = .route 1 6 15 ∧ wholePacket big = true ∧ inCarveOut (s 32 15) big = false ∧
    pagesTouched big = [0x1000] ∧ pageOwner (s 32 15) 0x1000 = some 1 ∧
    (runI (.routeData ⟨8, big⟩) (s 32 15)).reqs.map (fun r => (r.kind, r.va, r.stamp)) = [(.store, 0x1000, some 3)] := by decide +kernel

/-- A reply of package 1 to the packet with tag 7 in flight on port 8, whose flight is 10 slots. -/
noncomputable def replied (kind : ReqKind) (type : Nat) (payload : List Byte) : State :=
  { away (atPort linked 8 (fun p => { p with flight := 10 }) 50) kind (2 ^ 44 + 0x1000) 8 (outPk type payload) with dies := [] }

/-- What `answers` asks, as one condition. -/
def answered' (s : State) (p : Packet) : Bool :=
  match s.flights with
  | [f] => f.pkt.txid == p.txid && f.pkt.dstPkg == p.srcPkg && answerDue s f && p.dstPkg == s.pkg && !badPacket p && wholePacket p &&
      s.fatal.isNone
  | _ => false

theorem wit_RepliesArrive :
    let s := replied .load 1 []
    let p := pk 0x02 1 0 ((List.range 32).map fun i => BitVec.ofNat 8 i)
    answered' s p = true ∧ (s.port 8).role = .peer ∧ s.dies = [] ∧ (sentPart s 8 7).map (fun x => (x.1.id, x.2.1)) = some (9, 0) ∧
    s.req 9 = some (outReq .load (2 ^ 44 + 0x1000) 8) ∧ p.payload.length = 32 ∧ pkgOf (2 ^ 44 + 0x1000) ≠ s.pkg ∧
    (runI (.readReply p) s).reqs.map (fun r => r.buf) = [[0, 1, 2, 3, 4, 5, 6, 7]] ∧
    answered' s (sealed { p with len := 0, payload := [] }) = true ∧
    (runI (.readReply (sealed { p with len := 0, payload := [] })) s).reqs.map (·.fault) = [some ⟨.contain, 0, 0x2_0000, none, false⟩] := by decide +kernel

/-- A peer's status, and a drawer's, in the in-slot paired with its out-slot. -/
theorem wit_StatusesArrive :
    let s := replied .store 3 (beat [1, 2, 3, 4, 5, 6, 7, 8])
    let d := away (upPort linked 0 (fun p => { p with delay := 400, outTab := [(0, .pool 0)], inTab := [(400, .pool 0)] }) 418) .store
      0x400_0000_0000 0 (sealed { outPk 3 (beat [1, 2, 3, 4, 5, 6, 7, 8]) with dstPkg := 0, addr := 0x400_0000_0000, keep := beat (List.replicate 8 0xFF) })
    let p := pk 0x04 0 0 []
    bothOk s = true ∧ bothOk d = true ∧ answered' s p = true ∧ (sentPart s 8 7).map (fun x => (x.1.id, x.2.1)) = some (9, 0) ∧ s.req 9 = some (outReq .store (2 ^ 44 + 0x1000) 8) ∧
    (runI (.writeStatus p) s).reqs.map (fun r => r.parts.map (·.stage)) = [[.done]] ∧
    answered' d (sealed { p with srcPkg := 0 }) = true ∧ d.req 9 = some (outReq .store 0x400_0000_0000 0) ∧ pkgOf 0x400_0000_0000 = d.pkg ∧
    (sentPart d 0 7).map (fun x => (storePoison d 1 x.2.2, x.2.2.moves.length)) = some (false, 8) ∧ (d.launch 1).shadows = [] ∧ (d.launch 1).rpl = false ∧
    (runI (.writeStatus (sealed { p with srcPkg := 0 })) d).reqs.map (fun r => r.parts.map (·.stage)) = [[.done]] ∧
    readByte (runI (.writeStatus (sealed { p with srcPkg := 0 })) d).mem 0x400_0000_0007 = 8 := by decide +kernel

theorem wit_GrantsArrive :
    let s := replied .rsv 5 []
    let p := pk 0x05 1 (2 ^ 44 + 0x1008) ((List.range 32).map fun i => BitVec.ofNat 8 i)
    answered' s p = true ∧ (outPk 5 []).addr / 32 = p.addr / 32 ∧ (sentPart s 8 7).map (fun x => (x.1.id, x.2.1)) = some (9, 0) ∧
    s.req 9 = some (outReq .rsv (2 ^ 44 + 0x1000) 8) ∧ (runI (.reservationPacket p) s).me.reserved = some ((2 ^ 44 + 0x1000) / 8) ∧
    (runI (.reservationPacket p) s).flights = [] := by decide +kernel

/-! ### Banks, carves, soft errors -/

theorem wit_PeriodsGiveBudgets :
    let s := { ptrs.updBank 0 (fun b => { b with pending := some 0x0000_0810_0810_0808 }) with cycle := 256 }
    s.period < s.cycle / 256 ∧ s.banks.any (fun x => x.1 == 0 && x.2 == s.bank 0) = true ∧ s.fatal = none ∧
    ((runI .budgetPeriod s).bank 0).counts = #v[8, 8, 16, 8, 16, 8] ∧ ((runI .budgetPeriod s).bank 0).pending = none ∧
    happensIn .budgetPeriod { s with cycle := 255 } = false := by decide +kernel

/-- The least budgets; a sum of 256 and of 257; MSH 15; FIL 0 with no carve and with one. -/
theorem wit_BankbudIsChecked :
    let s := ptrs.updDie 1 fun d => { d with carve := 128 }
    let pend := fun (w : Word) => ((runI (.bankbudWrite 4095 w) s).bank 4095).pending
    let rej := fun (w : Word) => ((runI (.bankbudWrite 0 w) s).bank 0).rej
    s.fatal = none ∧ ((runI (.bankbudWrite 4095 0x0000_0808_1008_0808) s).bank 3072).pending = some 0x0000_0808_1008_0808 ∧
    ((runI (.bankbudWrite 4095 0x0000_0808_1008_0808) s).bank 3071).pending = none ∧ pend 0x0000_0808_1008_0808 = some 0x0000_0808_1008_0808 ∧ pend 0x0000_10B8_1010_0810 = some 0x0000_10B8_1010_0810 ∧
    pend 0xFFFF_0800_1008_0808 = some 0x0000_0800_1008_0808 ∧ rej 0x0000_0808_0F08_0808 = true ∧ rej 0x0000_10B9_1010_0810 = true ∧
    rej 0x0000_0708_1008_0808 = true ∧ ((runI (.bankbudWrite 1024 0x0000_0800_1008_0808) s).bank 1024).rej = true := by decide +kernel

theorem wit_PfctlIsWritten :
    ((runI (.pfctlWrite 3 0xFF) ptrs).die 3).pfctl = 0xF1 ∧ ptrs.fatal = none ∧ leaves (.pfctlWrite 3 0x100) ptrs ptrs = true := by decide +kernel

theorem wit_CarvesChange :
    let c := { ptrs.updDie 1 (fun d => { d with carve := 512, cache := [⟨0x800_0000_000, false, true, false⟩] }) with
      mem := [(0x4007_FFFF, 1), (0x4008_0000, 2), (0x400D_FFFF, 3), (0x400E_0000, 4), (0x4010_0000, 5)] }
    (∀ s ∈ [ptrs, c], (s.die 1).fills = [] ∧ (∀ x ∈ s.cores, dieOf x.1 = 1 → x.2.launch = none) ∧ s.banks.all (fun b => b.1 < 1024) = true ∧
      8 ≤ (s.bank 1024).bud.toNat / 256 ^ 4 % 256 ∧ (∀ l ∈ (s.die 1).cache, l.dirty = false) ∧ s.fatal = none) ∧
    carveBlocked ptrs 1 512 = false ∧ ((runI (.carveChange 1 512) ptrs).die 1).carve = 512 ∧ 128 ≤ (c.die 1).carve ∧
    (ptrs.core 0).launch = some 1 ∧ ((runI (.carveChange 0 512) ptrs).die 0).carveWant = some 512 ∧ ((runI (.carveChange 0 512) ptrs).die 0).carve = 0 ∧
    ((runI (.carveChange 1 128) c).die 1).carve = 128 ∧ ((runI (.carveChange 1 128) c).die 1).cache = [] ∧
    (runI (.carveChange 1 128) c).mem = [(0x4007_FFFF, 1), (0x400E_0000, 4), (0x4010_0000, 5)] := by decide +kernel

/-- A dirty line leaves first, and the change waits. -/
theorem wit_CarvesChange_dirty :
    let c := ptrs.updDie 1 (fun d => { d with carve := 512, cache := [⟨0x800_0000_000, true, true, false⟩] })
    let t := runI (.carveChange 1 128) c
    (c.die 1).fills = [] ∧ (∀ x ∈ c.cores, dieOf x.1 = 1 → x.2.launch = none) ∧ 128 ≤ (c.die 1).carve ∧ c.fatal = none ∧
    (t.die 1).backs = [0x800_0000_000] ∧ (t.die 1).cache = [] ∧ (t.die 1).carve = 512 ∧ (t.die 1).carveWant = some 128 ∧
    ((runI (.carveChange 1 128) (ptrs.updDie 1 fun d => { d with carve := 512 })).bank 1024).owed = (c.bank 1024).owed + 1536 := by decide +kernel

theorem wit_CorrectedWordsAreRewritten :
    let s := { ptrs with corrected := [0x200, 0x201] }
    homeTile s 0x1000 = some 0 ∧ isSram 0x1000 = true ∧ s.corrected.contains (0x1000 / 8) = true ∧ classTurn s 0 5 = true ∧ s.fatal = none ∧
    (runI (.scrubberRewrite 0x1000) s).corrected = [0x201] := by decide +kernel

theorem wit_SoftErrorsStrike :
    let hit := fun (u : Upset) (bad : Bool) => runI (.softError u bad) ptrs
    homeTile ptrs 0x1008 = some 0 ∧ ptrs.fatal = none ∧ (hit (.memory 0x1008) true).poison = [0x201] ∧
    (hit (.memory 0x1008) false).corrected = [0x201] ∧ ((hit (.memory 0x1008) false).core 0).ce[0] = 1 ∧
    homeTile ptrs (0x40 * 64) = some 0 ∧ isSram (0x40 * 64) = true ∧ happensIn (.softError (.tag 0x40) true) ptrs = true ∧
    ((hit (.tag 0x40) false).core 0).ce[3] = 1 ∧ ((hit (.register 4095 15 223) false).core 4095).ce[1] = 1 ∧
    ((hit (.register 0 0 5) true).thr 0).regs.lost = [5] ∧ ((hit (.register 0 0 5) true).thr 0).parked = false ∧
    ((hit (.accumulator 4095 7 15 63) true).core 4095).accBad = [8191] ∧ ((hit (.accumulator 0 0 0 0) false).core 0).ce[2] = 1 ∧
    leaves (.softError .firmware false) ptrs ptrs = true ∧ (hit .firmware true).fatal = some 4 := by decide +kernel

/-! ### Reset, time, boot, updates, stops -/

theorem wit_ResetLeavesTheResetState :
    let b : BringUp := ⟨255, [255, 3], [.drawer, .peer], [65536], [(3, 1), (4, 11)], 4096⟩
    let s := { stopped with hostMem := [(5, 6)] }
    b.pkg < 256 ∧ b.roles.length ≤ 12 ∧ b.pod.contains b.pkg = true ∧ s.fatal.isSome = true ∧
    (∀ r ∈ b.routing, r.2 < 12 ∧ b.roles.getD r.2 (if r.2 < 8 then .drawer else .peer) = .peer) ∧
    goesOn (exec (.packageReset b) s) = true ∧ (runI (.packageReset b) s).pkg = 255 ∧ (runI (.packageReset b) s).hostMem = [(5, 6)] ∧
    ((runI (.packageReset b) s).port 1).role = .peer ∧ (runI (.packageReset b) s).threads = State.reset.threads ∧
    (runI (.packageReset b) s).reserve = 4096 := by decide +kernel

theorem wit_TheTimeBaseIsSet :
    let s := { ptrs with ptb := 5 }
    s.tbSet = false ∧ s.fatal = none ∧ (runI (.timeBaseSet 5) s).tbSet = true ∧ (runI (.timeBaseSet 4096) s).frame = 2 ∧
    (runI (.timeBaseDiscipline (-100)) { s with tbSet := true }).slew = -100 ∧ (runI (.timeBaseDiscipline 100) { s with tbSet := true }).slew = 100 := by
  decide +kernel

/-- The reset machine, with a byte in the first 64 KiB block of firmware SRAM and one in the second. -/
def romWaits : State := { State.reset with mem := [(Config.fwBase, 1), (Config.fwBase + 0x1_0000, 2)] }

theorem wit_BootdbStartsTheBoot :
    let go := fun (t : Nat) => { romWaits with
      ptb := t, boot := { romWaits.boot with bootdb := 0x8000_0001_0000_0000, fwlock := 0x8000_0001_0000_0000, state := 1, verify := some ⟨0, 9, false⟩ } }
    let v := (0x8000_0001_0000_0000 : Word)
    let b := (0x8000_0400_0000_0201 : Word)
    romWaits.boot.state = 0 ∧ romWaits.fatal = none ∧ (runI (.bootdb 0x7FFF_FFFF_FFFF_FFFF) romWaits).boot.bootdb = 0x0000_07FF_0000_07FF ∧
    (runI (.bootdb v) { romWaits with boot := { romWaits.boot with state := 0x11 } }).boot.fwlock = 0 ∧
    b.toNat % 2 ^ 11 + b.toNat / 2 ^ 32 % 2 ^ 11 = 1537 ∧ (runI (.bootdb b) romWaits).boot.state = 0x10 ∧
    (runI (.bootdb b) romWaits).boot.bootdb = 0x0000_0400_0000_0201 ∧ (runI (.bootdb b) romWaits).boot.fwlock = 0 ∧
    (runI (.bootdb v) romWaits).boot.state = 0x01 ∧ (runI (.bootdb v) romWaits).boot.verify.isSome = true ∧
    (runI (.bootdb v) romWaits).boot.fwlock = v ∧ (runI (.bootdb v) romWaits).mem = romWaits.mem ∧ romStep (go 8) = go 8 ∧
    verifyImage (go 9) (carveOff (go 9) + 0) (carveLen (go 9) - 0) = 0x11 ∧ (romStep (go 9)).boot.state = 0x11 ∧
    (romStep (go 9)).mem = [(Config.fwBase + 0x1_0000, 2)] := by decide +kernel

/-- Firmware runs, its carve-out the first 128 KiB, its image in the first 64. -/
def booted : State :=
  { tabled with boot := { tabled.boot with
      state := 2, fwlock := 0x8000_0002_0000_0000, imageLen := 0x140, ident := some ⟨[], [], [], [], 7⟩ } }

theorem wit_TheMinimumVersionRises :
    booted.boot.ident.isSome = true ∧ fwUp booted = true ∧ booted.fatal = none ∧ (runI .svnRaise booted).boot.minSvn = 7 ∧
    (runI .svnRaise { booted with boot := { booted.boot with minSvn := 9 } }).boot.minSvn = 9 := by decide +kernel

theorem wit_WatchdogsExpire :
    let s := fun (n : Nat) => { booted with ptb := n, boot := { booted.boot with watchdog := [5] } }
    (∀ x ∈ (s 10000000006).boot.watchdog, x + 10 ^ 10 < (s 10000000006).ptb) ∧ fwUp (s 6) = true ∧ (s 6).fatal = none ∧
    (s 6).boot.service = 0 ∧ happensIn .watchdogExpiry { s 99999999 with boot := booted.boot } = false ∧
    (runI .watchdogExpiry { s 100000000 with boot := booted.boot }).boot.state = 1 ∧
    (runI .watchdogExpiry (s 10000000006)).boot.restarts = 1 ∧ (runI .watchdogExpiry (s 10000000006)).fatal = none ∧
    (∃ x ∈ (s 10000000005).boot.watchdog, (s 10000000005).ptb ≤ x + 10 ^ 10) ∧ (runI .watchdogExpiry (s 10000000005)).fatal = some 5 := by
  decide +kernel

/-- A reserved bit; staged bytes whose first block is the carve-out's last; no room; an image staged beyond the firmware SRAM, which reads
as nothing. -/
theorem wit_ActivationsAreAnswered :
    let rec' := fun (w : Word) => [w, 0, 0, 0, 0, 0, 0, 0]
    let ans := fun (w : Word) => (tfind (runI (.activationRecord (rec' w)) booted).mail activationOff).map fun ws => ws.getD 7 0
    let a : Activation := ⟨0x1_0000, 0x1_0000, 5, [3]⟩
    let p := fun (ptb : Nat) (st : LaunchState) => { booted.updLaunch 1 (fun l => { l with state := st, layout := 4 }) with
      ptb := ptb, mail := [(activationOff, rec' 0x1_0000_0002)], boot := { booted.boot with activation := some a } }
    fwUp booted = true ∧ booted.boot.activation = none ∧ booted.fatal = none ∧
    actReserved (rec' 0x1_0000_0802) = true ∧ ans 0x1_0000_0802 = some 4 ∧
    actReserved (rec' 0x1_0000_0001) = false ∧ actBase (rec' 0x1_0000_0001) < carveOff booted + carveLen booted ∧
    carveOff booted < actBase (rec' 0x1_0000_0001) + actSize (rec' 0x1_0000_0001) ∧ ans 0x1_0000_0001 = some 2 ∧
    actBase (rec' 0x2_0000_0002) = carveOff booted + carveLen booted ∧ copyPlace booted (actSize (rec' 0x2_0000_0002)) = none ∧ ans 0x2_0000_0002 = some 5 ∧
    copyPlace booted (actSize (rec' 0x1_0000_0600)) = some 0x1_0000 ∧ stagedBytes booted (rec' 0x1_0000_0600) = [] ∧
    verifyImage booted 0x1_0000 0x1_0000 = 0x11 ∧ ans 0x1_0000_0600 = some 1 ∧
    (p 5 .running).boot.activation = some a ∧ layoutsHeld (p 5 .running) a.layouts = true ∧ (runI .activationProceed (p 5 .running)).boot.restarts = 1 ∧
    layoutsHeld (p 10000000005 .saved) a.layouts = false ∧ a.since + 10 ^ 10 ≤ (p 10000000005 .saved).ptb ∧
    (tfind (p 10000000005 .saved).mail activationOff).isSome = true ∧
    ((tfind (runI .activationDeferralTimeout (p 10000000005 .saved)).mail activationOff).map fun ws => ws.getD 7 0) = some 3 ∧
    happensIn .activationDeferralTimeout (p 10000000004 .saved) = false := by decide +kernel

theorem wit_DumpsAreRegistered :
    (runI (.dumpRegistration [0x1000, 0x2000, 0, 0, 0, 0, 0, 0]) booted).dump = some ⟨0x1000, 0x2000⟩ ∧ fwUp booted = true ∧ booted.fatal = none ∧
    tfind (runI (.dumpRegistration [0x1000, 0x2001, 0, 0, 0, 0, 0, 0]) booted).mail dumpOff = some [0x1000, 0x2001, 0, 0, 0, 0, 0, 1] ∧
    (runI (.dumpRegistration [0x0FFF, 0x1000, 0, 0, 0, 0, 0, 0]) booted).dump = none := by decide +kernel

theorem wit_TripsStopThePackage :
    let d := { ptrs with dump := some ⟨0x1000, 0x28⟩, ptb := 9 }
    ptrs.dump = none ∧ ptrs.fatal = none ∧ (runI .thermalTrip ptrs).fatal = some 1 ∧ (runI .thermalTrip ptrs).hostMem = ptrs.hostMem ∧
    d.dump = some ⟨0x1000, 0x28⟩ ∧ (runI .supplyFault d).fatal = some 2 ∧ readWord (runI .supplyFault d).hostMem 0x1000 = 0x2_504D_5544 ∧
    readWord (runI .supplyFault d).hostMem 0x1008 = 9 := by decide +kernel

/-- The last byte of the carve-out, and the first behind it. -/
theorem wit_TheWindowKeepsTheCarveOut :
    let s := { booted with mem := [(Config.fwBase + 0x1_FFFF, 7), (Config.fwBase + 0x2_0000, 8)] }
    let full := { s with boot := { s.boot with viol := BitVec.allOnes 32 } }
    tfind (runI (.firmwareWindowAccess (.read bootstOff)) s).mail bootstOff = some [2] ∧ s.boot.fwlock.getLsbD 63 = true ∧ carveOff s = 0 ∧
    carveLen s = 0x2_0000 ∧ s.fatal = none ∧ tfind (runI (.firmwareWindowAccess (.read 0x1_FFFF)) s).mail 0x1_FFFF = some [0xFF] ∧
    (runI (.firmwareWindowAccess (.write 0x1_FFFF 9)) s).mem = s.mem ∧ (runI (.firmwareWindowAccess (.write 0x1_FFFF 9)) s).boot.viol = 1 ∧
    (runI (.firmwareWindowAccess (.read 0)) full).boot.viol = BitVec.allOnes 32 ∧
    tfind (runI (.firmwareWindowAccess (.read 0x2_0000)) s).mail 0x2_0000 = some [8] ∧
    readByte (runI (.firmwareWindowAccess (.write 0x2_0000 9)) s).mem (Config.fwBase + 0x2_0000) = 9 ∧
    happensIn (.firmwareWindowAccess (.read (Config.fwBytes - 1))) s = true := by decide +kernel

theorem wit_TheWindowKeepsTheCarveOut_boxes :
    let t := runI (.firmwareWindowAccess (.write 0x0600_21FF 9)) booted
    let w := { booted with tableNext := 1 }
    booted.fatal = none ∧ t.boxByte 0 511 = 9 ∧ t.boxByte 1 511 = 0 ∧
    tfind (runI (.firmwareWindowAccess (.read 0x0600_21FF)) t).mail 0x0600_21FF = some [9] ∧
    Config.supOff - w.tableNext * 4096 ≤ Config.supOff - 1 ∧ (runI (.firmwareWindowAccess (.write (Config.supOff - 1) 9)) w).boot.viol = 1 ∧
    (runI (.firmwareWindowAccess (.write (Config.supOff - 1) 9)) w).mem = w.mem := by decide +kernel

theorem wit_QuotesAreWritten :
    let s := { booted with boot := { booted.boot with brims := [(1, ⟨[], [], [], [], []⟩)] } }
    let w := { s with boot := { s.boot with state := 1 } }
    s.boot.ident.isSome = true ∧ (tfind s.boot.brims 1).isSome = true ∧ fwUp s = true ∧ (s.ctx 1).live = true ∧ s.fatal = none ∧
    happensIn (.attestationQuote 1 (List.replicate 48 0) (List.replicate 64 0) 0x1000) s = true ∧ fwUp w = false ∧
    ((runI (.attestationQuote 1 (List.replicate 48 7) (List.replicate 64 0) 0x1000) w).ctx 1).quoteDue = true ∧
    ((runI (.attestationQuote 1 (List.replicate 48 7) (List.replicate 64 0) 0x1000) w).attest 1).take 48 = List.replicate 48 7 := by decide +kernel

/-! ### Contexts and rings -/

/-- The answer that a creation record gets of `booted`. -/
noncomputable def creation (s : State) (ws : List Word) : Option Word := (tfind (runI (.contextCreation ⟨ws, []⟩) s).mail creationOff).map fun x => x.getD 7 0

theorem wit_ContextsAreCreated :
    let cr := fun (w0 cores : Word) => [w0, cores, 0x1_0000, 0, 1000, 0, 0, 0]
    let s := { booted with freedKeys := [(0x56, 0)] }
    fwUp s = true ∧ s.fatal = none ∧ ctxExists s 1 = true ∧ creation s (cr 0x55_0001 1) = some 1 ∧ ctxExists s 2 = false ∧
    creationBad (cr 0x0002 1) = true ∧ creation s (cr 0x0002 1) = some 2 ∧ allotOver s (cr 0x55_0002 4096) = true ∧
    creation s (cr 0x55_0002 4096) = some 3 ∧ keyOk s 0x56 = false ∧ creation s (cr 0x56_0002 4095) = some 4 ∧
    creation s (cr 0x55_0010 4095) = some 0 ∧ ((runI (.contextCreation ⟨cr 0x55_0010 4095, []⟩) s).ctx 16).pkey = 0x55 ∧
    ((runI (.contextCreation ⟨cr 0x55_0010 4095, []⟩) s).hold 16 0).map (·.expiry) = some (s.ptb + 1024) := by decide +kernel

/-- With a page of 4 KiB at 0x8000. -/
theorem wit_ContextsAreCreated_pages :
    let t := runI (.contextCreation ⟨[0x55_0010, 4095, 0x1_0000, 0, 1000, 0, 0, 0], [⟨0x4_0000, 0x8000, 12, 0, true, true, false⟩]⟩) booted
    pagesFit booted [⟨0x4_0000, 0x8000, 12, 0, true, true, false⟩] = true ∧ (tfind t.mail creationOff).map (·.getD 7 9) = some 0 ∧
    (t.ctx 16).image = [(0x8000, 4096)] := by decide +kernel

/-- A page of generation 0 that the context has, asked for again. -/
theorem wit_ContextsAreCreated_renewed :
    let pg : MapPage := ⟨0x4_0000, 0x8000, 12, 0, true, true, false⟩
    let cr := [0x55_0010, 4095, 0x1_0000, 0, 1000, 0, 0, 0]
    let s := runI (.contextCreation ⟨cr, [pg]⟩) booted
    let d := { s with mem := writeByte s.mem 0x8005 7 }
    let t := runI (.contextCreation ⟨cr, [pg]⟩) d
    ctxLasts d 16 = true ∧ ctxExists d 16 = true ∧ renewOk d 16 pg = true ∧ fwUp d = true ∧ d.fatal = none ∧
    (tfind t.mail creationOff).map (·.getD 7 9) = some 1 ∧ readByte t.mem 0x8005 = 0 ∧ pagesFit booted [] = true := by decide +kernel

/-- A core that has come to wait for a granule since it was told to stop. -/
noncomputable def waitsNow : State :=
  let s := runI (.ldSync .w64 6 10 5 0) { booted with tbSet := true }
  runI (.accessAtHome ((s.reqs.map (·.id)).headD 0) 0) (s.updCore 0 fun c => { c with stopping := true })

theorem wit_ContextsEnd :
    let l := booted.updCtx 1 fun c => { c with holds := [(0, ⟨0, true, false, .context, 0, 0, [], false⟩)] }
    let w := runI (.ld .w64 false false 6 10 0 0) booted
    (booted.ctx 1).live = true ∧ fwUp booted = true ∧ (booted.hold 1 0).map (·.live) = some true ∧ booted.fatal = none ∧
    ((runI (.contextEnd 1) booted).ctx 1).live = false ∧ ((runI (.contextEnd 1) booted).launch 1).state = .ended ∧
    ((runI (.contextEnd 1) booted).thr 0).live = false ∧ (l.hold 1 0).map (·.live) = some false ∧ ((runI (.contextEnd 1) l).ctx 1).live = false ∧
    ctxStands (beginEnd booted 1) 1 = true ∧ ctxStands (beginEnd w 1) 1 = false ∧ (w.ctx 1).ending = false ∧
    ((runI (.contextEnd 1) w).ctx 1).ending = true ∧ ((runI (.contextEnd 1) w).core 0).stopping = true ∧ ((runI (.contextEnd 1) w).ctx 1).live = true := by
  decide +kernel

theorem wit_RingsAreRegistered :
    let reg := fun (s : State) (ws : List Word) => (tfind (runI (.ringRegistration ws) s).mail ringOff).map fun x => x.getD 7 0
    let ok := fun (log cto c : Word) => [0x40, 8, 16, log, cto, c, 0, 0]
    fwUp booted = true ∧ booted.fatal = none ∧ reg booted (ok 4 1000 1) = some 0 ∧ reg booted (ok 16 1000000000 1) = some 0 ∧
    ((runI (.ringRegistration (ok 4 1000 1)) booted).ctx 1).ring = some ⟨0x40, 8, 16, 4, 1000, 0, 0⟩ ∧ (booted.ctx 2).live = false ∧
    ctxLasts booted 1 = true ∧ reg booted (ok 4 1000 2) = some 1 ∧ reg booted (ok 3 1000 1) = some 2 ∧ reg booted (ok 17 1000 1) = some 2 ∧ reg booted (ok 4 999 1) = some 2 ∧
    reg (runI (.ringRegistration (ok 4 1000 1)) booted) (ok 4 1000 1) = some 3 := by decide +kernel

/-- Words in host memory. -/
def hostWords (m : List Host.Cell) (a : Nat) (ws : List Nat) : List Host.Cell := writeBytes m a (ws.map (leBytes 8)).flatten

/-- Context 1 with a ring of 16 records at 0x1000, its read index 15, so many records reserved; record 15 and the one after it. -/
def ringing (reserved : Nat) (x y : List Nat) : State :=
  { booted.updCtx 1 (fun c => { c with ring := some ⟨0x1000, 0x2000, 0x2010, 4, 1000, 15, 9⟩ }) with
    hostMem := hostWords (hostWords (hostWords [] 0x13C0 x) 0x1000 y) 0x2000 [reserved], ptb := 1009 }

/-- A record's header in the ring's first round: type and NREC. -/
def hdrOf (type nrec : Nat) : Nat := 2 ^ 48 + 0xABCD * 2 ^ 32 + nrec * 2 ^ 16 + type

/-- The head record is one of a type. -/
def headIs (s : State) (type : Nat) : Bool := match headRecord s 1 with | some (_, ws) => hType (ws.getD 0 0) == type | none => false

/-- The read index and ABANDON of context 1. -/
def rdOf (s : State) : Nat × Nat := (((s.ctx 1).ring.map (·.rd)).getD 0, (s.ctx 1).abandon)

theorem wit_RecordsArePassedOver :
    let s := fun (t n : Nat) => ringing 16 [hdrOf t n] []
    let late := ringing 16 [0] []
    (∀ t ∈ [4, 5, 0xFE, 0xFF], bothOk (s t 2) = true ∧ headIs (s t 2) t = true ∧ (s t 2).fatal = none) ∧ rdOf (runI (.noOpRecord 1) (s 4 2)) = (17, 0) ∧
    rdOf (runI (.noOpRecord 1) (s 4 0)) = (16, 0) ∧ rdOf (runI (.continuationRecord 1) (s 0xFF 2)) = (16, 1) ∧
    rdOf (runI (.unassignedRecord 1) (s 5 2)) = (17, 1) ∧ rdOf (runI (.unassignedRecord 1) (s 0xFE 1)) = (16, 1) ∧
    readWord (runI (.unassignedRecord 1) (s 5 2)).hostMem 0x2010 = 17 ∧
    bothOk late = true ∧ (late.ctx 1).ring.isSome = true ∧ committed late ⟨0x1000, 0x2000, 0x2010, 4, 1000, 15, 9⟩ 15 = false ∧ (readWord late.hostMem 0x2000).toNat = 16 ∧
    9 + 1000 = late.ptb ∧ rdOf (runI (.commitTimeout 1) late) = (16, 1) ∧ happensIn (.commitTimeout 1) { late with ptb := 1008 } = false := by
  decide +kernel

theorem wit_HeartbeatsRenew :
    let s := ringing 16 [hdrOf 3 1, 70000000000] []
    let l := s.updCtx 1 fun c => { c with holds := [(0, ⟨0, true, false, .context, 5, 0, [], false⟩)] }
    bothOk s = true ∧ headIs s 3 = true ∧ (s.hold 1 0).map (·.live) = some true ∧ s.fatal = none ∧ rdOf (runI (.heartbeat 1) s) = (16, 0) ∧
    ((runI (.heartbeat 1) s).hold 1 0).map (·.expiry) = some (60000000000 + 1009) ∧
    ((runI (.heartbeat 1) (ringing 16 [hdrOf 3 1, 1023] [])).hold 1 0).map (·.expiry) = some (1024 + 1009) ∧
    bothOk l = true ∧ headIs l 3 = true ∧ (l.hold 1 0).map (·.live) = some false ∧ rdOf (runI (.heartbeat 1) l) = (16, 0) ∧
    ((runI (.heartbeat 1) l).hold 1 0).map (·.expiry) = some 5 := by decide +kernel

/-- A grid launch record with a payload like `payload`, with its DONE pointer and a SHAPE. -/
def launching (type shape done : Nat) : State :=
  ringing 17 [hdrOf type 2, 0x2_0000, 0x2_0000, shape, 0, 0, 0, 0] [2 ^ 48 + 2 ^ 48 + 2 ^ 16 + 0xFF, 0, done]

theorem wit_LaunchRecordsAreChecked :
    let code := fun (s : State) => rejectCode s 1 false false (ringPayload s ⟨0x1000, 0x2000, 0x2010, 4, 1000, 15, 9⟩)
    let g := launching 1 1 0
    let a := launching 1 0 0
    let d := launching 1 0 0x2_0000
    (∀ s ∈ [g, a, d], bothOk s = true ∧ headIs s 1 = true ∧ s.fatal = none) ∧ code g = none ∧
    ((runI (.gridLaunchRecord 1) g).ctx 1).fifo = [g.nextId] ∧ ((runI (.gridLaunchRecord 1) g).launch g.nextId).tag = 0xABCD ∧
    rdOf (runI (.gridLaunchRecord 1) g) = (17, 0) ∧ code a = some 3 ∧ rdOf (runI (.gridLaunchRecord 1) a) = (17, 1) ∧
    code d = some 3 ∧ readWord (runI (.gridLaunchRecord 1) d).mem 0x1000 = 0x0203_0000_0000_0000 ∧
    readWord (runI (.gridLaunchRecord 1) d).mem 0x1008 = 0xABCD ∧ headIs (launching 2 0 0) 2 = true ∧
    rdOf (runI (.pipelineLaunchRecord 1) (launching 2 0 0)) = (17, 1) := by decide +kernel

theorem wit_CallsAreAnswered :
    let c : Call := ⟨1, 0, 0, 4, []⟩
    let s := (ptrs.updCtx 1 fun x => { x with posted := some c, calls := [⟨1, 0, 1, 5, []⟩] }).updMe fun t => { t with wait := some .call }
    (s.ctx 1).posted = some c ∧ (s.ctx 1).orphan = false ∧ (s.launch 1).tiles[0]? = some 0 ∧ (s.core 0).launch = some 1 ∧ s.me.live = true ∧
    s.fatal = none ∧ (runI (.callDone 1 77) s).me.got = some (.words [77]) ∧ (runI (.callDone 1 77) s).me.wait = none ∧
    ((runI (.callDone 1 77) s).ctx 1).posted = some ⟨1, 0, 1, 5, []⟩ := by decide +kernel

/-- Table 16-8: eight words of REQ, FROM with slot 1 of tile 0, PEND; then ANSWER and DONE, PEND clear. -/
theorem test_call_mailbox :
    let s := { (ptrs.updCtx 1 fun x => { x with calls := [⟨1, 0, 1, 5, [9, 0, 0, 0, 0, 0, 0, 0x0102]⟩] }) with pkg := 0 }
    let b := (postCall s 1).callBox 1
    let r := (runI (.callDone 1 77) (postCall s 1)).callBox 1
    b.take 8 = [9, 0, 0, 0, 0, 0, 0, 0] ∧ (b.drop 56).take 24 = [2, 1, 0, 0, 0, 0, 0, 0, 0, 0, 0x10, 0, 0, 0, 0, 0, 1, 0, 0, 0, 0, 0, 0, 0] ∧
    r.drop 72 = [0, 0, 0, 0, 0, 0, 0, 0, 77, 0, 0, 0, 0, 0, 0, 0, 1, 0, 0, 0, 0, 0, 0, 0] ∧ b.length = 96 := by decide +kernel

/-! ### Launches -/

/-- Launch 5 of context 1, of two cores in two stages, at the head of its FIFO. -/
def waiting : State :=
  { ((booted.updCtx 1 fun c => { c with cores := 3, fifo := [5, 6] }).setLaunch 5
      { placeLaunch0 with payload := payload.set 1 9, state := .queued, tiles := [], stages := [(0x2_0000, 1), (0x2_0040, 1)] }) with tbSet := true }

/-- A rotation table of slots 0 to 3 in turn. -/
def rota : List Word := [0x8382_8180_8382_8180, 0x8382_8180_8382_8180, 0x8382_8180_8382_8180, 0x8382_8180_8382_8180]

theorem wit_LaunchesAreDispatched :
    let l := waiting.launch 5
    let t := runI (.launchDispatch 1 [4095, 1] rota) waiting
    (waiting.ctx 1).fifo = [5, 6] ∧ fwUp waiting = true ∧ (waiting.ctx 1).live = true ∧ l.state = .queued ∧ [4095, 1].length = l.ncores ∧ (waiting.ctx 1).ending = false ∧
    fwEntriesOk waiting (Vector.ofFn fun i => rota.getD i.val 0) = true ∧ t.fwRot.isSome = true ∧
    [4095, 1].Nodup ∧ (∀ t ∈ [4095, 1], coreFree waiting t = true) ∧ placeOk (shPlace l.payload) [4095, 1] = true ∧
    coresUsed waiting 1 + l.ncores = (waiting.ctx 1).cores ∧ rottabOk (Vector.ofFn fun i => rota.getD i.val 0) = true ∧ turnOf waiting 1 = true ∧
    waiting.fatal = none ∧ (t.ctx 1).fifo = [6] ∧ (t.core 1).index = 1 ∧ (t.thr (keyOf 1 0)).pc = 0x2_0040 ∧
    (t.thr (keyOf 4095 0)).regs.rs 1 = 9 ∧ (t.thr (keyOf 1 0)).regs.rs 3 = 2 := by decide +kernel

/-- A launch of tiles 0 and 1, whose `done` has ended; its PARAM block may be replayed; the child has been joined. -/
def ending (rpl : Bool) (joined : List Nat) : State :=
  let f := fun (i : Nat) (c : Core) => { c with launch := some 1, index := i, doneOp := some 5, faulted := rpl, worst := if rpl then 0x10 else 0 }
  (((booted.updCore 0 (f 0)).updCore 1 (f 1)).updThr 0 fun t => { t with wait := some .completion }).updLaunch 1 fun l =>
    { l with tiles := [0, 1], stages := [(0, 2)], joined := joined, words := [(0, 7)], payload := l.payload.set 3 (if rpl then 0x100 else 0) }

theorem wit_CoresComplete :
    let a := ending false []
    let b := ending false [1]
    let c := ending true [1]
    let w := fun (s : State) => combine (combine 7 (coreWord (s.core 0))) (launchWord (s.launch 1))
    (∀ s ∈ [a, b, c], (s.core 0).launch = some 1 ∧ (s.core 1).launch = some 1 ∧ coreEnded s 0 = true ∧ coreEnded s 1 = true ∧ (s.core 0).halt = false ∧
      (s.core 1).halt = false ∧ (s.launch 1).ncores = 2 ∧ s.fatal = none) ∧
    ((runI (.coreCompletion 1) a).launch 1).inFlight = [(1, 5)] ∧ ((runI (.coreCompletion 1) a).core 1).launch = none ∧
    happensIn (.coreCompletion 0) a = false ∧
    (∀ k, k < 4 → 4 * 0 + 1 + k < (b.launch 1).ncores → (b.launch 1).joined.contains (4 * 0 + 1 + k) = true) ∧
    replayable (b.launch 1) (w b) = false ∧ ((runI (.coreCompletion 0) b).launch 1).finalWord = some 12 ∧
    ((runI (.coreCompletion 0) b).launch 1).state = .ended ∧ replayable (c.launch 1) (w c) = true ∧
    ((runI (.coreCompletion 0) c).launch 1).replays = 1 ∧ ((runI (.coreCompletion 0) c).ctx 1).fifo = [1] := by decide +kernel

theorem wit_WordsAreCombined :
    let s := fun (w : List (Nat × Word)) => booted.updLaunch 1 fun l => { l with words := w, inFlight := [(4, 0x0110_FFFF_FFFF_FFFF), (5, 3)] }
    ((s []).launch 1).inFlight.find? (fun y => y.1 == 4) = some (4, 0x0110_FFFF_FFFF_FFFF) ∧ (s []).fatal = none ∧
    ((runI (.statusWordFromChild 1 4) (s [])).launch 1).words = [(0, 0x0110_FFFF_FFFF_FFFF)] ∧
    ((runI (.statusWordFromChild 1 4) (s [(0, 0x8013_0001_0000_0001)])).launch 1).words = [(0, 0x8113_FFFF_FFFF_FFFF)] ∧
    ((runI (.statusWordFromChild 1 4) (s [])).launch 1).joined = [4] := by decide +kernel

/-- Launch 1 stopped, and saved. -/
noncomputable def stopping' : State := runI (.preempt 1) { booted with tbSet := true }
noncomputable def saved' : State := runI (.preempt 1) stopping'

theorem wit_LaunchesArePreempted :
    boundTiles booted 1 = [0] ∧ (booted.launch 1).state = .running ∧ fwUp booted = true ∧ (booted.core 0).stopping = false ∧ booted.fatal = none ∧
    (stopping'.core 0).stopping = true ∧ boundTiles stopping' 1 = [0] ∧ stands stopping' 0 = true ∧ (stopping'.launch 1).state = .running ∧
    (saved'.launch 1).state = .saved ∧ (saved'.launch 1).saved.length = 1 ∧ (saved'.core 0).launch = none := by decide +kernel

/-- The wait is taken back, by an end of the context and by a pre-emption. -/
theorem wit_WaitsOfStoppingCoresAreTakenBack :
    boundTiles waitsNow 1 = [0] ∧ (waitsNow.core 0).stopping = true ∧ waitsNow.me.wait = some .granule ∧ coreWaitsLate waitsNow 0 = true ∧
    waitsNow.fatal = none ∧ (runI (.preempt 1) waitsNow).me.wait = none ∧ fwUp waitsNow = true ∧ (waitsNow.ctx 1).live = true ∧
    (runI (.contextEnd 1) (waitsNow.updCtx 1 fun c => { c with ending := true })).me.wait = none ∧ (waitsNow.launch 1).state = .running := by decide +kernel

theorem wit_SavedLaunchesResume :
    let l := saved'.launch 1
    let t := runI (.resumeLaunch 1 [4095] rota) saved'
    fwUp saved' = true ∧ saved'.tbSet = true ∧ l.state = .saved ∧ ctxLasts saved' l.ctx = true ∧
    fwEntriesOk saved' (Vector.ofFn fun i => rota.getD i.val 0) = true ∧ l.saved.map (·.index) = [0] ∧
    coreFree saved' 4095 = true ∧ placeOk (shPlace l.payload) [4095] = true ∧ coresUsed saved' l.ctx + 1 = (saved'.ctx l.ctx).cores ∧
    rottabOk (Vector.ofFn fun i => rota.getD i.val 0) = true ∧ saved'.fatal = none ∧
    (∀ y ∈ l.saved, (y.threads.map (·.1)).Nodup ∧ ∀ z ∈ y.threads, z.1 < 13) ∧ (t.launch 1).state = .running ∧ (t.core 4095).launch = some 1 ∧
    (t.thr (keyOf 4095 0)).regs.rs 12 = 0x9000_0000_0002_0000 := by decide +kernel

theorem wit_CoresMigrate :
    let u := runI (.migrate 0 4095 100) booted
    let t := runI (.migrate 0 4095 100) u
    (booted.core 0).launch = some 1 ∧ fwUp booted = true ∧ (booted.launch 1).state = .running ∧ coreFree booted 4095 = true ∧
    (booted.core 0).stopping = false ∧ booted.fatal = none ∧ (u.core 0).stopping = true ∧ (u.core 0).launch = some 1 ∧ stands u 0 = true ∧
    coreFree u 4095 = true ∧ (t.core 4095).launch = some 1 ∧ (t.core 0).launch = none ∧ t.forwards = [(0, 4095, 100)] ∧
    (t.thr (keyOf 4095 0)).regs.rs 12 = 0x9000_0000_0002_0000 := by decide +kernel

/-! ### Observation -/

theorem wit_DebugHaltsAndSteps :
    let s := ptrs.updCore 0 fun c => { c with dbgctl := 0xFFFF_FFFF_FFFF_FFFF }
    let h := runI (.debugHalt 0) ptrs
    s.fatal = none ∧ ((runI (.debugHalt 4095) s).core 4095).halt = true ∧ ((runI (.debugHalt 0) s).core 0).dbgctl = 0xF5FF00 ∧
    ((runI (.debugResume 0) s).core 0).dbgctl = 0xF4FF00 ∧ haltedNow h 0 = true ∧ ((runI (.debugStep 0 15) h).core 0).step = some 15 ∧
    happensIn (.debugStep 0 15) h = true := by decide +kernel

/-- Context 1 with a live range of one page, handle 6, at 0x20000, and its mailbox. -/
def observed : State :=
  booted.updCtx 1 fun c => { c with
    holds := c.holds ++ [(6, ⟨0, true, true, .range 0x2_0000 1 12 1 [0x1000], 1000000, 0, [], false⟩)] }

/-- A record of a type for tile 0 of die 0, with a ring, a handle and rows, and an interval. -/
def obRec (type ring rows handle interval : Nat) : List Word :=
  ([type, ring, rows * 2 ^ 16 + handle, interval] ++ List.replicate 12 0).map fun x => BitVec.ofNat 64 x

/-- What `asked` asks, as one condition. -/
def asked' (s : State) (ws : List Word) (type : Nat) : Bool :=
  fwUp s && (s.ctx 1).live && ws.length == 16 && obType ws == type && !obReserved ws && s.fatal.isNone

/-- The status in context 1's mailbox. -/
def obSt (s : State) : Word := (s.obs 1).getD 8 99

theorem wit_SamplersStart :
    let ok := obRec 1 0x2_0000 21 6 1000
    let other := observed.updDie 0 fun d => { d with sampler := some ⟨2, 0, 0, 1, 1000, [], 0, 0, 0, 0, true, 0⟩ }
    let st := fun (s : State) (ws : List Word) => (asked' s ws 1, startStatus s 1 ws, (obSt (runI (.samplerStart 1 ws) s)).toNat)
    st observed ok = (true, 0, 0) ∧ ((runI (.samplerStart 1 ok) observed).die 0).sampler.map (·.running) = some true ∧
    st other ok = (true, 4, 4) ∧ st observed (obRec 1 0x2_0000 21 6 999) = (true, 5, 5) ∧ st observed (obRec 1 0x2_0000 21 7 1000) = (true, 2, 2) ∧
    st observed (obRec 1 0x2_0000 22 6 1000) = (true, 6, 6) := by decide +kernel

/-- A sampler of context 1 that runs with an interval of 1,000 ns, at 2,000 ns. -/
def sampling (handle : Nat) : State :=
  { observed.updDie 0 (fun d => { d with sampler := some ⟨1, 0x2_0000, handle, 21, 1000, [], 20, 20, 0, 0, true, 0⟩ }) with ptb := 2000 }

theorem wit_SamplersLatch :
    (∀ h ∈ [6, 7], ((sampling h).die 0).sampler.map (fun x => (x.running, x.latched)) = some (true, 0) ∧ 0 < (sampling h).ptb / 1000 ∧
      (sampling h).fatal = none) ∧
    (ringRoom (sampling 6) 1 6 0x2_0000).isSome = true ∧ spanOk (sampling 6) 1 (ptrOn 0x2_0000 (20 % 21 * 192)) 192 needW = true ∧
    ((runI (.samplerLatch 0) (sampling 6)).die 0).sampler.map (fun x => (x.row, x.pos, x.missed, x.latched)) = some (21, 0, 0, 2) ∧
    readWord (runI (.samplerLatch 0) (sampling 6)).mem (0x1000 + 20 * 192) = 2000 ∧ ringRoom (sampling 7) 1 7 0x2_0000 = none ∧
    ((runI (.samplerLatch 0) (sampling 7)).die 0).sampler.map (fun x => (x.running, x.status)) = some (false, 2) ∧
    obSt (runI (.samplerLatch 0) (sampling 7)) = 2 := by decide +kernel

theorem wit_SamplersStop :
    asked' (sampling 6) (obRec 2 0 0 0 0) 2 = true ∧ ((sampling 6).die 0).sampler.map (·.ctx) = some 1 ∧
    obSt (runI (.samplerStop 1 (obRec 2 0 0 0 0)) (sampling 6)) = 1 ∧
    ((runI (.samplerStop 1 (obRec 2 0 0 0 0)) (sampling 6)).die 0).sampler.map (·.running) = some false := by decide +kernel

theorem wit_TracesStartAndStop :
    let ws := obRec 3 0x2_0000 64 6 0
    let s := runI (.traceStart 1 ws) observed
    asked' observed ws 3 = true ∧ tileHeld observed 1 (obTile ws) = true ∧ ringRoom observed 1 (obHandle ws) (obRing ws) = some 4096 ∧
    64 * obRows ws = 4096 ∧ obSt s = 0 ∧ (s.core 0).dbgctl = 0x100 ∧ (s.core 0).trace.map (·.size) = some 4096 ∧
    asked' s (obRec 4 0 0 0 0) 4 = true ∧ tileHeld s 1 0 = true ∧ (s.core 0).trace.map (·.buf) = some [] ∧
    ((runI (.traceStop 1 (obRec 4 0 0 0 0)) s).core 0).trace = none ∧ ((runI (.traceStop 1 (obRec 4 0 0 0 0)) s).core 0).dbgctl = 0 := by
  decide +kernel

/-- Breakpoint 3 and both watches, the second one's size reserved. -/
theorem wit_DebugRecordsWriteAndRead :
    let ws : List Word := [5, 0, 0, 0x1_0000, 0, 0, 0, 0xFFFF_0000_1003, 0, 0x2_0000, 0x8000_0000_0000_000C, 0x2_0040, 0x4000_0000_0000_000D, 0, 0, 0]
    let t := runI (.debugWrite 1 ws) observed
    asked' observed ws 5 = true ∧ tileHeld observed 1 (obTile ws) = true ∧ obSt t = 0 ∧ (t.core 0).halt = true ∧ (t.core 0).bps[3] = 0xFFFF_0000_1000 ∧
    (t.core 0).watchCtl[0] = 0x8000_0000_0000_000C ∧ (t.core 0).watchCtl[1] = 0 ∧ (t.core 0).watchAddr[1] = 0x2_0040 ∧
    asked' t (obRec 6 0 0 0 0) 6 = true ∧ tileHeld t 1 0 = true ∧
    1 ≠ crownId ∧ ((runI (.debugWrite crownId ws) observed).core 0).halt = true ∧ obSt (runI (.debugWrite crownId ws) observed) = 0 ∧
    ((runI (.debugWrite crownId ws) observed).core 0).bps[3] = 0xFFFF_0000_1000 ∧
    ((runI (.debugRead 1 (obRec 6 0 0 0 0)) t).obs 1).drop 7 = [0xFFFF_0000_1000, 0, 0x2_0000, 0x8000_0000_0000_000C, 0x2_0040, 0, 0, 0, 0] := by
  decide +kernel

theorem wit_RecordsAreRefused :
    let bad := fun (t : Nat) => obRec (t + 2 ^ 24) 0x2_0000 1 6 1000
    let far := fun (t : Nat) => if t = 3 then obRec (t + 0x1000) 0x2_0000 1 6 0 else obRec (t + 0x1000) 0 0 0 0
    let act := fun (t : Nat) (ws : List Word) => match t with
      | 1 => Instr.samplerStart 1 ws | 2 => .samplerStop 1 ws | 3 => .traceStart 1 ws | 4 => .traceStop 1 ws | 5 => .debugWrite 1 ws | _ => .debugRead 1 ws
    (∀ t ∈ [1, 2, 3, 4, 5, 6], obType (bad t) = t ∧ (bad t).length = 16 ∧ obReserved (bad t) = true ∧ obSt (runI (act t (bad t)) observed) = 3) ∧
    ∀ t ∈ [3, 4, 5, 6], obType (far t) = t ∧ obReserved (far t) = false ∧ tileHeld observed 1 (obTile (far t)) = false ∧
      obSt (runI (act t (far t)) observed) = 8 := by decide +kernel

end Sys2Proof.Tests
end

section
/-! PROOFS. What `qdec` decodes to (R65, R66): the bounded Euclid loop keeps two rows of the lattice of pairs (r, t) with
x·t ≡ r mod M, and the row at which it stops is, up to sign, the only bounded coprime pair there can be. -/

namespace Sys2Proof.Rationals

open Sys2Proof.Machine

/-! ## The prime table and the decode bound -/

theorem one_lt_prime (idx : Nat) : 1 < (primeOf idx).1 := by
  unfold primeOf; split <;> decide

theorem digits_pos (idx : Nat) : 0 < (primeOf idx).2 := by
  unfold primeOf; split <;> decide

theorem modulus_lt (idx : Nat) : modulus idx < 2 ^ 63 := by
  unfold modulus primeOf; split <;> decide

theorem two_lt_modulus (idx : Nat) : 2 < modulus idx := by
  unfold modulus primeOf; split <;> decide

theorem prime_dvd_modulus (idx : Nat) : (primeOf idx).1 ∣ modulus idx := by
  have h : (primeOf idx).1 ^ 1 ∣ (primeOf idx).1 ^ (primeOf idx).2 := Nat.pow_dvd_pow _ (digits_pos idx)
  rwa [Nat.pow_one] at h

theorem modulus_le_two_pow_modLog (idx : Nat) : modulus idx ≤ 2 ^ modLog idx := by
  have h : modulus idx - 1 < 2 ^ ((modulus idx - 1).log2 + 1) := Nat.lt_log2_self
  unfold modLog
  omega

theorem isqrtFrom_mul_self_le {n : Nat} : ∀ {k r : Nat}, r * r ≤ n → isqrtFrom n k r * isqrtFrom n k r ≤ n
  | 0, r, h => by unfold isqrtFrom; split <;> assumption
  | k + 1, r, h => by
    unfold isqrtFrom
    apply isqrtFrom_mul_self_le
    split <;> assumption

theorem isqrtFrom_pos {n : Nat} (hn : 0 < n) : ∀ {k r : Nat}, 0 < isqrtFrom n k r
  | 0, 0 => by rw [isqrtFrom, if_pos (by omega)]; exact Nat.one_pos
  | 0, r + 1 => by unfold isqrtFrom; split <;> omega
  | k + 1, r => by unfold isqrtFrom; exact isqrtFrom_pos hn

theorem decodeBound_pos {idx : Nat} : 0 < decodeBound idx := by
  have hM := two_lt_modulus idx
  exact isqrtFrom_pos (by omega)

theorem two_mul_decodeBound_sq_lt {idx : Nat} : 2 * (decodeBound idx * decodeBound idx) < modulus idx := by
  have h : decodeBound idx * decodeBound idx ≤ (modulus idx - 1) / 2 := isqrtFrom_mul_self_le (Nat.zero_le _)
  have hM := two_lt_modulus idx
  omega

theorem decodeBound_lt_modulus {idx : Nat} : decodeBound idx < modulus idx := by
  have hsq := two_mul_decodeBound_sq_lt (idx := idx)
  have hle : decodeBound idx ≤ decodeBound idx * decodeBound idx := Nat.le_mul_of_pos_left _ decodeBound_pos
  omega

/-! ## Fuel: a Euclid step more than halves the product of its two numbers -/

theorem two_mul_mod_le {a b : Nat} (hb : 0 < b) (hba : b ≤ a) : 2 * (a % b) ≤ a := by
  have hmod : a % b < b := Nat.mod_lt a hb
  have hquot : b ≤ b * (a / b) := Nat.le_mul_of_pos_right b (Nat.div_pos hba hb)
  have hsum := Nat.div_add_mod a b
  omega

theorem mul_mod_lt_of_mul_lt {a b f : Nat} (hb : 0 < b) (hba : b ≤ a) (h : a * b < 2 ^ (f + 1)) :
    b * (a % b) < 2 ^ f := by
  have htwice : b * (2 * (a % b)) ≤ b * a := Nat.mul_le_mul_left b (two_mul_mod_le hb hba)
  rw [Nat.mul_left_comm, Nat.mul_comm b a] at htwice
  rw [Nat.pow_succ] at h
  omega

theorem eq_zero_of_mul_lt_one {a b : Nat} (ha : 0 < a) (h : a * b < 2 ^ 0) : b = 0 :=
  (Nat.mul_eq_zero.1 (Nat.lt_one_iff.1 h)).resolve_left (Nat.ne_of_gt ha)

theorem gcdFuel_zero_right {f a : Nat} : gcdFuel f a 0 = a := by
  cases f <;> rfl

theorem gcdFuel_succ_of_step {f a b : Nat} (hstep : 0 < b → gcdFuel f b (a % b) = Nat.gcd b (a % b)) :
    gcdFuel (f + 1) a b = Nat.gcd a b := by
  rcases Nat.eq_zero_or_pos b with rfl | hb
  · rw [gcdFuel_zero_right, Nat.gcd_zero_right]
  · rw [gcdFuel, if_neg (Nat.ne_of_gt hb), hstep hb, Nat.gcd_comm b, ← Nat.gcd_rec, Nat.gcd_comm]

theorem gcdFuel_eq_gcd_of_lt : ∀ {f a b : Nat}, b < a → a * b < 2 ^ f → gcdFuel f a b = Nat.gcd a b
  | 0, a, b, hba, h => by
    obtain rfl : b = 0 := eq_zero_of_mul_lt_one (Nat.zero_lt_of_lt hba) h
    rw [gcdFuel_zero_right, Nat.gcd_zero_right]
  | f + 1, a, b, hba, h => gcdFuel_succ_of_step fun hb =>
    gcdFuel_eq_gcd_of_lt (Nat.mod_lt a hb) (mul_mod_lt_of_mul_lt hb (Nat.le_of_lt hba) h)

/-- In any order: the first step brings the two numbers into order. -/
theorem gcdFuel_succ_eq_gcd {f a b : Nat} (h : a * b < 2 ^ f) : gcdFuel (f + 1) a b = Nat.gcd a b :=
  gcdFuel_succ_of_step fun hb => gcdFuel_eq_gcd_of_lt (Nat.mod_lt a hb) <|
    calc b * (a % b) ≤ b * a := Nat.mul_le_mul_left b (Nat.mod_le a b)
      _ = a * b := Nat.mul_comm b a
      _ < 2 ^ f := h

/-! ## Signs -/

theorem same_sign_of_mul_nonneg {u v : Int} (h : 0 ≤ u * v) : 0 ≤ u ∧ 0 ≤ v ∨ u ≤ 0 ∧ v ≤ 0 := by
  rcases Int.lt_trichotomy u 0 with hu | rfl | hu
  · exact .inr ⟨Int.le_of_lt hu, Int.not_lt.1 fun hv => Int.not_le.2 (Int.mul_neg_of_neg_of_pos hu hv) h⟩
  · omega
  · exact .inl ⟨Int.le_of_lt hu, Int.not_lt.1 fun hv => Int.not_le.2 (Int.mul_neg_of_pos_of_neg hu hv) h⟩

theorem natAbs_add_of_mul_nonneg {u v : Int} (h : 0 ≤ u * v) : (u + v).natAbs = u.natAbs + v.natAbs := by
  rcases same_sign_of_mul_nonneg h with ⟨hu, hv⟩ | ⟨hu, hv⟩
  · exact Int.natAbs_add_of_nonneg hu hv
  · exact Int.natAbs_add_of_nonpos hu hv

theorem int_mul_self_nonneg (t : Int) : 0 ≤ t * t := by
  rcases Int.le_total 0 t with h | h
  · exact Int.mul_nonneg h h
  · exact Int.mul_nonneg_of_nonpos_of_nonpos h h

/-! ## The rows of the Euclid loop -/

/-- What the loop of R65 keeps of its rows (r0, t0) and (r1, t1): both are pairs of the lattice x·t ≡ r mod M, they span
it (their determinant is ±M), their cofactors have opposite signs, and the remainders fall. -/
structure EuclidRows (M x r0 r1 : Nat) (t0 t1 : Int) : Prop where
  row0 : (M : Int) ∣ x * t0 - r0
  row1 : (M : Int) ∣ x * t1 - r1
  det : (r0 * t1 - r1 * t0 : Int).natAbs = M
  signs : t0 * t1 ≤ 0
  falls : r1 < r0

theorem EuclidRows.initial {M x : Nat} (hx : x < M) : EuclidRows M x M x 0 1 where
  row0 := ⟨-1, by omega⟩
  row1 := ⟨0, by omega⟩
  det := by omega
  signs := by decide
  falls := hx

variable {M x r0 r1 : Nat} {t0 t1 : Int}

theorem EuclidRows.next (h : EuclidRows M x r0 r1 t0 t1) (hr1 : 0 < r1) :
    EuclidRows M x r1 (r0 % r1) t1 (t0 - (r0 / r1 : Nat) * t1) := by
  have hr2 : ((r0 % r1 : Nat) : Int) = r0 - (r0 / r1 : Nat) * r1 := by
    rw [Int.natCast_emod, Int.emod_def, Int.mul_comm, Int.natCast_ediv]
  refine ⟨h.row1, ?_, ?_, ?_, Nat.mod_lt r0 hr1⟩
  · have hcomb : x * (t0 - (r0 / r1 : Nat) * t1) - (r0 % r1 : Nat) =
        x * t0 - r0 - (r0 / r1 : Nat) * (x * t1 - r1) := by rw [hr2]; grind
    exact hcomb ▸ Int.dvd_sub h.row0 (Int.dvd_mul_of_dvd_right h.row1)
  · have hdet : r1 * (t0 - (r0 / r1 : Nat) * t1) - (r0 % r1 : Nat) * t1 = -(r0 * t1 - r1 * t0 : Int) := by
      rw [hr2]; grind
    rw [hdet, Int.natAbs_neg, h.det]
  · have hsq : 0 ≤ ((r0 / r1 : Nat) : Int) * (t1 * t1) := Int.mul_nonneg (Int.natCast_nonneg _) (int_mul_self_nonneg t1)
    have hprod : t1 * (t0 - (r0 / r1 : Nat) * t1) = t0 * t1 - (r0 / r1 : Nat) * (t1 * t1) := by grind
    have hsigns := h.signs
    omega

theorem euclid_of_le {stop fuel : Nat} (h : r1 ≤ stop) : euclid stop fuel r0 r1 t0 t1 = (r1, t1) := by
  cases fuel
  case zero => rfl
  case succ => rw [euclid, if_pos h]

theorem euclid_succ_of_lt {stop fuel : Nat} (h : stop < r1) : euclid stop (fuel + 1) r0 r1 t0 t1 =
    euclid stop fuel r1 (r0 % r1) t1 (t0 - (r0 / r1 : Nat) * t1) := by
  rw [Nat.mod_eq_sub_div_mul, euclid, if_neg (Nat.not_le.2 h)]

/-- The loop ends within its fuel, at the first row whose remainder is within the bound. -/
theorem euclid_stops_at_row {stop : Nat} : ∀ {fuel r0 r1 : Nat} {t0 t1 : Int}, EuclidRows M x r0 r1 t0 t1 →
    stop < r0 → r0 * r1 < 2 ^ fuel → ∃ (s0 s1 : Nat) (u0 u1 : Int), euclid stop fuel r0 r1 t0 t1 = (s1, u1) ∧
      EuclidRows M x s0 s1 u0 u1 ∧ stop < s0 ∧ s1 ≤ stop
  | 0, r0, r1, t0, t1, h, hstop, hfuel => by
    have hr1 : r1 = 0 := eq_zero_of_mul_lt_one (Nat.zero_lt_of_lt hstop) hfuel
    exact ⟨r0, r1, t0, t1, rfl, h, hstop, by omega⟩
  | fuel + 1, r0, r1, t0, t1, h, hstop, hfuel => by
    rcases Nat.lt_or_ge stop r1 with hgt | hle
    · have hr1 : 0 < r1 := Nat.zero_lt_of_lt hgt
      rw [euclid_succ_of_lt hgt]
      exact euclid_stops_at_row (h.next hr1) hgt (mul_mod_lt_of_mul_lt hr1 (Nat.le_of_lt h.falls) hfuel)
    · exact ⟨r0, r1, t0, t1, euclid_of_le hle, h, hstop, hle⟩

/-! ## Bounded coprime pairs -/

/-- R66: the coprime pairs within a bound N whose residue modulo M is x. -/
structure BoundedFraction (N M x : Nat) (n d : Int) : Prop where
  num_le : n.natAbs ≤ N
  den_pos : 0 < d
  den_le : d.natAbs ≤ N
  coprime : Nat.gcd n.natAbs d.natAbs = 1
  residue : (M : Int) ∣ x * d - n

theorem zero_boundedFraction {N M : Nat} (hN : 0 < N) : BoundedFraction N M 0 0 1 :=
  ⟨Nat.zero_le N, Int.one_pos, hN, rfl, Int.dvd_zero _⟩

variable {N : Nat} {n d : Int}

/-- A divisor of M above 1 does not divide the denominator: it would divide the numerator too. -/
theorem BoundedFraction.not_dvd_den {p : Nat} (h : BoundedFraction N M x n d) (hp : 1 < p) (hpM : p ∣ M) :
    ¬ (p : Int) ∣ d := by
  intro hd
  have hxd : (p : Int) ∣ x * d := Int.dvd_mul_of_dvd_right hd
  have hres : (p : Int) ∣ x * d - n := Int.dvd_trans (Int.natCast_dvd_natCast.2 hpM) h.residue
  have hn : (p : Int) ∣ n := Int.sub_sub_self (x * d) n ▸ Int.dvd_sub hxd hres
  have hgcd : p ∣ Nat.gcd n.natAbs d.natAbs :=
    Nat.dvd_gcd (Int.natAbs_dvd_natAbs.2 hn) (Int.natAbs_dvd_natAbs.2 hd)
  rw [h.coprime, Nat.dvd_one] at hgcd
  omega

/-- Two pairs of the lattice x·t ≡ r mod M have a determinant that M divides. -/
theorem dvd_det {r t : Int} (hr : (M : Int) ∣ x * t - r) (hn : (M : Int) ∣ x * d - n) : (M : Int) ∣ n * t - r * d := by
  have hcomb : n * t - r * d = d * (x * t - r) - t * (x * d - n) := by grind
  exact hcomb ▸ Int.dvd_sub (Int.dvd_mul_of_dvd_right hr) (Int.dvd_mul_of_dvd_right hn)

/-- A determinant of entries within N that M divides is zero, where 2N² < M. -/
theorem det_eq_zero_of_bounded {r t : Int} (hM : 2 * (N * N) < M) (hdvd : (M : Int) ∣ n * t - r * d)
    (hn : n.natAbs ≤ N) (hd : d.natAbs ≤ N) (hr : r.natAbs ≤ N) (ht : t.natAbs ≤ N) : n * t - r * d = 0 := by
  apply Int.eq_zero_of_dvd_of_natAbs_lt_natAbs hdvd
  have hnt : n.natAbs * t.natAbs ≤ N * N := Nat.mul_le_mul hn ht
  have hrd : r.natAbs * d.natAbs ≤ N * N := Nat.mul_le_mul hr hd
  have hsub : (n * t - r * d).natAbs ≤ (n * t).natAbs + (r * d).natAbs := Int.natAbs_sub_le _ _
  rw [Int.natAbs_mul, Int.natAbs_mul] at hsub
  rw [Int.natAbs_natCast]
  omega

/-! ## The row at which the loop stops is the only candidate -/

/-- The two rows span the lattice: by Cramer's rule, since their determinant is ±M. -/
theorem EuclidRows.exists_combination (h : EuclidRows M x r0 r1 t0 t1) (hM : 0 < M) (hres : (M : Int) ∣ x * d - n) :
    ∃ a b : Int, n = a * r0 + b * r1 ∧ d = a * t0 + b * t1 := by
  obtain ⟨a, ha⟩ := dvd_det h.row1 hres
  obtain ⟨b, hb⟩ := dvd_det h.row0 hres
  have hM0 : (M : Int) ≠ 0 := by omega
  have hn : (r0 * t1 - r1 * t0) * n = M * (a * r0 - b * r1) := by grind
  have hd : (r0 * t1 - r1 * t0) * d = M * (a * t0 - b * t1) := by grind
  rcases Int.natAbs_eq_iff.1 h.det with hdet | hdet <;> rw [hdet] at hn hd
  · exact ⟨a, -b, Int.eq_of_mul_eq_mul_left hM0 (by grind), Int.eq_of_mul_eq_mul_left hM0 (by grind)⟩
  · exact ⟨-a, b, Int.eq_of_mul_eq_mul_left hM0 (by grind), Int.eq_of_mul_eq_mul_left hM0 (by grind)⟩

/-- Shares of one sign: the numerator is at least r0. -/
theorem le_natAbs_num_of_same_sign {a b : Int} (ha : a ≠ 0) (hab : 0 ≤ a * b) :
    r0 ≤ (a * r0 + b * r1).natAbs := by
  have hsame : 0 ≤ a * r0 * (b * r1) := by
    have hprod : a * r0 * (b * r1) = a * b * ((r0 * r1 : Nat) : Int) := by grind
    exact hprod ▸ Int.mul_nonneg hab (Int.natCast_nonneg _)
  rw [natAbs_add_of_mul_nonneg hsame, Int.natAbs_mul, Int.natAbs_natCast]
  exact Nat.le_trans (Nat.le_mul_of_pos_left r0 (Int.natAbs_pos.2 ha)) (Nat.le_add_right _ _)

/-- Shares of two signs: the denominator is at least t1, since the cofactors have two signs as well. -/
theorem EuclidRows.natAbs_le_den_of_mul_neg (h : EuclidRows M x r0 r1 t0 t1) {a b : Int} (hab : a * b < 0) :
    t1.natAbs ≤ (a * t0 + b * t1).natAbs := by
  have hsame : 0 ≤ a * t0 * (b * t1) := by
    have hprod : a * t0 * (b * t1) = a * b * (t0 * t1) := by grind
    exact hprod ▸ Int.mul_nonneg_of_nonpos_of_nonpos (Int.le_of_lt hab) h.signs
  have hb : b ≠ 0 := by
    rintro rfl
    rw [Int.mul_zero] at hab
    exact Int.lt_irrefl 0 hab
  rw [natAbs_add_of_mul_nonneg hsame, Int.natAbs_mul b]
  exact Nat.le_trans (Nat.le_mul_of_pos_left _ (Int.natAbs_pos.2 hb)) (Nat.le_add_left _ _)

/-- A bounded pair of the lattice is a multiple of the row at which the loop stops: with a share a ≠ 0 of the row before
it, either the numerator would be at least r0 > N, or t1 would be within N, and then the determinant a·M is too small. -/
theorem EuclidRows.coeff_eq_zero (h : EuclidRows M x r0 r1 t0 t1) (hM : 2 * (N * N) < M) (hr0 : N < r0) (hr1 : r1 ≤ N)
    {a b : Int} (hn : (a * r0 + b * r1).natAbs ≤ N) (hd : (a * t0 + b * t1).natAbs ≤ N) : a = 0 := by
  refine Classical.byContradiction fun ha => ?_
  rcases Int.lt_or_le (a * b) 0 with hab | hab
  · have hdet : (a * r0 + b * r1) * t1 - r1 * (a * t0 + b * t1) = a * (r0 * t1 - r1 * t0) := by grind
    have hdvd : (M : Int) ∣ r0 * t1 - r1 * t0 := Int.dvd_natAbs.1 (h.det ▸ Int.dvd_refl _)
    have hzero := det_eq_zero_of_bounded (r := r1) hM (hdet ▸ Int.dvd_mul_of_dvd_right hdvd) hn hd hr1
      (Nat.le_trans (h.natAbs_le_den_of_mul_neg hab) hd)
    have hne : (r0 * t1 - r1 * t0 : Int) ≠ 0 := Int.natAbs_pos.1 (h.det ▸ Nat.zero_lt_of_lt hM)
    exact Int.mul_ne_zero ha hne (hdet ▸ hzero)
  · exact Nat.not_le.2 hr0 (Nat.le_trans (le_natAbs_num_of_same_sign ha hab) hn)

/-- R66, uniqueness: a bounded coprime pair is the row at which the loop stops, up to sign. -/
theorem EuclidRows.eq_or_eq_neg (h : EuclidRows M x r0 r1 t0 t1) (hM : 2 * (N * N) < M) (hr0 : N < r0) (hr1 : r1 ≤ N)
    (hf : BoundedFraction N M x n d) : n = r1 ∧ d = t1 ∨ n = -r1 ∧ d = -t1 := by
  obtain ⟨a, b, hn, hd⟩ := h.exists_combination (Nat.zero_lt_of_lt hM) hf.residue
  obtain rfl : a = 0 := h.coeff_eq_zero hM hr0 hr1 (hn ▸ hf.num_le) (hd ▸ hf.den_le)
  rw [Int.zero_mul, Int.zero_add] at hn hd
  have hunit : b.natAbs ∣ 1 := hf.coprime ▸ Nat.dvd_gcd
    (Int.natAbs_dvd_natAbs.2 ⟨_, hn⟩) (Int.natAbs_dvd_natAbs.2 ⟨_, hd⟩)
  rcases Int.natAbs_eq_iff.1 (Nat.dvd_one.1 hunit) with rfl | rfl <;> omega

/-! ## The answer of `qdec` -/

/-- R65: the answer from the row at which the loop stops. -/
def answer (N r : Nat) (t : Int) : Int × Int × Bool :=
  if N < t.natAbs ∨ Nat.gcd r t.natAbs ≠ 1 then (0, 1, true)
  else if t < 0 then (-(r : Int), -t, false) else (r, t, false)

theorem answer_of_rejected (h : N < t1.natAbs ∨ Nat.gcd r1 t1.natAbs ≠ 1) : answer N r1 t1 = (0, 1, true) :=
  if_pos h

theorem answer_of_pos (ht : t1.natAbs ≤ N) (hgcd : Nat.gcd r1 t1.natAbs = 1) (hpos : 0 < t1) :
    answer N r1 t1 = (↑r1, t1, false) := by
  rw [answer, if_neg (by omega), if_neg (by omega)]

theorem answer_of_neg (ht : t1.natAbs ≤ N) (hgcd : Nat.gcd r1 t1.natAbs = 1) (hneg : t1 < 0) :
    answer N r1 t1 = (-↑r1, -t1, false) := by
  rw [answer, if_neg (by omega), if_pos hneg]

theorem two_pow_stepLimit_gt {idx : Nat} (hx : x < modulus idx) : modulus idx * x < 2 ^ stepLimit idx := by
  have hM := modulus_le_two_pow_modLog idx
  calc modulus idx * x ≤ 2 ^ modLog idx * 2 ^ modLog idx := Nat.mul_le_mul hM (Nat.le_trans (Nat.le_of_lt hx) hM)
    _ = 2 ^ (2 * modLog idx) := by rw [Nat.two_mul, Nat.pow_add]
    _ < 2 ^ stepLimit idx := Nat.pow_lt_pow_right Nat.one_lt_two (by unfold stepLimit; omega)

/-- The greatest common divisor of R65 has fuel enough for numbers within the decode bound. -/
theorem gcdFuel_eq_gcd_of_bounded {idx a b : Nat} (ha : a ≤ decodeBound idx) (hb : b ≤ decodeBound idx) :
    gcdFuel 200 a b = Nat.gcd a b := by
  have hN := two_mul_decodeBound_sq_lt (idx := idx)
  have hM := modulus_lt idx
  have hab : a * b ≤ decodeBound idx * decodeBound idx := Nat.mul_le_mul ha hb
  exact gcdFuel_succ_eq_gcd (f := 199) (by omega)

theorem reconstruct_eq_answer {idx : Nat} (hx : x < modulus idx) : ∃ (r0 r1 : Nat) (t0 t1 : Int),
    EuclidRows (modulus idx) x r0 r1 t0 t1 ∧ decodeBound idx < r0 ∧ r1 ≤ decodeBound idx ∧
      reconstruct idx x = answer (decodeBound idx) r1 t1 := by
  obtain ⟨r0, r1, t0, t1, heq, hrows, hr0, hr1⟩ :=
    euclid_stops_at_row (.initial hx) decodeBound_lt_modulus (two_pow_stepLimit_gt hx)
  refine ⟨r0, r1, t0, t1, hrows, hr0, hr1, ?_⟩
  rcases Nat.lt_or_ge (decodeBound idx) t1.natAbs with hlt | hle
  · rw [reconstruct, heq, if_pos (.inl hlt), answer_of_rejected (.inl hlt)]
  · simp only [reconstruct, heq, gcdFuel_eq_gcd_of_bounded hr1 hle, answer]

/-- The denominator of a pair that passes the tests of R65 is not zero: M would divide the numerator, which is then 1. -/
theorem EuclidRows.ne_zero_of_coprime (h : EuclidRows M x r0 r1 t0 t1) (hM : 1 < M)
    (hgcd : Nat.gcd r1 t1.natAbs = 1) : t1 ≠ 0 := by
  rintro rfl
  rw [Int.natAbs_zero, Nat.gcd_zero_right] at hgcd
  subst hgcd
  have hdvd : M ∣ ((x : Int) * 0 - (1 : Nat)).natAbs := Int.natAbs_dvd_natAbs.2 h.row1
  rw [Int.mul_zero] at hdvd
  exact Nat.ne_of_gt hM (Nat.dvd_one.1 hdvd)

/-- What the answer can be: a failure, or a bounded fraction of the residue. -/
theorem EuclidRows.answer_cases (h : EuclidRows M x r0 r1 t0 t1) (hM : 1 < M) (hr1 : r1 ≤ N) :
    answer N r1 t1 = (0, 1, true) ∨ ∃ n d, answer N r1 t1 = (n, d, false) ∧ BoundedFraction N M x n d := by
  rcases Nat.lt_or_ge N t1.natAbs with hlt | ht
  · exact .inl (answer_of_rejected (.inl hlt))
  by_cases hgcd : Nat.gcd r1 t1.natAbs = 1
  · right
    rcases Int.lt_or_gt_of_ne (h.ne_zero_of_coprime hM hgcd) with hneg | hpos
    · refine ⟨-r1, -t1, answer_of_neg ht hgcd hneg, ?_, by omega, ?_, ?_, ?_⟩
      · rwa [Int.natAbs_neg]
      · rwa [Int.natAbs_neg]
      · rwa [Int.natAbs_neg, Int.natAbs_neg]
      · have hres : (x : Int) * -t1 - -r1 = -(x * t1 - r1) := by grind
        exact hres ▸ Int.dvd_neg.2 h.row1
    · exact ⟨r1, t1, answer_of_pos ht hgcd hpos, hr1, hpos, ht, hgcd, h.row1⟩
  · exact .inl (answer_of_rejected (.inr hgcd))

theorem reconstruct_cases {idx : Nat} (hx : x < modulus idx) : reconstruct idx x = (0, 1, true) ∨
    ∃ n d, reconstruct idx x = (n, d, false) ∧ BoundedFraction (decodeBound idx) (modulus idx) x n d := by
  obtain ⟨r0, r1, t0, t1, hrows, -, hr1, heq⟩ := reconstruct_eq_answer hx
  rw [heq]
  exact hrows.answer_cases (Nat.lt_of_succ_lt (two_lt_modulus idx)) hr1

/-- R66: a returned denominator is never a multiple of p. -/
theorem not_dvd_reconstruct_den {idx : Nat} (hx : x < modulus idx) :
    ¬ ((primeOf idx).1 : Int) ∣ (reconstruct idx x).2.1 := by
  have hp := one_lt_prime idx
  have hpM := prime_dvd_modulus idx
  rcases reconstruct_cases hx with h | ⟨n, d, h, hf⟩ <;> rw [h]
  · exact (zero_boundedFraction Nat.one_pos).not_dvd_den hp hpM
  · exact hf.not_dvd_den hp hpM

/-- R66, completeness: `qdec` returns a bounded coprime pair of its residue. -/
theorem BoundedFraction.reconstruct_eq {idx : Nat} (hx : x < modulus idx)
    (hf : BoundedFraction (decodeBound idx) (modulus idx) x n d) : reconstruct idx x = (n, d, false) := by
  obtain ⟨r0, r1, t0, t1, hrows, hr0, hr1, heq⟩ := reconstruct_eq_answer hx
  have hden := hf.den_le
  have hpos := hf.den_pos
  have hgcd := hf.coprime
  rw [heq]
  rcases hrows.eq_or_eq_neg two_mul_decodeBound_sq_lt hr0 hr1 hf with ⟨rfl, rfl⟩ | ⟨rfl, rfl⟩
  · exact answer_of_pos hden hgcd hpos
  · rw [Int.natAbs_neg] at hden
    rw [Int.natAbs_neg, Int.natAbs_neg] at hgcd
    exact answer_of_neg hden hgcd (by omega)

end Sys2Proof.Rationals

open Sys2Proof.Machine Sys2Proof.Rationals

/-- Settles O22, since the row at which the Euclid loop stops is a pair of the residue's lattice. -/
theorem decodedRationalsAreCongruentToTheirResidue : Obligations.DecodedRationalsAreCongruentToTheirResidue := by
  unfold Obligations.DecodedRationalsAreCongruentToTheirResidue
  intro idx x n d failed _ hx heq
  rcases reconstruct_cases hx with h | ⟨n', d', h, hf⟩ <;> obtain ⟨rfl, rfl, rfl⟩ := heq.symm.trans h
  · exact ⟨fun _ => ⟨rfl, rfl⟩, nofun⟩
  · exact ⟨nofun, fun _ => ⟨hf.num_le, hf.den_pos, hf.den_le, hf.coprime, Int.emod_eq_zero_of_dvd hf.residue⟩⟩

/-- Settles O23, since two bounded pairs of the residue's lattice have determinant zero. -/
theorem everyBoundedFractionIsRecovered : Obligations.EveryBoundedFractionIsRecovered := by
  unfold Obligations.EveryBoundedFractionIsRecovered
  intro idx x _ hx
  refine ⟨fun n d hn hpos hd hgcd hres => BoundedFraction.reconstruct_eq hx
      ⟨hn, hpos, hd, hgcd, Int.dvd_of_emod_eq_zero hres⟩, fun hnone => ?_,
    fun hden => not_dvd_reconstruct_den hx (Int.dvd_of_emod_eq_zero hden),
    (zero_boundedFraction decodeBound_pos).reconstruct_eq (Nat.zero_lt_of_lt (two_lt_modulus idx))⟩
  rcases reconstruct_cases hx with h | ⟨n, d, _, hf⟩
  · exact h
  · exact absurd (Int.emod_eq_zero_of_dvd hf.residue) (hnone n d hf.num_le hf.den_pos hf.den_le hf.coprime)

end

section
/-! SUPPORT. What the statements about accesses, holds and walks share: tables rewritten entry by entry, lists with one
element replaced, and a step of the machine that takes place. -/

namespace Sys2Proof.Machine

open Sys2Proof.Safety

/-! ## Tables -/

theorem tset_tset {α : Type} (t : List (Nat × α)) (k : Nat) (x y : α) : tset (tset t k x) k y = tset t k y := by
  induction t with
  | nil => simp only [tset, if_true]
  | cons p r ih =>
    obtain ⟨j, z⟩ := p
    rcases Nat.lt_trichotomy j k with hlt | rfl | hgt
    · simp only [tset, if_neg (Nat.ne_of_lt hlt), if_neg (Nat.not_lt_of_lt hlt), ih]
    · simp only [tset, if_true]
    · simp only [tset, if_neg (Nat.ne_of_gt hgt), if_pos hgt, if_true]

@[simp] theorem State.setThr_setThr (s : State) (k : Nat) (x y : Thread) : (s.setThr k x).setThr k y = s.setThr k y := by
  simp only [State.setThr, tset_tset]

@[simp] theorem State.setBank_setBank (s : State) (k : Nat) (x y : Bank) : (s.setBank k x).setBank k y = s.setBank k y := by
  simp only [State.setBank, tset_tset]

/-- A table whose entries are rewritten one by one answers with the entry rewritten. -/
theorem tfind_map {α : Type} (f : Nat → α → α) (t : List (Nat × α)) (k : Nat) :
    tfind (t.map fun p => (p.1, f p.1 p.2)) k = (tfind t k).map (f k) := by
  induction t with
  | nil => rfl
  | cons p r ih =>
    obtain ⟨j, x⟩ := p
    simp only [List.map_cons, tfind, ih]
    split
    · subst_vars; rfl
    · rfl

/-- The same with a default that the rewriting keeps. -/
theorem tget_map {α : Type} (f : Nat → α → α) (t : List (Nat × α)) (k : Nat) (d : α) (hd : f k d = d) :
    tget (t.map fun p => (p.1, f p.1 p.2)) k d = f k (tget t k d) := by
  simp only [tget, tfind_map]
  cases tfind t k with
  | none => exact hd.symm
  | some x => rfl

theorem tfind_tdel {α : Type} (t : List (Nat × α)) (k j : Nat) :
    tfind (tdel t k) j = if j = k then none else tfind t j := by
  induction t with
  | nil => simp only [tdel, List.filter_nil, tfind, ite_self]
  | cons p r ih =>
    obtain ⟨i, x⟩ := p
    simp only [tdel] at ih
    by_cases hik : i = k
    · simp only [tdel, List.filter_cons, hik, bne_self_eq_false, Bool.false_eq_true, if_false, ih, tfind_cons]
      split <;> rfl
    · simp only [tdel, List.filter_cons, bne_iff_ne, ne_eq, hik, not_false_eq_true, if_true, tfind_cons, ih]
      by_cases hji : j = i
      · simp only [hji, if_true, hik, if_false]
      · simp only [hji, if_false]

/-! ## Lists -/

theorem mem_lupd {α : Type} {p : α → Bool} {f : α → α} {y : α} {l : List α} (h : y ∈ lupd p f l) :
    y ∈ l ∨ ∃ x ∈ l, y = f x := by
  induction l with
  | nil => exact absurd h List.not_mem_nil
  | cons x r ih =>
    simp only [lupd] at h
    split at h <;> rcases List.mem_cons.1 h with rfl | hr
    · exact .inr ⟨x, List.mem_cons_self, rfl⟩
    · exact .inl (List.mem_cons_of_mem _ hr)
    · exact .inl List.mem_cons_self
    · rcases ih hr with hy | ⟨z, hz, rfl⟩
      · exact .inl (List.mem_cons_of_mem _ hy)
      · exact .inr ⟨z, List.mem_cons_of_mem _ hz, rfl⟩

/-- A fold none of whose steps moves a state leaves it. -/
theorem foldl_eq_self {α β : Type} {f : β → α → β} {b : β} {l : List α} (h : ∀ x ∈ l, f b x = b) : l.foldl f b = b := by
  induction l with
  | nil => rfl
  | cons x r ih =>
    rw [List.foldl_cons, h x List.mem_cons_self]
    exact ih fun y hy => h y (List.mem_cons_of_mem _ hy)

/-- A property that every step of a fold keeps. -/
theorem foldl_keeps {α β : Type} {f : β → α → β} (P : β → Prop) (hf : ∀ b x, P b → P (f b x)) (l : List α) {b : β}
    (hb : P b) : P (l.foldl f b) := by
  induction l generalizing b with
  | nil => exact hb
  | cons x r ih => exact ih (hf b x hb)

/-! ## Steps of the machine -/

theorem event_of_running {name : String} {s t : State} (hf : s.fatal = none) :
    event name s (some t) = .next { t with did := .nothing } := by
  simp only [event, hf]

theorem happens_of_event {i : Instr} {s t : State} {name : String} (h : exec i s = event name s (some t)) :
    Happens i s t := fun hf => h.trans (event_of_running hf)

end Sys2Proof.Machine
end

section
/-! PROOFS. Instructions of one thread: an access put in flight (R71, R72, R93), fences and prefetches (R86, R320), and the
answers that hold instructions take (R321 to R326, R356). -/

namespace Sys2Proof.Machine

open Sys2Proof.Safety

/-! ## An instruction that has run -/

theorem ended_thr_cur (u : State) : (ended u).thr u.cur = { u.thr u.cur with pops := [], pushes := [] } := by
  unfold ended
  rcases settleChans_cases u u.cur with ⟨hp, hq, h⟩ | ⟨-, ⟨l, h, -⟩ | h⟩
  · rw [h]
    show u.thr u.cur = _
    generalize u.thr u.cur = x at hp hq
    cases x
    dsimp only at hp hq
    subst hp hq
    rfl
  · rw [h]
    exact State.thr_setThr_same ..
  · have ht := congrArg State.threads h.1
    show tget (settleChans u u.cur).threads _ _ = _
    rw [ht]
    exact State.thr_setThr_same ..

theorem ended_thr_other (u : State) {k : Nat} (hk : k ≠ u.cur) : (ended u).thr k = u.thr k := by
  have hset : (u.setThr u.cur (quiet (u.thr u.cur))).thr k = u.thr k := by rw [State.thr_setThr, if_neg hk]
  unfold ended
  rcases settleChans_cases u u.cur with ⟨-, -, h⟩ | ⟨-, ⟨l, h, -⟩ | h⟩
  · rw [h]; rfl
  · rw [h]; exact hset
  · have ht := congrArg State.threads h.1
    show tget (settleChans u u.cur).threads _ _ = _
    rw [ht]
    exact hset

theorem ended_reqs (u : State) :
    (ended u).reqs.map (fun r => { r with undo := none }) = u.reqs.map (fun r => { r with undo := none }) := by
  unfold ended
  rcases settleChans_cases u u.cur with ⟨-, -, h⟩ | ⟨-, ⟨l, h, hl⟩ | h⟩
  · rw [h]
  · rw [h]; exact hl
  · rw [h.1]; rfl

/-- All that settling an instruction's messages leaves to change. -/
theorem ended_eq (u : State) : ended u = { u with
    threads := (ended u).threads, did := .ran, reqs := (ended u).reqs, launches := (ended u).launches
    cores := (ended u).cores } := by
  unfold ended
  rcases settleChans_cases u u.cur with ⟨-, -, h⟩ | ⟨-, ⟨l, h, -⟩ | h⟩
  · rw [h]
  · rw [h]; rfl
  · rw [h.1]; rfl

theorem ended_core (u : State) (k : Nat) : (ended u).core k =
    { u.core k with inbox := ((ended u).core k).inbox, inboxDue := ((ended u).core k).inboxDue } := by
  have hcore : (ended u).core k = (settleChans u u.cur).core k := rfl
  rw [hcore]
  rcases settleChans_cases u u.cur with ⟨-, -, h⟩ | ⟨-, ⟨l, h, -⟩ | h⟩
  · rw [h]
  · rw [h]; rfl
  · exact h.2.1 k

theorem ended_launch (u : State) (l : Nat) :
    (ended u).launch l = { u.launch l with chans := ((ended u).launch l).chans } := by
  have hlaunch : (ended u).launch l = (settleChans u u.cur).launch l := rfl
  rw [hlaunch]
  rcases settleChans_cases u u.cur with ⟨-, -, h⟩ | ⟨-, ⟨q, h, -⟩ | h⟩
  · rw [h]
  · rw [h]; rfl
  · exact h.2.2 l

theorem ended_mem (u : State) : (ended u).mem = u.mem := by rw [ended_eq]

theorem guarded_of_true {s : State} {g : KReg} (hg : s.rk g = true) (m : M State) : guarded s g m = m := if_pos hg

theorem guarded_of_false {s : State} {g : KReg} (hg : s.rk g = false) (m : M State) : guarded s g m = .ok s :=
  if_neg (by rw [hg]; exact Bool.false_ne_true)

/-- The machine with an access of the running thread in flight, and the thread waiting for `w`. -/
theorem issue_wait_eq (s : State) (r : Req) (w : Option Wait) :
    (issue s r).updMe (fun u => { u with wait := w }) =
      { s.setThr s.cur { s.me with seq := s.me.seq + 1, wait := w } with
        reqs := s.reqs ++ [r], nextId := s.nextId + 1 } := by
  have hthr : (issue s r).thr s.cur = { s.me with seq := s.me.seq + 1 } := State.thr_setThr_same ..
  show (issue s r).setThr s.cur { (issue s r).thr s.cur with wait := w } = _
  rw [hthr]
  show State.mk .. = State.mk ..
  congr 1
  exact tset_tset ..

/-! ## Fences and prefetches -/

theorem engIdle_await {s : State} {eng : Bool} (h : eng = true → engIdle s = true) :
    await (!eng || engIdle s) .engine = .ok () := by
  cases eng with
  | false => rfl
  | true => rw [h rfl]; rfl

/-- R86: what a fence waits for is done, and nothing is left to report. -/
theorem fenceWait_ok {s : State} {sc : Scope} {eng : Bool} (hb : s.busy s.cur = false) (hf : s.me.failures = [])
    (hc : s.me.contain = []) (hs : s.me.stalls = []) (hp : placedWithin s sc = true)
    (he : eng = true → engIdle s = true) : fenceWait s sc eng = .ok () := by
  have hplain : plainReady s = .ok () := by simp only [plainReady, hb, hf, List.isEmpty_nil, Bool.false_eq_true, if_false, if_true]
  have hreports : messageReports s = .ok () := by simp only [messageReports, hc, hs, List.isEmpty_nil, Bool.and_self, if_true]
  simp only [fenceWait, hplain, hreports, hp, engIdle_await he]
  rfl

theorem fenceWait_drains {s : State} {sc : Scope} {eng : Bool} (hb : s.busy s.cur = true) :
    fenceWait s sc eng = .error .drain := by
  simp only [fenceWait, plainReady, hb, if_true]
  rfl

/-- A line asked for: the die's list of fills, the port's queue and the next number, nothing else. -/
theorem requestLine_eq (s : State) (die line port : Nat) (pre : Bool) : requestLine s die line port pre =
    { s with
      dies := (requestLine s die line port pre).dies
      ports := (requestLine s die line port pre).ports
      nextId := (requestLine s die line port pre).nextId } := by
  simp only [requestLine]
  split <;> rfl

theorem prefetchLine_eq (s : State) (p : Word) : prefetchLine s p =
    { s with
      dies := (prefetchLine s p).dies, ports := (prefetchLine s p).ports, nextId := (prefetchLine s p).nextId } := by
  simp only [prefetchLine]
  split
  · rfl
  · split
    · split
      · exact requestLine_eq ..
      · rfl
    · rfl

/-- R320: a prefetch runs to its end whatever it finds. -/
theorem exec_pf (a : SReg) (g : KReg) (s : State) : ∃ u : State, exec (.pf a g) s = .next (ended u) ∧
    u = { s with dies := u.dies, ports := u.ports, nextId := u.nextId } := by
  cases hg : s.rk g with
  | false => exact ⟨s, congrArg (run s) (guarded_of_false hg _), rfl⟩
  | true => exact ⟨prefetchLine s (s.rs a), congrArg (run s) (guarded_of_true hg _), prefetchLine_eq ..⟩

/-! ## Instructions that take an answer -/

theorem lvqPush_of_unpaired {s : State} {b : List Byte} (h : Unpaired s) : lvqPush s b = s :=
  if_neg (by rcases h with h | h <;> rw [h] <;> decide)

/-- An answer that has come is written, for a thread that acts for itself. -/
theorem withAnswer_words {s : State} {ws : List Word} {write : List Word → State → State} {ask : M State}
    (hu : Unpaired s) (hgot : s.me.got = some (.words ws)) :
    withAnswer s write ask = .ok (write ws (s.setThr s.cur { s.me with got := none })) := by
  have hrole : s.me.role ≠ .trailing := by rcases hu with h | h <;> rw [h] <;> decide
  have hu' : Unpaired (s.setThr s.cur { s.me with got := none }) := by
    rw [Unpaired, State.me, State.setThr_cur, State.thr_setThr_same]
    exact hu
  have hpush := lvqPush_of_unpaired (b := wordsBytes ws) hu'
  simp only [withAnswer, if_neg hrole, hgot]
  exact congrArg (fun x => (Except.ok (write ws x) : M State)) hpush

end Sys2Proof.Machine

open Sys2Proof.Machine Sys2Proof.Safety

/-- Settles O31, since issuing touches its own thread and the list of requests only, and settling an instruction's messages
only channels and inboxes. -/
theorem anIssuedAccessChangesNothingYet : Obligations.AnIssuedAccessChangesNothingYet := by
  unfold Obligations.AnIssuedAccessChangesNothingYet
  intro s r w
  dsimp only
  rw [issue_wait_eq]
  generalize hu : ({ s.setThr s.cur _ with reqs := s.reqs ++ [r], nextId := s.nextId + 1 } : State) = u
  have hcur : u.cur = s.cur := by rw [← hu]; rfl
  have hme : u.thr s.cur = { s.me with seq := s.me.seq + 1, wait := w } := by
    rw [← hu]; exact State.thr_setThr_same ..
  have hother : ∀ k, k ≠ s.cur → u.thr k = s.thr k := fun k hk => by
    rw [← hu]; exact (State.thr_setThr ..).trans (if_neg hk)
  refine ⟨?_, fun k hk => ?_, fun p => ?_, ?_, ?_, fun k => ?_, fun l => ?_⟩
  · rw [← hcur, ended_thr_cur, hcur, hme]
  · rw [ended_thr_other u (hcur ▸ hk), hother k hk]
  · rw [ended_mem, ← hu]; rfl
  · rw [ended_reqs, ← hu]
  · rw [ended_eq u, ← hu]; rfl
  · rw [ended_core, ← hu]; rfl
  · rw [ended_launch, ← hu]; rfl

/-- Settles O34: a fence that waits for nothing leaves everything, and all that a prefetch asks for is a line. -/
theorem fencesEndAndPrefetchIsHarmless : Obligations.FencesEndAndPrefetchIsHarmless := by
  unfold Obligations.FencesEndAndPrefetchIsHarmless
  intro sc a g s
  refine ⟨fun hg => ?_, fun hg hb hf hc hs hp => ⟨?_, fun he => ?_⟩, fun hg hb => ?_, ?_⟩
  · exact ⟨runsTo_same (congrArg (run s) (guarded_of_false hg _)), runsTo_same (congrArg (run s) (guarded_of_false hg _)),
      runsTo_same (congrArg (run s) (guarded_of_false hg _))⟩
  · refine runsTo_same (congrArg (run s) ((guarded_of_true hg _).trans ?_))
    rw [fenceWait_ok hb hf hc hs hp fun h => absurd h Bool.false_ne_true]; rfl
  · refine runsTo_same (congrArg (run s) ((guarded_of_true hg _).trans ?_))
    rw [fenceWait_ok hb hf hc hs hp fun _ => he]; rfl
  · have hdrain : (do fenceWait s sc false; .ok s : M State) = .error .drain := by rw [fenceWait_drains hb]; rfl
    exact congrArg (run s) ((guarded_of_true hg _).trans hdrain)
  · obtain ⟨u, hrun, hu⟩ := exec_pf a g s
    have hcur : u.cur = s.cur := by rw [hu]
    have hthr : ∀ k, u.thr k = s.thr k := fun k => by rw [hu]; rfl
    refine ⟨ended u, hrun, rfl, ?_, fun k hk => ?_, fun p => ?_⟩
    · rw [← hcur, ended_thr_cur, hthr, hcur]; rfl
    · rw [ended_thr_other u (hcur ▸ hk), hthr]
    · rw [ended_mem, hu]

end

section
/-! SUPPORT. The steps of an access at its home (spec/04_ordering.md R69 to R90): what replacing a request leaves of the
others, when nothing waits on a word, what a grant of the bank's port leaves, and the way of a part from its arrival to its
performance. -/

namespace Sys2Proof.Machine

open Sys2Proof.Safety

/-! ## Requests -/

theorem req_id {s : State} {id : Nat} {r : Req} (h : s.req id = some r) : r.id = id :=
  eq_of_beq (List.find?_some (p := fun r : Req => r.id == id) h)

theorem find?_lupd_id {f : Req → Req} (hf : ∀ r, (f r).id = r.id) (l : List Req) (id j : Nat) :
    (lupd (fun r => r.id == id) f l).find? (fun r => r.id == j) =
      if j = id then (l.find? fun r => r.id == id).map f else l.find? fun r => r.id == j := by
  induction l with
  | nil => simp only [lupd, List.find?_nil, Option.map_none, ite_self]
  | cons x r ih =>
    by_cases hx : x.id = id
    · by_cases hj : j = id
      · simp [lupd, hx, hj, hf]
      · have hxj : ¬x.id = j := fun h => hj (h.symm.trans hx)
        have hij : ¬id = j := fun h => hj h.symm
        simp [lupd, hx, hj, hf, hij]
    · by_cases hj : j = id
      · simp only [hj, if_true] at ih
        simp [lupd, hx, hj, ih]
      · simp only [hj, if_false] at ih
        simp [lupd, hx, hj, ih, List.find?_cons]

theorem State.req_updReq (s : State) (id : Nat) {f : Req → Req} (hf : ∀ r, (f r).id = r.id) (j : Nat) :
    (s.updReq id f).req j = if j = id then (s.req id).map f else s.req j :=
  find?_lupd_id hf s.reqs id j

theorem req_setStage (s : State) (id i : Nat) (g : Stage) (j : Nat) :
    (setStage s id i g).req j = if j = id then (s.req id).map (partAt · i g) else s.req j :=
  s.req_updReq (id := id) (f := (partAt · i g)) (fun _ => rfl) j

theorem req_setBuf (s : State) (id : Nat) (b : List Byte) (j : Nat) :
    (setBuf s id b).req j = if j = id then (s.req id).map ({ · with buf := b }) else s.req j :=
  s.req_updReq (id := id) (f := ({ · with buf := b })) (fun _ => rfl) j

theorem req_setStage_same {s : State} {id : Nat} {r : Req} (h : s.req id = some r) (i : Nat) (g : Stage) :
    (setStage s id i g).req id = some (partAt r i g) := by
  rw [req_setStage, if_pos rfl, h]; rfl

theorem req_setBuf_same {s : State} {id : Nat} {r : Req} (h : s.req id = some r) (b : List Byte) :
    (setBuf s id b).req id = some { r with buf := b } := by
  rw [req_setBuf, if_pos rfl, h]; rfl

theorem req_setStage_other (s : State) {id j : Nat} (h : j ≠ id) (i : Nat) (g : Stage) :
    (setStage s id i g).req j = s.req j := by rw [req_setStage, if_neg h]

theorem req_setBuf_other (s : State) {id j : Nat} (h : j ≠ id) (b : List Byte) : (setBuf s id b).req j = s.req j := by
  rw [req_setBuf, if_neg h]

/-- A request that is dropped is no request any more. -/
theorem req_dropped (s : State) (id : Nat) : ({ s with reqs := s.reqs.filter fun q => q.id != id } : State).req id = none := by
  refine List.find?_eq_none.2 fun x hx => ?_
  have := (List.mem_filter.1 hx).2
  simpa using this

/-- R75, R309: the first part of an access to fail gives it its fault. -/
theorem failPart_first {s : State} {r : Req} {i : Nat} (h : ∀ x, x < i → ∀ y, r.parts[x]? = some y → y.stage ≠ .failed)
    (f : FaultRec) : failPart s r i f = (setStage s r.id i .failed).updReq r.id ({ · with fault := some f }) := by
  have hnone : ((r.parts.take i).any fun p => p.stage == .failed) = false := by
    refine List.any_eq_false.2 fun p hp => ?_
    obtain ⟨x, hx⟩ := List.getElem?_of_mem hp
    rw [List.getElem?_take] at hx
    split at hx
    · exact fun hst => h x ‹_› p hx (eq_of_beq hst)
    · exact nomatch hx
  simp only [failPart, hnone, Bool.false_eq_true, if_false]

theorem req_failPart {s : State} {r : Req} {i : Nat} (hr : s.req r.id = some r)
    (h : ∀ x, x < i → ∀ y, r.parts[x]? = some y → y.stage ≠ .failed) (f : FaultRec) :
    (failPart s r i f).req r.id = some { partAt r i .failed with fault := some f } := by
  have hf := State.req_updReq (setStage s r.id i .failed) r.id (f := ({ · with fault := some f })) (fun _ => rfl) r.id
  rw [if_pos rfl, req_setStage_same hr] at hf
  rw [failPart_first h, hf]
  rfl

/-! ## Words on which nothing waits -/

theorem waitersOn_eq_nil {s : State} {w : Nat} :
    waitersOn s w = [] ↔ ∀ r ∈ s.reqs, ∀ p ∈ r.parts, p.ticket ≠ none → p.words.contains w = false := by
  simp only [waitersOn, List.flatten_eq_nil_iff, List.forall_mem_map, List.filterMap_eq_nil_iff]
  refine forall₂_congr fun r _ => ⟨fun h p hp ht => ?_, fun h x hx => ?_⟩
  · obtain ⟨i, hi, rfl⟩ := List.mem_iff_getElem.1 hp
    have hx := h (i, r.parts[i]) (List.mem_mapIdx.2 ⟨i, hi, rfl⟩)
    obtain ⟨t, ht⟩ := Option.ne_none_iff_exists'.1 ht
    simp only [ht] at hx
    simpa using hx
  · obtain ⟨i, hi, rfl⟩ := List.mem_mapIdx.1 hx
    have hp := h r.parts[i] (List.getElem_mem hi)
    split
    · rename_i t ht
      rw [if_neg (by rw [hp (by rw [ht]; exact Option.some_ne_none t)]; exact Bool.false_ne_true)]
    · rfl

theorem queuedOn_of_unwaited {s : State} {w : Nat} (h : waitersOn s w = []) (id : Nat) : queuedOn s id w = false := by
  refine List.any_eq_false.2 fun r hr => ?_
  simp only [Bool.and_eq_true, List.any_eq_true, not_and, not_exists]
  rintro - p hp ht hw
  rw [waitersOn_eq_nil.1 h r hr p hp (by simpa [Option.isSome_iff_ne_none] using ht)] at hw
  exact Bool.false_ne_true hw

/-- Where nothing waited on a word of `s`, nothing waits on it in `t`. -/
def StaysUnwaited (s t : State) : Prop := ∀ w, waitersOn s w = [] → waitersOn t w = []

theorem StaysUnwaited.of_reqs {s t : State} (h : t.reqs = s.reqs) : StaysUnwaited s t := fun w hw => by
  rw [waitersOn_eq_nil, h]
  exact waitersOn_eq_nil.1 hw

theorem StaysUnwaited.trans {s t u : State} (h : StaysUnwaited s t) (k : StaysUnwaited t u) : StaysUnwaited s u :=
  fun w hw => k w (h w hw)

/-- A request rewritten so that no part of it comes to wait. -/
theorem staysUnwaited_updReq (s : State) (id : Nat) {f : Req → Req}
    (hf : ∀ r, ∀ p ∈ (f r).parts, p.ticket ≠ none → p ∈ r.parts) : StaysUnwaited s (s.updReq id f) := by
  intro w hw
  refine waitersOn_eq_nil.2 fun r hr p hp ht => ?_
  rcases mem_lupd hr with hr | ⟨q, hq, rfl⟩
  · exact waitersOn_eq_nil.1 hw r hr p hp ht
  · exact waitersOn_eq_nil.1 hw q hq p (hf q p hp ht) ht

/-- The stages at which a part stands in no word's queue. -/
def Stage.unticketed (g : Stage) : Prop := ∀ p : Part, p.stage = g → p.ticket = none

theorem unticketed_done : Stage.done.unticketed := fun p h => by simp only [Part.ticket, h]
theorem unticketed_failed : Stage.failed.unticketed := fun p h => by simp only [Part.ticket, h]
theorem unticketed_granted : Stage.granted.unticketed := fun p h => by simp only [Part.ticket, h]

theorem staysUnwaited_setStage (s : State) (id i : Nat) {g : Stage} (hg : g.unticketed) :
    StaysUnwaited s (setStage s id i g) := by
  refine staysUnwaited_updReq s id fun r p hp ht => ?_
  obtain ⟨j, hj, rfl⟩ := List.mem_mapIdx.1 hp
  by_cases hji : j = i
  · rw [if_pos hji] at ht
    exact absurd (hg _ rfl) ht
  · rw [if_neg hji]
    exact List.getElem_mem hj

theorem staysUnwaited_setBuf (s : State) (id : Nat) (b : List Byte) : StaysUnwaited s (setBuf s id b) :=
  staysUnwaited_updReq s id fun _ _ hp _ => hp

theorem staysUnwaited_failPart (s : State) (r : Req) (i : Nat) (f : FaultRec) : StaysUnwaited s (failPart s r i f) :=
  (staysUnwaited_setStage s r.id i unticketed_failed).trans (staysUnwaited_updReq _ r.id fun _ _ hp _ => hp)

/-- A word on which nothing waits has nothing to be served. -/
theorem serve_unwaited {s : State} {w : Nat} (h : waitersOn s w = []) (home : Nat) : serve s home w = s := by
  simp only [serve, serveWord, h]
  rfl

theorem serveAfter_unwaited {s : State} {p : Part} (h : ∀ w ∈ p.words, waitersOn s w = []) (home : Nat) :
    serveAfter s home p = s := by
  refine foldl_eq_self fun w hw => ?_
  rw [serve_unwaited (h w hw), ite_self]

/-! ## A grant of the bank's port -/

/-- `t` is `s` after grants of banks: no reservation is another. -/
structure Granted (s t : State) : Prop where
  eq : t = { s with banks := t.banks }
  resv : ∀ k, (t.bank k).resv = (s.bank k).resv

theorem grantFor_granted (s : State) (h : Nat) (r : Req) (i : Nat) (p : Part) : Granted s (grantFor s h r i p) := by
  simp only [grantFor, takeGrant, State.updBank_eq]
  split
  · refine ⟨rfl, fun k => ?_⟩
    rw [State.setBank_setBank, State.bank_setBank, State.bank_setBank_same]
    split
    · subst_vars; rfl
    · rfl
  · exact ⟨rfl, fun _ => rfl⟩

variable {s t : State}

theorem Granted.resvOn (g : Granted s t) (h w : Nat) : resvOn t h w = resvOn s h w := by
  simp only [Machine.resvOn, g.resv]

theorem Granted.atomicOn (g : Granted s t) (h w : Nat) : atomicOn t h w = atomicOn s h w := by
  simp only [Machine.atomicOn, g.resv]

theorem Granted.loadPoison (g : Granted s t) (l : Nat) (p : Part) : loadPoison t l p = loadPoison s l p := by
  rw [g.eq]; rfl

theorem Granted.storePoison (g : Granted s t) (l : Nat) (p : Part) : storePoison t l p = storePoison s l p := by
  rw [g.eq]; rfl

theorem Granted.readPart (g : Granted s t) (r : Req) (p : Part) : readPart t r p = readPart s r p := by
  rw [g.eq]; rfl

theorem Granted.req (g : Granted s t) (j : Nat) : t.req j = s.req j := by rw [g.eq]; rfl
theorem Granted.reqs (g : Granted s t) : t.reqs = s.reqs := by rw [g.eq]
theorem Granted.tag (g : Granted s t) (n : Nat) : t.tag n = s.tag n := by rw [g.eq]; rfl
theorem Granted.mem (g : Granted s t) : t.mem = s.mem := by rw [g.eq]
theorem Granted.tags (g : Granted s t) : t.tags = s.tags := by rw [g.eq]
theorem Granted.thr (g : Granted s t) (k : Nat) : t.thr k = s.thr k := by rw [g.eq]; rfl
theorem Granted.cycle (g : Granted s t) : t.cycle = s.cycle := by rw [g.eq]

/-! ## The way of a part to its performance -/

/-- Part `i` of request `id` at its home bank in SRAM, with nothing in the queues of its words. -/
structure AtBank (s : State) (id i h : Nat) (r : Req) (p : Part) : Prop where
  req : s.req id = some r
  part : r.parts[i]? = some p
  home : homeTile s p.pa = some h
  sram : isSram p.pa = true
  unwaited : ∀ w ∈ p.words, waitersOn s w = []

/-- A part on its way that nothing of its own thread and no granule keeps from being performed. -/
structure Arrives (s : State) (i : Nat) (r : Req) (p : Part) : Prop where
  stage : p.stage = .waiting
  first : behindEarlier s r i p = false
  granule : granuleWait s r p = some s
  full : notFull s r p = false

theorem atomicOn_of_free {h w : Nat} (hr : resvOn s h w = none) : atomicOn s h w = none := by
  refine List.find?_eq_none.2 fun v hv hvw => List.find?_eq_none.1 hr v hv ?_
  exact (Bool.and_eq_true_iff.1 hvw).1

variable {id i h : Nat} {r : Req} {p : Part}

theorem mustQueue_of_passing (hk : r.kind.heldBack = false) : mustQueue s h r p = false := by
  simp only [mustQueue, hk, Bool.false_and]

/-- R89: words that nobody holds and nothing waits on hold nothing back. -/
theorem mustQueue_of_free (hr : ∀ w ∈ p.words, resvOn s h w = none) (hw : ∀ w ∈ p.words, waitersOn s w = []) :
    mustQueue s h r p = false := by
  have hheld : heldOff s h r p = false := by
    have hany : (p.words.any fun w => (resvOn s h w).isSome && !holds s h w r ||
        r.kind.ticketed && (atomicOn s h w).isSome) = false :=
      List.any_eq_false.2 fun w hmem => by
        rw [hr w hmem, atomicOn_of_free (hr w hmem)]
        simp
    rw [heldOff, hany, Bool.and_false]
  have hqueued : (p.words.any fun w => queuedOn s r.id w && !holds s h w r) = false :=
    List.any_eq_false.2 fun w hmem => by
      rw [queuedOn_of_unwaited (hw w hmem)]
      simp
  rw [mustQueue, hheld, hqueued, Bool.or_self, Bool.and_false]

theorem arrives_of_other_kind (hk : ∀ q, r.kind ≠ .sync q) (hst : p.stage = .waiting)
    (hb : behindEarlier s r i p = false) : Arrives s i r p where
  stage := hst
  first := hb
  granule := by
    simp only [granuleWait]
    split
    · exact absurd ‹_› (hk _)
    · rfl
  full := by
    unfold notFull
    split
    · exact absurd ‹_› (hk _)
    · rfl

/-- R82, R83: a synchronising load of a FULL granule goes on. -/
theorem arrives_of_full {q k : Nat} (hk : r.kind = .sync q) (ho : r.owner = .thread k) (hst : p.stage = .waiting)
    (hb : behindEarlier s r i p = false) (htag : 128 ≤ (s.tag (p.pa / 64)).toNat) : Arrives s i r p where
  stage := hst
  first := hb
  granule := by simp only [granuleWait, hk, ho, if_neg (Nat.not_lt.2 htag)]
  full := by simp only [notFull, hk, decide_eq_false (Nat.not_lt.2 htag)]

theorem needsGrant_of_ticketed (hk : r.kind.ticketed = true) : needsGrant s r p h = true := by
  simp only [needsGrant]
  split
  case h_4 => rfl
  all_goals
    rename_i hkind
    rw [hkind] at hk
    exact absurd hk Bool.false_ne_true

/-- R69, R171: a part that arrives, held back by nothing, takes its grant and is performed. -/
theorem AtBank.performed {s' t : State} (a : AtBank s id i h r p) (ha : Arrives s i r p) (hq : mustQueue s h r p = false)
    (hturn : needsGrant s r p h = false ∨ bankTurn s h r i = true)
    (hs : grantFor s h r i p = s') (ht : perform s' h r i p = t) (hw : StaysUnwaited s t) : Happens (.accessAtHome id i) s t := by
  have hpresent : present s p = true := by simp only [present, a.sram, Bool.true_or]
  have hticket : (r.kind.ticketed && !bankTurn s h r i) = false := by
    cases hk : r.kind.ticketed with
    | false => rfl
    | true =>
      rw [needsGrant_of_ticketed hk] at hturn
      rw [hturn.resolve_left Bool.noConfusion]
      rfl
  have hgrant : (needsGrant s r p h && !bankTurn s h r i) = false := by
    rcases hturn with hn | hb
    · rw [hn, Bool.false_and]
    · rw [hb, Bool.not_true, Bool.and_false]
  have harrive : arriveHere (grantFor s h r i p) h r i p = t := by
    rw [hs, arriveHere, if_pos a.sram, ht, serveAfter_unwaited fun w hmem => hw w (a.unwaited w hmem)]
  refine happens_of_event (name := "ACCESS_AT_HOME") (congrArg (event _ s) ?_)
  simp only [atHome, a.req, a.part, a.home, ha.stage, ha.first, ha.granule, ha.full, hq, hpresent, hticket, hgrant, harrive,
    Bool.not_true, Bool.and_false, Bool.false_eq_true, if_false]

end Sys2Proof.Machine
end

section
/-! SUPPORT. What a part reads and writes at its home (R69 to R72): the buffer after a load, memory after a store. -/

namespace Sys2Proof.Machine

open Sys2Proof.Safety

/-! ## A part's bytes read -/

theorem getD_foldl_set_other {f : Nat × Nat → Byte} {j : Nat} {l : List (Nat × Nat)} (h : ∀ m ∈ l, m.2 ≠ j)
    (b : List Byte) : (l.foldl (fun b m => b.set m.2 (f m)) b).getD j 0 = b.getD j 0 := by
  induction l generalizing b with
  | nil => rfl
  | cons m r ih =>
    rw [List.foldl_cons, ih (fun x hx => h x (List.mem_cons_of_mem _ hx)), List.getD_eq_getElem?_getD,
      List.getElem?_set_ne (h m List.mem_cons_self), ← List.getD_eq_getElem?_getD]

theorem getD_foldl_set_of_mem {f : Nat × Nat → Byte} {m : Nat × Nat} {l : List (Nat × Nat)}
    (hn : (l.map (·.2)).Nodup) (hm : m ∈ l) {b : List Byte} (hlt : m.2 < b.length) :
    (l.foldl (fun b m => b.set m.2 (f m)) b).getD m.2 0 = f m := by
  induction l generalizing b with
  | nil => exact absurd hm List.not_mem_nil
  | cons x r ih =>
    rw [List.map_cons, List.nodup_cons] at hn
    rw [List.foldl_cons]
    rcases List.mem_cons.1 hm with rfl | hr
    · rw [getD_foldl_set_other fun y hy he => hn.1 (List.mem_map.2 ⟨y, hy, he⟩), List.getD_eq_getElem?_getD,
        List.getElem?_set_self hlt]
      rfl
    · exact ih hn.2 hr (by rwa [List.length_set])

variable {s : State} {r : Req} {p : Part}

theorem length_readPart : (readPart s r p).length = r.buf.length :=
  foldl_keeps (fun b : List Byte => b.length = r.buf.length) (fun b m hb => by rw [List.length_set, hb]) p.moves rfl

theorem getD_readPart_other {j : Nat} (h : ∀ m ∈ p.moves, m.2 ≠ j) : (readPart s r p).getD j 0 = r.buf.getD j 0 :=
  getD_foldl_set_other h r.buf

theorem readAt_of_not_drawer {lid a : Nat} (h : isDrawer a = false) : readAt s lid a = readByte s.mem a := by
  simp only [readAt, shadowOf, h, Bool.false_eq_true, false_and, if_false]

theorem getD_readPart (hd : ∀ m ∈ p.moves, isDrawer m.1 = false) (hn : (p.moves.map (·.2)).Nodup) {m : Nat × Nat}
    (hm : m ∈ p.moves) (hlt : m.2 < r.buf.length) : (readPart s r p).getD m.2 0 = readByte s.mem m.1 :=
  (getD_foldl_set_of_mem (f := fun m => readAt s r.lid m.1) hn hm hlt).trans (readAt_of_not_drawer (hd m hm))

/-! ## A part's bytes written -/

/-- Bytes written at the addresses of moves, one after the other. -/
def writeMoves (m : List Host.Cell) (l : List ((Nat × Nat) × Byte)) : List Host.Cell :=
  l.foldl (fun m x => writeByte m x.1.1 x.2) m

theorem readByte_writeMoves_other {a : Nat} {l : List ((Nat × Nat) × Byte)} (hl : ∀ x ∈ l, x.1.1 ≠ a)
    {m : List Host.Cell} (h : Memory.wf m = true) : readByte (writeMoves m l) a = readByte m a := by
  induction l generalizing m with
  | nil => rfl
  | cons x r ih =>
    have hx := hl x List.mem_cons_self
    have hr := ih (fun y hy => hl y (List.mem_cons_of_mem _ hy)) (wf_writeByte x.1.1 x.2 h)
    rwa [readByte_writeByte h, if_neg hx.symm] at hr

theorem readByte_writeMoves_zip_other {a : Nat} {ms : List (Nat × Nat)} (hms : ∀ x ∈ ms, x.1 ≠ a) (data : List Byte)
    {m : List Host.Cell} (h : Memory.wf m = true) : readByte (writeMoves m (ms.zip data)) a = readByte m a :=
  readByte_writeMoves_other (fun x hx => hms x.1 (List.of_mem_zip hx).1) h

/-- At addresses that all differ, each byte holds its own value. -/
theorem readByte_writeMoves_zip {ms : List (Nat × Nat)} (hn : (ms.map (·.1)).Nodup) {data : List Byte}
    (hlen : data.length = ms.length) {j : Nat} {x : Nat × Nat} (hx : ms[j]? = some x) {m : List Host.Cell}
    (h : Memory.wf m = true) : readByte (writeMoves m (ms.zip data)) x.1 = data.getD j 0 := by
  induction ms generalizing data j m with
  | nil => exact nomatch hx
  | cons y r ih =>
    cases data with
    | nil => exact nomatch hlen
    | cons b ds =>
      rw [List.map_cons, List.nodup_cons] at hn
      have hw := wf_writeByte y.1 b h
      cases j with
      | zero =>
        obtain rfl : y = x := Option.some.inj hx
        have hrest := readByte_writeMoves_zip_other (fun z hz he => hn.1 (List.mem_map.2 ⟨z, hz, he⟩)) ds hw
        rw [readByte_writeByte h, if_pos rfl] at hrest
        exact hrest
      | succ n => exact ih hn.2 (Nat.succ.inj hlen) hx hw

theorem writeAt_of_not_drawer (s : State) (lid : Nat) {a : Nat} (b : Byte) (h : isDrawer a = false) :
    writeAt s lid a b = { s with mem := writeByte s.mem a b } := by
  simp only [writeAt, h, Bool.false_eq_true, false_and, if_false]

theorem foldl_writeAt (lid : Nat) {l : List ((Nat × Nat) × Byte)} (hl : ∀ x ∈ l, isDrawer x.1.1 = false) (s : State) :
    l.foldl (fun s x => writeAt s lid x.1.1 x.2) s = { s with mem := writeMoves s.mem l } := by
  induction l generalizing s with
  | nil => rfl
  | cons x r ih =>
    rw [List.foldl_cons, writeAt_of_not_drawer s lid x.2 (hl x List.mem_cons_self),
      ih fun y hy => hl y (List.mem_cons_of_mem _ hy)]
    rfl

/-- The first byte of a word of SRAM lies in SRAM as well. -/
theorem isDrawer_word (a : Nat) : isDrawer (8 * (a / 8)) = isDrawer a := by
  simp only [isDrawer, localOf]
  congr 1 <;> exact decide_eq_decide.2 (by omega)

theorem mem_words {w : Nat} : w ∈ p.words ↔ ∃ m ∈ p.moves, m.1 / 8 = w := by
  rw [Part.words, List.mem_eraseDups, List.mem_map]

theorem mendWord_of_not_drawer (s : State) (lid : Nat) {w : Nat} (h : isDrawer (8 * w) = false) :
    mendWord s lid w = { s with poison := s.poison.filter (· != w) } := by
  simp only [mendWord, shadowOf, h, Bool.false_eq_true, false_and, if_false, Option.isSome_none]

theorem foldl_mendWord (lid : Nat) {l : List Nat} (hl : ∀ w ∈ l, isDrawer (8 * w) = false) (s : State) :
    l.foldl (fun s w => mendWord s lid w) s =
      { s with poison := (l.foldl (fun s w => mendWord s lid w) s).poison } := by
  induction l generalizing s with
  | nil => rfl
  | cons w r ih =>
    rw [List.foldl_cons, mendWord_of_not_drawer s lid (hl w List.mem_cons_self),
      ih fun y hy => hl y (List.mem_cons_of_mem _ hy)]

/-- R69, R208: the bytes of a part outside the drawers go to memory, and mend the words that they cover. -/
theorem writePart_eq (s : State) (lid : Nat) (hd : ∀ m ∈ p.moves, isDrawer m.1 = false) (data : List Byte) :
    writePart s lid p data =
      { s with mem := writeMoves s.mem (p.moves.zip data), poison := (writePart s lid p data).poison } := by
  have hwords : ∀ w ∈ p.words.filter p.covers, isDrawer (8 * w) = false := fun w hw => by
    obtain ⟨m, hm, rfl⟩ := mem_words.1 (List.mem_filter.1 hw).1
    rw [isDrawer_word, hd m hm]
  rw [writePart, foldl_writeAt lid (fun x hx => hd x.1 (List.of_mem_zip hx).1), foldl_mendWord lid hwords]

/-- What a part writes is what its bytes of memory then read as. -/
theorem readByte_writePart (hm : MemOk s) (lid : Nat) (hd : ∀ m ∈ p.moves, isDrawer m.1 = false) {data : List Byte}
    (hlen : data.length = p.moves.length) (hn : (p.moves.map (·.1)).Nodup) {j : Nat} {m : Nat × Nat}
    (hj : p.moves[j]? = some m) : readByte (writePart s lid p data).mem m.1 = data.getD j 0 := by
  rw [writePart_eq s lid hd data]
  exact readByte_writeMoves_zip hn hlen hj hm.1

theorem readByte_writePart_other (hm : MemOk s) (lid : Nat) (hd : ∀ m ∈ p.moves, isDrawer m.1 = false) (data : List Byte)
    {a : Nat} (ha : ∀ m ∈ p.moves, m.1 ≠ a) : readByte (writePart s lid p data).mem a = readByte s.mem a := by
  rw [writePart_eq s lid hd data]
  exact readByte_writeMoves_zip_other ha data hm.1

theorem length_partBytes : (partBytes r p).length = p.moves.length := List.length_map _

theorem getD_partBytes {j : Nat} {m : Nat × Nat} (hj : p.moves[j]? = some m) :
    (partBytes r p).getD j 0 = r.buf.getD m.2 0 := by
  rw [partBytes, List.getD_eq_getElem?_getD, List.getElem?_map, hj]
  rfl

end Sys2Proof.Machine
end

section
/-! PROOFS. Loads, stores and synchronising loads at their homes (R69 to R72, R82, R83, R317). -/

namespace Sys2Proof.Machine

open Sys2Proof.Safety

variable {s t : State} {id i h k : Nat} {r : Req} {p : Part}

/-! ## What performance leaves -/

/-- Part `i` of `r` performed, with `b` in the request's buffer. -/
def loaded (s : State) (r : Req) (i : Nat) (g : Stage) (b : List Byte) : State := setStage (setBuf s r.id b) r.id i g

theorem perform_load (hk : r.kind = .load) (hp : loadPoison s r.lid p = false) :
    perform s h r i p = loaded s r i .done (readPart s r p) := by
  simp only [perform, hk, hp, Bool.false_eq_true, if_false]
  rfl

theorem perform_sync_other {q : Nat} (hk : r.kind = .sync q) (hfull : 128 ≤ (s.tag (p.pa / 64)).toNat)
    (hq : (s.tag (p.pa / 64)).toNat % 128 ≠ q) :
    perform s h r i p = failPart s r i ⟨.sched, (s.tag (p.pa / 64)).toNat, p.va, none, false⟩ := by
  simp only [perform, hk, if_neg (Nat.not_lt.2 hfull), if_pos hq]

theorem perform_sync {q : Nat} (hk : r.kind = .sync q) (hfull : 128 ≤ (s.tag (p.pa / 64)).toNat)
    (hq : (s.tag (p.pa / 64)).toNat % 128 = q) (hp : loadPoison s r.lid p = false) :
    perform s h r i p = loaded s r i .done (readPart s r p) := by
  simp only [perform, hk, if_neg (Nat.not_lt.2 hfull), if_neg (not_not_intro hq), hp, Bool.false_eq_true, if_false]
  rfl

theorem req_loaded (hr : s.req r.id = some r) (g : Stage) (b : List Byte) :
    (loaded s r i g b).req r.id = some { partAt r i g with buf := b } :=
  req_setStage_same (req_setBuf_same hr b) i g

theorem req_loaded_other (g : Stage) (b : List Byte) {j : Nat} (hj : j ≠ r.id) : (loaded s r i g b).req j = s.req j := by
  rw [loaded, req_setStage_other _ hj, req_setBuf_other _ hj]

theorem staysUnwaited_loaded {g : Stage} (hg : g.unticketed) (b : List Byte) : StaysUnwaited s (loaded s r i g b) :=
  (staysUnwaited_setBuf s r.id b).trans (staysUnwaited_setStage _ r.id i hg)

theorem holds_of_free {w : Nat} (hr : resvOn s h w = none) : holds s h w r = false := by
  simp only [holds, hr]

/-- R89: no word of a part is held: its store ends no reservation. -/
theorem foldl_dropResv_of_free {l : List Nat} (hr : ∀ w ∈ l, resvOn s h w = none) :
    l.foldl (fun s w => if holds s h w r && !r.rlx then dropResv s h w else s) s = s := by
  refine foldl_eq_self fun w hw => ?_
  rw [holds_of_free (hr w hw)]
  rfl

theorem stampBeat_of_thread (ho : r.owner = .thread k) : stampBeat s r p = s := by
  simp only [stampBeat, ho]

/-- Part `i` of `r` performed, its bytes written. -/
def stored' (s : State) (r : Req) (i : Nat) (p : Part) (data : List Byte) : State :=
  setStage (writePart s r.lid p data) r.id i .done

theorem writePart_banks (s : State) (lid : Nat) (hd : ∀ m ∈ p.moves, isDrawer m.1 = false) (data : List Byte) :
    (writePart s lid p data).banks = s.banks := by rw [writePart_eq s lid hd data]

theorem perform_store (hk : r.kind = .store) (ho : r.owner = .thread k) (hd : ∀ m ∈ p.moves, isDrawer m.1 = false)
    (hr : ∀ w ∈ p.words, resvOn s h w = none) (hp : storePoison s r.lid p = false) :
    perform s h r i p = stored' s r i p (partBytes r p) := by
  have hfree : ∀ w ∈ p.words, resvOn (stored' s r i p (partBytes r p)) h w = none := fun w hw => by
    have hb : (stored' s r i p (partBytes r p)).banks = s.banks := writePart_banks s r.lid hd _
    rw [← hr w hw]
    simp only [resvOn, State.bank, hb]
  simp only [perform, hk, hp, Bool.false_eq_true, if_false, stampBeat_of_thread ho]
  exact foldl_dropResv_of_free hfree

/-- What a part's performance writes, and all that it does. -/
theorem stored'_eq (hd : ∀ m ∈ p.moves, isDrawer m.1 = false) (data : List Byte) :
    stored' s r i p data = { s with
      reqs := (setStage s r.id i .done).reqs
      mem := writeMoves s.mem (p.moves.zip data)
      poison := (writePart s r.lid p data).poison } := by
  rw [stored', writePart_eq s r.lid hd data]
  rfl

theorem staysUnwaited_stored' (hd : ∀ m ∈ p.moves, isDrawer m.1 = false) (data : List Byte) :
    StaysUnwaited s (stored' s r i p data) :=
  (staysUnwaited_setStage s r.id i unticketed_done).trans (.of_reqs (by rw [stored'_eq hd data]))

theorem req_stored' (hd : ∀ m ∈ p.moves, isDrawer m.1 = false) (data : List Byte) (j : Nat) :
    (stored' s r i p data).req j = (setStage s r.id i .done).req j := by
  rw [stored'_eq hd data]
  rfl

theorem Granted.memOk (g : Granted s t) (hm : MemOk s) : MemOk t := by
  rw [g.eq]
  exact hm

/-! ## The clauses -/

theorem loadsArePerformed : Clauses.LoadsArePerformed := by
  intro s id i h r p hreq hpart hst hhome hd hsram hb hturn hw hk hp
  obtain rfl := req_id hreq
  have g := grantFor_granted s h r i p
  generalize hs' : grantFor s h r i p = s' at g
  have a : AtBank s r.id i h r p := ⟨hreq, hpart, hhome, hsram, fun w hmem => (hw w hmem).2⟩
  have hperform : perform s' h r i p = loaded s' r i .done (readPart s r p) := by
    rw [perform_load hk ((g.loadPoison ..).trans hp), g.readPart]
  refine ⟨loaded s' r i .done (readPart s r p), readPart s r p, ?_, ?_, ?_, fun j hj => ?_, length_readPart,
    fun hn m hm hlt => getD_readPart hd hn hm (length_readPart (s := s) ▸ hlt), fun j _ hj => getD_readPart_other hj⟩
  · refine a.performed (arrives_of_other_kind (fun q => hk ▸ ReqKind.noConfusion) hst hb)
      (mustQueue_of_passing (hk ▸ rfl)) hturn hs' hperform ?_
    exact (StaysUnwaited.of_reqs g.reqs).trans (staysUnwaited_loaded unticketed_done _)
  · rw [g.eq]; rfl
  · exact req_loaded ((g.req _).trans hreq) ..
  · rw [req_loaded_other _ _ hj, g.req]

theorem storesArePerformed : Clauses.StoresArePerformed := by
  intro s id i h k r p hm hreq hpart hst hhome hd hsram hb hturn hw hk ho hp
  obtain rfl := req_id hreq
  have g := grantFor_granted s h r i p
  generalize hs' : grantFor s h r i p = s' at g
  have a : AtBank s r.id i h r p := ⟨hreq, hpart, hhome, hsram, fun w hmem => (hw w hmem).2⟩
  have hperform : perform s' h r i p = stored' s' r i p (partBytes r p) :=
    perform_store hk ho hd (fun w hmem => (g.resvOn ..).trans (hw w hmem).1) ((g.storePoison ..).trans hp)
  have hm' := g.memOk hm
  refine ⟨stored' s' r i p (partBytes r p), ?_, ?_, ?_, fun j hj => ?_, fun hn m hmem => ?_, fun x hx => ?_⟩
  · refine a.performed (arrives_of_other_kind (fun q => hk ▸ ReqKind.noConfusion) hst hb)
      (mustQueue_of_free (fun w hmem => (hw w hmem).1) a.unwaited) hturn hs' hperform ?_
    exact (StaysUnwaited.of_reqs g.reqs).trans (staysUnwaited_stored' hd _)
  · rw [stored'_eq hd, g.eq]
  · rw [req_stored' hd]
    exact req_setStage_same ((g.req _).trans hreq) ..
  · rw [req_stored' hd, req_setStage_other _ hj, g.req]
  · obtain ⟨j, hj⟩ := List.getElem?_of_mem hmem
    rw [← getD_partBytes (r := r) hj]
    exact readByte_writePart hm' r.lid hd length_partBytes hn hj
  · rw [← g.mem]
    exact readByte_writePart_other hm' r.lid hd _ hx

theorem synchronisingLoadsMeetTheTag : Clauses.SynchronisingLoadsMeetTheTag := by
  intro s id i h k q r p hreq hpart hst hhome hsram hb hturn hk ho hw hfirst
  obtain rfl := req_id hreq
  dsimp only
  have g := grantFor_granted s h r i p
  generalize hs' : grantFor s h r i p = s' at g
  have a : AtBank s r.id i h r p := ⟨hreq, hpart, hhome, hsram, fun w hmem => (hw w hmem).2⟩
  have hpass : mustQueue s h r p = false := mustQueue_of_passing (hk ▸ rfl)
  have htag := g.tag (p.pa / 64)
  refine ⟨fun hempty hwait => ?_, fun hfull hq => ?_, fun hfull hq hp => ?_⟩
  · have hgran : granuleWait s r p = some (s.updThr k fun t => { t with wait := some .granule }) := by
      simp only [granuleWait, hk, ho, if_pos hempty, if_neg hwait]
    have hnot : notFull s r p = true := by simp only [notFull, hk, decide_eq_true hempty]
    refine happens_of_event (name := "ACCESS_AT_HOME") (congrArg (event _ s) ?_)
    simp only [atHome, hreq, hpart, hhome, hst, hb, hgran, hnot, Bool.false_eq_true, if_false, if_true]
  · have hperform := perform_sync_other (s := s') (h := h) (i := i) (p := p) hk (htag.symm ▸ hfull) (htag.symm ▸ hq)
    rw [htag] at hperform
    refine ⟨_, a.performed (arrives_of_full hk ho hst hb hfull) hpass (.inr hturn) hs' hperform
      ((StaysUnwaited.of_reqs g.reqs).trans (staysUnwaited_failPart s' r i _)), g.mem, ?_⟩
    exact req_failPart ((g.req _).trans hreq) hfirst _
  · have hperform := perform_sync (s := s') (h := h) (i := i) (p := p) hk (htag.symm ▸ hfull) (htag.symm ▸ hq)
      ((g.loadPoison ..).trans hp)
    exact ⟨_, _, a.performed (arrives_of_full hk ho hst hb hfull) hpass (.inr hturn) hs' hperform
      ((StaysUnwaited.of_reqs g.reqs).trans (staysUnwaited_loaded unticketed_done _)), g.mem, g.tags,
      req_loaded ((g.req _).trans hreq) ..⟩

end Sys2Proof.Machine
end

section
/-! PROOFS. What comes back to a thread, and what ends by itself: values and acknowledgements (R72, R73, R75), combining
entries (R74), atomic reservations (R90), deferred requests (R105). -/

namespace Sys2Proof.Machine

open Sys2Proof.Safety

variable {s t : State} {id key : Nat} {r : Req} {u : Undo}

/-! ## Values -/

theorem endStep_eq (s : State) (key : Nat) : endStep s key = { s with cores := (endStep s key).cores } := by
  simp only [endStep]
  split <;> rfl

theorem notePerformed_eq (s : State) (r : Req) :
    notePerformed s r = { s with launches := (notePerformed s r).launches } := by
  simp only [notePerformed]
  split
  · split <;> rfl
  · rfl

theorem notePerformed_of_replayable (hu : r.undo = some u) (hn : u.nrpl = false) : notePerformed s r = s := by
  simp only [notePerformed, hu]
  split
  · obtain rfl := Option.some.inj ‹_›
    rw [hn]
    rfl
  · rfl

theorem notePerformed_of_fault {f : FaultRec} (hf : r.fault = some f) : notePerformed s r = s := by
  simp only [notePerformed, hf]

/-- A plain access that returns a value to a thread that still waits for it. -/
structure Awaited (s : State) (id key : Nat) (r : Req) (u : Undo) : Prop where
  req : s.req id = some r
  shown : presented s id = false
  owner : r.owner = .thread key
  returns : r.kind.acked = false
  settled : r.settled = true
  live : (s.thr key).live = true
  lid : r.lid = lidOf s (tileOf key)
  born : (s.thr key).born ≤ r.seq
  undo : r.undo = some u

/-- R72: a scalar value that has come is written and its instruction ends. -/
theorem Awaited.value (a : Awaited s id key r u) (hf : r.fault = none) {d bits : Nat} {sgn : Bool}
    (hfin : r.fin = .scalar d bits sgn) : loadReturn s id = some
      (endAccess (lvqFill (finishLoad (notePerformed (dropReq s id) r) key r.fin r.buf) key id r.buf) key r u) := by
  have hn := notePerformed_eq (dropReq s id) r
  have hthr : (notePerformed (dropReq s id) r).thr key = s.thr key := by rw [hn]; rfl
  have hlid : r.lid = lidOf (notePerformed (dropReq s id) r) (tileOf key) := by rw [hn]; exact a.lid
  have hgone : (!((notePerformed (dropReq s id) r).thr key).live ||
      r.lid != lidOf (notePerformed (dropReq s id) r) (tileOf key) ||
      decide (r.seq < ((notePerformed (dropReq s id) r).thr key).born)) = false := by
    rw [hthr, a.live, ← hlid, bne_self_eq_false, decide_eq_false (Nat.not_lt.2 a.born)]
    rfl
  unfold dropReq at hgone ⊢
  simp only [loadReturn, a.req, a.owner, a.returns, a.settled, hgone, hf, a.undo, hfin, Bool.not_true, Bool.or_self,
    Bool.false_eq_true, if_false]

/-- R75: the failure of a plain access comes back. -/
theorem Awaited.failure (a : Awaited s id key r u) {f : FaultRec} (hf : r.fault = some f) :
    loadReturn s id = some (accessFails (dropReq s id) key r u f) := by
  have hgone : (!((dropReq s id).thr key).live || r.lid != lidOf (dropReq s id) (tileOf key) ||
      decide (r.seq < ((dropReq s id).thr key).born)) = false := by
    have hlid : r.lid = lidOf (dropReq s id) (tileOf key) := a.lid
    rw [← hlid, bne_self_eq_false, show (dropReq s id).thr key = s.thr key from rfl, a.live,
      decide_eq_false (Nat.not_lt.2 a.born)]
    rfl
  unfold dropReq at hgone ⊢
  simp only [loadReturn, a.req, a.owner, a.returns, a.settled, notePerformed_of_fault hf, hgone, hf, a.undo, Bool.not_true,
    Bool.or_self, Bool.false_eq_true, if_false]

theorem Awaited.exec (a : Awaited s id key r u) (h : loadReturn s id = some t) :
    exec (.loadValueReturn id) s = event "LOAD_VALUE_RETURN" s (some t) := by
  refine congrArg (event _ s) ?_
  rw [a.shown, if_neg Bool.false_ne_true, h]

/-- The scalar that a load of `bits` bits writes (R311). -/
def loadedScalar (bits : Nat) (sgn : Bool) (b : List Byte) : Word :=
  if sgn then BitVec.ofInt 64 (sgnN bits (leNat b)) else BitVec.ofNat 64 (leNat b % 2 ^ bits)

/-- The end of a scalar load of a thread on its own, whose instruction moved no message and left nothing to the SFU. -/
theorem endAccess_scalar (hrole : (s.thr key).role = .alone) (hsfu : sfuPending s key = false) (hpop : u.pops = [])
    (hpush : u.pushes = []) (d bits : Nat) (sgn : Bool) (b : List Byte) :
    endAccess (lvqFill (finishLoad s key (.scalar d bits sgn) b) key id b) key r u =
      endStep (s.updThr key fun t => { t with regs := t.regs.ws d (loadedScalar bits sgn b), wait := none }) key := by
  have hfill : lvqFill (finishLoad s key (.scalar d bits sgn) b) key id b = finishLoad s key (.scalar d bits sgn) b := by
    refine if_neg ?_
    simp only [finishLoad, State.updThr_eq, State.thr_setThr_same, hrole]
    exact PairRole.noConfusion
  have hpend : sfuPending (finishLoad s key (.scalar d bits sgn) b) key = false := hsfu
  simp only [endAccess, hfill, hpop, hpush, List.foldl_nil, hpend, Bool.false_eq_true, if_false]
  simp only [finishLoad, State.updThr_eq, State.thr_setThr_same, State.setThr_setThr]
  rfl

/-! ## Failures -/

theorem dropSfu_eq (hsfu : sfuPending s key = false) : ∃ q, dropSfu s key = { s with quads := q } := by
  simp only [sfuPending, Bool.or_eq_false_iff, List.any_eq_false] at hsfu
  obtain ⟨hqueue, hserve⟩ := hsfu
  have hmine : (((s.quad (quadOf (tileOf key))).queue ++ (s.quad (quadOf (tileOf key))).serving.map (·.1)).filter
      fun x => x.key == key) = [] := by
    refine List.filter_eq_nil_iff.2 fun x hx => ?_
    rcases List.mem_append.1 hx with hq | hv
    · exact hqueue x hq
    · obtain ⟨y, hy, rfl⟩ := List.mem_map.1 hv
      exact hserve y hy
  simp only [dropSfu, hmine, List.foldl_nil]
  exact ⟨_, rfl⟩

/-- R75, R197: an instruction that moved no message is taken back: its own thread stands at it again. -/
theorem takeBack_eq (hsfu : sfuPending s key = false) (hpop : u.pops = []) (hpush : u.pushes = []) {d bits : Nat}
    {sgn : Bool} (hfin : r.fin = .scalar d bits sgn) : ∃ (x : Thread) (q : List (Nat × Quad)),
      takeBack s key r u = { s.setThr key x with quads := q } ∧ x.pc = u.pc ∧ x.regs = u.regs ∧ x.fpflags = u.flags ∧
        x.qprime = u.qprime ∧ x.live = (s.thr key).live ∧ x.born = (s.thr key).born ∧
        x.trapcause = (s.thr key).trapcause := by
  unfold takeBack
  simp only [hpop, hpush, hfin, Finish.chan, List.foldr_nil, List.foldl_nil, State.updThr_eq]
  obtain ⟨q, hq⟩ := dropSfu_eq (s := s.setThr key _) hsfu
  exact ⟨_, q, hq, rfl, rfl, rfl, rfl, rfl, rfl, rfl⟩

/-- An imprecise report depends on the rings of cores and on who lives in which slot. -/
theorem impreciseDue_congr (hcores : t.cores = s.cores) (hcycle : t.cycle = s.cycle)
    (hthr : ∀ j, (t.thr j).live = (s.thr j).live ∧ (t.thr j).born = (s.thr j).born ∧
      (t.thr j).trapcause = (s.thr j).trapcause) (key : Nat) : impreciseDue t key = impreciseDue s key := by
  have hcore : ∀ n, t.core n = s.core n := fun n => by simp only [State.core, hcores, hcycle]
  have hpusher : ∀ n e, pusherLive t n e = pusherLive s n e := fun n e => by
    simp only [pusherLive, (hthr _).1, (hthr _).2.1]
  have hpending : pendingImprecise t key = pendingImprecise s key := by
    simp only [pendingImprecise, hcore, hpusher]
  simp only [impreciseDue, hpending, Thread.act, (hthr key).2.2]

theorem loadValuesReturn : Clauses.LoadValuesReturn := by
  intro s id key d bits sgn r u hreq hshown ho hset hlive hlid hborn hrole hsfu hk hfin hu hpop hpush hn
  have a : Awaited s id key r u := ⟨hreq, hshown, ho, hk ▸ rfl, hset, hlive, hlid, hborn, hu⟩
  refine ⟨fun hf => ?_, fun f hf himp hstop => ?_⟩
  · have hend := endAccess_scalar (s := dropReq s id) (id := id) (r := r) hrole hsfu hpop hpush d bits sgn r.buf
    have hvalue := a.value hf hfin
    rw [notePerformed_of_replayable hu hn, hfin, hend] at hvalue
    exact happens_of_event (a.exec hvalue)
  · obtain ⟨x, q, hback, hpc, hregs, hflags, hqprime, hxlive, hxborn, hxcause⟩ :=
      takeBack_eq (s := dropReq s id) (r := r) hsfu hpop hpush hfin
    have hthr : ∀ j, (takeBack (dropReq s id) key r u).thr j = if j = key then x else s.thr j := fun j => by
      rw [hback]
      exact State.thr_setThr ..
    have hdue : impreciseDue (takeBack (dropReq s id) key r u) key = false := by
      rw [← himp]
      refine impreciseDue_congr (by rw [hback]; rfl) (by rw [hback]; rfl) (fun j => ?_) key
      rw [hthr]
      split
      · subst_vars
        exact ⟨hxlive, hxborn, hxcause⟩
      · exact ⟨rfl, rfl, rfl⟩
    have hgo : stopped (takeBack (dropReq s id) key r u) key = false := by rw [hback]; exact hstop
    have hfail : accessFails (dropReq s id) key r u f = takeFault (takeBack (dropReq s id) key r u) key f := by
      simp only [accessFails, hdue, hgo, Bool.false_eq_true, if_false]
    have hkey := (hthr key).trans (if_pos rfl)
    refine ⟨_, takeBack (dropReq s id) key r u, happens_of_event (a.exec ((a.failure hf).trans (congrArg some hfail))), rfl,
      by rw [hback]; rfl, ?_, ?_, ?_, ?_⟩ <;> rw [hkey] <;> assumption

/-! ## Acknowledgements -/

theorem storesAreAcknowledged : Clauses.StoresAreAcknowledged := by
  intro s id key r hreq ho hk hset
  refine ⟨fun hf => ?_, fun f hf hlid hborn => ?_⟩ <;>
    refine happens_of_event (name := "STORE_ACK") (congrArg (event _ s) ?_)
  · simp only [storeAck, hreq, ho, hk, hset, hf, Bool.not_true, Bool.or_self, Bool.false_eq_true, if_false]
  · have hgone : ¬(r.lid ≠ lidOf (dropReq s id) (tileOf key) ∨ r.seq < ((dropReq s id).thr key).born) :=
      not_or.2 ⟨not_not_intro hlid, Nat.not_lt.2 hborn⟩
    simp only [storeAck, hreq, ho, hk, hset, hf, Bool.not_true, Bool.or_self, Bool.false_eq_true, if_false]
    exact if_neg hgone

/-! ## Combining entries -/

theorem combiningEntriesDrain : Clauses.CombiningEntriesDrain := by
  intro s tile slot c
  dsimp only
  intro hc hage
  refine happens_of_event (name := "COMBINING_ENTRY_TIMEOUT") (congrArg (event _ s) ?_)
  simp only [hc, List.any_cons, List.any_nil, Bool.or_false, beq_self_eq_true, Bool.true_and, decide_eq_true hage, if_true,
    drainWhere, List.foldl_cons, List.foldl_nil, State.updThr_eq, List.filter_cons, List.filter_nil, Bool.not_true,
    Bool.false_eq_true, if_false]

/-! ## Atomic reservations -/

/-- A thread whose reservation on a word has ended. -/
def unreserve (word : Nat) (x : Thread) : Thread := if x.reserved = some word then { x with reserved := none } else x

theorem thr_dropResv (s : State) (h w k : Nat) : (dropResv s h w).thr k = unreserve w (s.thr k) := by
  have hmap := tget_map (fun _ x => unreserve w x) s.threads k .reset rfl
  exact hmap

theorem reserved_unreserve (w : Nat) (x : Thread) : (unreserve w x).reserved ≠ some w := by
  unfold unreserve
  split
  · exact nofun
  · assumption

theorem regs_unreserve (w : Nat) (x : Thread) : (unreserve w x).regs = x.regs := by
  unfold unreserve
  split <;> rfl

theorem dropResv_eq (s : State) (h w : Nat) :
    dropResv s h w = { s with banks := (dropResv s h w).banks, threads := (dropResv s h w).threads } := rfl

/-- R90: no reservation on the word but a lock stands at its bank. -/
theorem resv_dropResv {s : State} {h w : Nat} {x : Resv} (hx : x ∈ ((dropResv s h w).bank h).resv) (hw : x.word = w) :
    x.lock ≠ none := by
  have hbank : ((dropResv s h w).bank h).resv = (s.bank h).resv.filter fun v => !(v.word == w && v.lock.isNone) :=
    congrArg Bank.resv (State.bank_setBank_same ..)
  rw [hbank, List.mem_filter] at hx
  intro hlock
  simp [hw, hlock] at hx

theorem endResv_unwaited {h w : Nat} (hw : waitersOn s w = []) : endResv s h w = dropResv s h w :=
  serve_unwaited (s := dropResv s h w) (StaysUnwaited.of_reqs (s := s) rfl w hw) h

theorem reservationTermsEnd : Clauses.ReservationTermsEnd := by
  intro s word h v hhome hv hterm hw
  refine ⟨dropResv s h word, ?_, dropResv_eq .., fun x hx hxw => resv_dropResv hx hxw, fun k => ?_, fun k => ?_⟩
  · refine happens_of_event (name := "ATOMIC_TERM_EXPIRY") (congrArg (event _ s) ?_)
    simp only [hhome, hv, if_pos hterm, endResv_unwaited hw]
  · rw [thr_dropResv]
    exact reserved_unreserve word _
  · rw [thr_dropResv]
    exact regs_unreserve ..

end Sys2Proof.Machine
end

section
/-! PROOFS. A deferred request that comes again (R105). -/

namespace Sys2Proof.Machine

open Sys2Proof.Safety

variable {s : State} {r : Req} {p : Part} {tile ticket since : Nat}

/-- A machine with one request, of one part, at another stage. -/
theorem reqs_setStage_single (hreqs : s.reqs = [r]) (hparts : r.parts = [p]) (g : Stage) :
    (setStage s r.id 0 g).reqs = [{ r with parts := [{ p with stage := g }] }] := by
  simp only [setStage, State.updReq, hreqs, lupd, beq_self_eq_true, if_true, hparts]
  rfl

theorem setStage_setStage_single (hreqs : s.reqs = [r]) (hparts : r.parts = [p]) (g g' : Stage) :
    setStage (setStage s r.id 0 g) r.id 0 g' = setStage s r.id 0 g' := by
  have h1 := reqs_setStage_single hreqs hparts g
  have h2 := reqs_setStage_single (s := setStage s r.id 0 g) (r := { r with parts := [{ p with stage := g }] }) h1 rfl g'
  have h3 := reqs_setStage_single hreqs hparts g'
  show State.mk .. = State.mk ..
  congr 1
  exact h2.trans h3.symm

/-- The one part in the queues of its words is not served while another holds one of them. -/
theorem serve_heldOff (hreqs : s.reqs = [r]) (hparts : r.parts = [p]) (hheld : heldOff s tile r p = true) {w : Nat}
    (hw : w ∈ p.words) : serve (setStage s r.id 0 (.queued ticket)) tile w = setStage s r.id 0 (.queued ticket) := by
  have hreqs' := reqs_setStage_single hreqs hparts (.queued ticket)
  have hlow : lowest (waitersOn (setStage s r.id 0 (.queued ticket)) w) =
      some ({ r with parts := [{ p with stage := .queued ticket }] }, 0, { p with stage := .queued ticket }, ticket) := by
    have hcontains : ({ p with stage := .queued ticket } : Part).words.contains w = true := List.contains_iff_mem.2 hw
    simp only [waitersOn, hreqs', List.map_cons, List.map_nil, List.mapIdx_cons, List.mapIdx_nil, List.filterMap_cons,
      List.filterMap_nil, Part.ticket, hcontains, if_true, List.flatten_cons, List.flatten_nil, List.append_nil]
    rfl
  have hheld' : heldOff (setStage s r.id 0 (.queued ticket)) tile { r with parts := [{ p with stage := .queued ticket }] }
      { p with stage := .queued ticket } = true := hheld
  simp only [serve, serveWord, hlow, hheld', Bool.false_eq_true, if_false, if_true]

/-- R105: a deferred request whose word another holds: stored where the bank has room, else deferred again. -/
theorem represent_heldOff (hreqs : s.reqs = [r]) (hparts : r.parts = [p]) (hst : p.stage = .deferred ticket since)
    (hage : since + 64 ≤ s.cycle) (hhome : homeTile s p.pa = some tile) (hheld : heldOff s tile r p = true) :
    represent s tile ticket = some (setStage s r.id 0
      (if stored s tile < 64 then .queued ticket else .deferred ticket s.cycle)) := by
  have hserve : p.words.foldl (fun t w => serve t tile w) (setStage s r.id 0 (.queued ticket)) =
      setStage s r.id 0 (.queued ticket) := foldl_eq_self fun w hw => serve_heldOff hreqs hparts hheld hw
  have hreq : s.req r.id = some r := by
    simp only [State.req, hreqs, List.find?_cons, beq_self_eq_true]
  have hstill := req_setStage_same hreq 0 (.queued ticket)
  have hpart : (partAt r 0 (.queued ticket)).parts = [{ p with stage := .queued ticket }] := by
    simp only [partAt, hparts]
    rfl
  simp only [represent, hreqs, hparts, List.find?_cons, List.any_cons, List.any_nil, Bool.or_false, hst, hhome, decide_eq_true hage,
    if_true, List.getElem?_cons_zero, hserve, hstill, hpart, idxOf, beq_self_eq_true, Bool.and_self, Bool.true_and]
  by_cases hroom : stored s tile < 64
  · simp only [decide_eq_true hroom, Bool.not_true, Bool.false_eq_true, if_false, if_pos hroom]
  · simp only [decide_eq_false hroom, Bool.not_false, if_true, if_neg hroom, setStage_setStage_single hreqs hparts]

theorem deferredRequestsComeAgain : Clauses.DeferredRequestsComeAgain := by
  intro s tile ticket since id i r p hreqs hid hparts hi hst hage hhome hheld
  subst hid hi
  have hreq : s.req r.id = some r := by
    simp only [State.req, hreqs, List.find?_cons, beq_self_eq_true]
  exact ⟨_, happens_of_event (name := "DEFERRED_REPRESENT")
    (congrArg (event _ s) (represent_heldOff hreqs hparts hst hage hhome hheld)), rfl, req_setStage_same hreq ..⟩

end Sys2Proof.Machine
end

section
/-! PROOFS. Atomics, conditional writes and tag accesses at their home in SRAM (R81, R82, R89, R90, R317, R319), and all of
the accesses at their homes. -/

namespace Sys2Proof.Machine

open Sys2Proof.Safety

variable {s t : State} {id i h k : Nat} {r : Req} {p : Part}

/-! ## A word taken -/

/-- Part `i` of `r` performed with `b` in its buffer, and its word reserved for thread `k` (R89, R90). -/
def reservedFor (s : State) (h k : Nat) (r : Req) (i : Nat) (p : Part) (g : Stage) (b : List Byte) : State :=
  setStage ((addResv (setBuf s r.id b) h ⟨p.pa / 8, k, none, s.cycle⟩).updThr k
    fun t => { t with reserved := some (p.pa / 8) }) r.id i g

theorem perform_reserve (hk : r.kind = .rsv ∨ ∃ op x c, r.kind = .amo op x c) (ho : r.owner = .thread k)
    (hsram : isSram p.pa = true) (hp : loadPoison s r.lid p = false) : perform s h r i p =
      reservedFor s h k r i p (if r.kind = .rsv then .done else .granted) (readPart s r p) := by
  have hholder : r.holder.getD 0 = k := by simp only [Req.holder, ho, Option.getD_some]
  have hlocal : r.local = true := by simp only [Req.local, ho]
  rcases hk with hk | ⟨op, x, c, hk⟩ <;>
    simp only [perform, hk, grant, if_pos hsram, hp, hholder, hlocal, Bool.false_eq_true, if_false, if_true, reduceCtorEq] <;>
    rfl

theorem req_reservedFor (hr : s.req r.id = some r) (g : Stage) (b : List Byte) :
    (reservedFor s h k r i p g b).req r.id = some { partAt r i g with buf := b } :=
  req_setStage_same (s := (addResv (setBuf s r.id b) h ⟨p.pa / 8, k, none, s.cycle⟩).updThr k _) (req_setBuf_same hr b) i g

theorem staysUnwaited_reservedFor {g : Stage} (hg : g.unticketed) (b : List Byte) :
    StaysUnwaited s (reservedFor s h k r i p g b) :=
  (staysUnwaited_setBuf s r.id b).trans ((StaysUnwaited.of_reqs rfl).trans
    (staysUnwaited_setStage ((addResv (setBuf s r.id b) h _).updThr k _) r.id i hg))

theorem resv_reservedFor (g : Stage) (b : List Byte) : ((reservedFor s h k r i p g b).bank h).resv =
    (s.bank h).resv ++ [⟨p.pa / 8, k, none, s.cycle⟩] := by
  have hbank := State.bank_setBank_same (setBuf s r.id b) h
    { s.bank h with resv := (s.bank h).resv ++ [⟨p.pa / 8, k, none, s.cycle⟩] }
  exact congrArg Bank.resv hbank

theorem thr_reservedFor (g : Stage) (b : List Byte) (j : Nat) : (reservedFor s h k r i p g b).thr j =
    if j = k then { s.thr k with reserved := some (p.pa / 8) } else s.thr j :=
  State.thr_setThr (addResv (setBuf s r.id b) h ⟨p.pa / 8, k, none, s.cycle⟩) k j
    { s.thr k with reserved := some (p.pa / 8) }

theorem reservedFor_eq (s : State) (h k : Nat) (r : Req) (i : Nat) (p : Part) (g : Stage) (b : List Byte) :
    reservedFor s h k r i p g b = { s with
      banks := (reservedFor s h k r i p g b).banks
      threads := (reservedFor s h k r i p g b).threads
      reqs := (reservedFor s h k r i p g b).reqs } := rfl

/-! ## A word written and given up -/

/-- Part `i` of `r` performed, and the atomic reservation on a word ended. -/
def released (s : State) (h : Nat) (r : Req) (i w : Nat) : State := setStage (dropResv s h w) r.id i .done

theorem staysUnwaited_released (s : State) (h : Nat) (r : Req) (i w : Nat) : StaysUnwaited s (released s h r i w) :=
  (StaysUnwaited.of_reqs (s := s) rfl).trans (staysUnwaited_setStage (dropResv s h w) r.id i unticketed_done)

/-- R90: what a write that ends a reservation leaves: the part is performed, no thread holds the word, no register and no tag
is another. -/
theorem released_ended {u : State} {w : Nat} (hr : u.req r.id = some r) (hregs : ∀ j, (u.thr j).regs = (s.thr j).regs)
    (htags : u.tags = s.tags) :
    (released u h r i w).req r.id = some (partAt r i .done) ∧
      (∀ j, ((released u h r i w).thr j).regs = (s.thr j).regs) ∧
      (∀ x ∈ ((released u h r i w).bank h).resv, x.word = w → x.lock ≠ none) ∧
      (∀ j, ((released u h r i w).thr j).reserved ≠ some w) ∧ (released u h r i w).tags = s.tags := by
  have hthr : ∀ j, (released u h r i w).thr j = unreserve w (u.thr j) := fun j => thr_dropResv u h w j
  refine ⟨req_setStage_same (s := dropResv u h w) hr .., fun j => ?_, fun x hx hxw => resv_dropResv hx hxw, fun j => ?_, htags⟩
  · rw [hthr, regs_unreserve, hregs]
  · rw [hthr]
    exact reserved_unreserve w _

theorem amoWrite_some {op : AmoOp} {x c y : Nat} {v : Resv} (hk : r.kind = .amo op x c) (ho : r.owner = .thread k)
    (hv : atomicOn s h (p.pa / 8) = some v) (hholder : v.holder = k)
    (hnew : amoValue op (8 * r.size) (leNat r.buf) (x % 2 ^ (8 * r.size)) (c % 2 ^ (8 * r.size)) = some y) :
    amoWrite s h r i p = released (writePart s r.lid p (leBytes r.size y)) h r i (p.pa / 8) := by
  have hown : ¬(some v.holder ≠ r.holder) := by simp only [Req.holder, ho, hholder, ne_eq, not_true, not_false_eq_true]
  simp only [amoWrite, hk, hv, if_neg hown, hnew]
  rfl

theorem amoWrite_none {op : AmoOp} {x c : Nat} {v : Resv} (hk : r.kind = .amo op x c) (ho : r.owner = .thread k)
    (hv : atomicOn s h (p.pa / 8) = some v) (hholder : v.holder = k)
    (hnew : amoValue op (8 * r.size) (leNat r.buf) (x % 2 ^ (8 * r.size)) (c % 2 ^ (8 * r.size)) = none) :
    amoWrite s h r i p = released s h r i (p.pa / 8) := by
  have hown : ¬(some v.holder ≠ r.holder) := by simp only [Req.holder, ho, hholder, ne_eq, not_true, not_false_eq_true]
  simp only [amoWrite, hk, hv, if_neg hown, hnew]
  rfl

theorem perform_wrv {v : Resv} (hk : r.kind = .wrv) (ho : r.owner = .thread k) (hv : resvOn s h (p.pa / 8) = some v)
    (hholder : v.holder = k) (hp : storePoison s r.lid p = false) :
    perform s h r i p = released (writePart s r.lid p (partBytes r p)) h r i (p.pa / 8) := by
  have hown : ¬(some v.holder ≠ r.holder) := by simp only [Req.holder, ho, hholder, ne_eq, not_true, not_false_eq_true]
  simp only [perform, hk, hv, if_neg hown, hp, Bool.false_eq_true, if_false]
  rfl

/-- The fault of an atomic whose reservation has ended (R90). -/
def lapsedAt (p : Part) : FaultRec := ⟨.lapsed, 0, p.va, none, false⟩

theorem amoWrite_lapsed {op : AmoOp} {x c : Nat} (hk : r.kind = .amo op x c) (ho : r.owner = .thread k)
    (hv : ∀ v, atomicOn s h (p.pa / 8) = some v → v.holder ≠ k) : amoWrite s h r i p = failPart s r i (lapsedAt p) := by
  cases hres : atomicOn s h (p.pa / 8) with
  | none => simp only [amoWrite, hk, hres, lapsedAt]
  | some v =>
    have hown : some v.holder ≠ r.holder := by
      simp only [Req.holder, ho, ne_eq, Option.some.injEq]
      exact hv v hres
    simp only [amoWrite, hk, hres, if_pos hown, lapsedAt]

theorem perform_wrv_lapsed (hk : r.kind = .wrv) (ho : r.owner = .thread k)
    (hv : ∀ v, resvOn s h (p.pa / 8) = some v → v.holder ≠ k) : perform s h r i p = failPart s r i (lapsedAt p) := by
  cases hres : resvOn s h (p.pa / 8) with
  | none => simp only [perform, hk, hres, lapsedAt]
  | some v =>
    have hown : some v.holder ≠ r.holder := by
      simp only [Req.holder, ho, ne_eq, Option.some.injEq]
      exact hv v hres
    simp only [perform, hk, hres, if_pos hown, lapsedAt]

/-- R90: the write of a granted atomic takes its grant and is performed. -/
theorem AtBank.written {s' t : State} (a : AtBank s id i h r p) (hst : p.stage = .granted)
    (hturn : bankTurn s h r i = true) (hs : grantFor s h r i p = s') (ht : amoWrite s' h r i p = t)
    (hw : StaysUnwaited s t) : Happens (.accessAtHome id i) s t := by
  have hhere : amoAtHome (grantFor s h r i p) h r i p = t := by
    have htouch : touchPart s' r p = s' := if_pos a.sram
    simp only [hs, amoAtHome, a.sram, Bool.not_true, Bool.false_and, Bool.false_eq_true, if_false, htouch, ht]
    exact serveAfter_unwaited (fun w hmem => hw w (a.unwaited w hmem)) h
  refine happens_of_event (name := "ACCESS_AT_HOME") (congrArg (event _ s) ?_)
  simp only [atHome, a.req, a.part, a.home, hst, hturn, hhere, Bool.not_true, Bool.false_eq_true, if_false]

/-! ## Tags -/

theorem State.tag_setTag (s : State) (n : Nat) (b : Byte) (j : Nat) :
    (s.setTag n b).tag j = if j = n then b else s.tag j := by
  by_cases hb : b = 0
  · simp only [State.tag, State.setTag, if_pos hb, tget, tfind_tdel]
    split
    · exact hb.symm
    · rfl
  · simp only [State.tag, State.setTag, if_neg hb]
    exact tget_tset ..

theorem perform_tagRd (hk : r.kind = .tagRd) : perform s h r i p = loaded s r i .done [s.tag (p.pa / 64)] := by
  simp only [perform, hk]
  rfl

theorem perform_tagSet {q : Nat} (hk : r.kind = .tagSet q) :
    perform s h r i p = setStage (s.setTag (p.pa / 64) (stampByte q)) r.id i .done := by
  simp only [perform, hk]

theorem perform_tagClr (hk : r.kind = .tagClr) :
    perform s h r i p = setStage (s.setTag (p.pa / 64) (s.tag (p.pa / 64) &&& 0x7F)) r.id i .done := by
  simp only [perform, hk]

/-- R82: a tag written at its home: the granule's tag is the new one, and nothing else but the bank's grant and the stage of
the part. -/
theorem tagWritten {s' : State} (g : Granted s s') (hreq : s.req r.id = some r) (n : Nat) (b : Byte) :
    let t := setStage (s'.setTag n b) r.id i .done
    t = { s with banks := t.banks, reqs := t.reqs, tags := t.tags } ∧ t.req r.id = some (partAt r i .done) ∧ t.tag n = b ∧
      ∀ j, j ≠ n → t.tag j = s.tag j := by
  intro t
  have htag : ∀ j, t.tag j = if j = n then b else s'.tag j := State.tag_setTag s' n b
  refine ⟨?_, ?_, (htag n).trans (if_pos rfl), fun j hj => ?_⟩
  · simp only [t]
    rw [g.eq]
    rfl
  · exact req_setStage_same (s := s'.setTag n b) ((g.req _).trans hreq) ..
  · rw [htag, if_neg hj, g.tag]

/-! ## The steps of atomics -/

/-- What the bytes of a part read as once its write is performed, the rest of memory being as it was. -/
def Writes (s t : State) (p : Part) (v : Nat → Byte) : Prop :=
  ((p.moves.map (·.1)).Nodup → ∀ (j : Nat) (m : Nat × Nat), p.moves[j]? = some m → readByte t.mem m.1 = v j) ∧
    ∀ a, (∀ m ∈ p.moves, m.1 ≠ a) → readByte t.mem a = readByte s.mem a

/-- What the end of a reservation by its own write leaves. -/
def EndsHeld (s t : State) (h : Nat) (r : Req) (i : Nat) (p : Part) : Prop :=
  t.req r.id = some (partAt r i .done) ∧ (∀ j, (t.thr j).regs = (s.thr j).regs) ∧
    (∀ x ∈ (t.bank h).resv, x.word = p.pa / 8 → x.lock ≠ none) ∧ (∀ j, (t.thr j).reserved ≠ some (p.pa / 8)) ∧
    t.tags = s.tags

theorem released_writes {s' : State} (g : Granted s s') (hm : MemOk s) (hreq : s.req r.id = some r)
    (hd : ∀ m ∈ p.moves, isDrawer m.1 = false) {data : List Byte} (hlen : data.length = p.moves.length) :
    StaysUnwaited s (released (writePart s' r.lid p data) h r i (p.pa / 8)) ∧
      EndsHeld s (released (writePart s' r.lid p data) h r i (p.pa / 8)) h r i p ∧
      Writes s (released (writePart s' r.lid p data) h r i (p.pa / 8)) p fun j => data.getD j 0 := by
  have heq := writePart_eq s' r.lid hd data
  have hbytes : Writes s (writePart s' r.lid p data) p fun j => data.getD j 0 :=
    ⟨fun hn j m hj => readByte_writePart (g.memOk hm) r.lid hd hlen hn hj,
      fun x hx => (readByte_writePart_other (g.memOk hm) r.lid hd data hx).trans (congrArg (readByte · x) g.mem)⟩
  generalize writePart s' r.lid p data = u at heq hbytes ⊢
  have hreqs : u.reqs = s.reqs := by rw [heq]; exact g.reqs
  have hwreq : u.req r.id = some r := by rw [heq]; exact (g.req _).trans hreq
  have hregs : ∀ j, (u.thr j).regs = (s.thr j).regs := fun j => by
    rw [heq]; exact congrArg Thread.regs (g.thr j)
  have htags : u.tags = s.tags := by rw [heq]; exact g.tags
  exact ⟨(StaysUnwaited.of_reqs hreqs).trans (staysUnwaited_released u h r i _), released_ended hwreq hregs htags, hbytes⟩

/-- R89, R319: an atomic that finds its word free takes it. -/
theorem AtBank.takesWord (a : AtBank s r.id i h r p) (ha : Arrives s i r p) (hturn : bankTurn s h r i = true)
    (hd : ∀ m ∈ p.moves, isDrawer m.1 = false) (ho : r.owner = .thread k)
    (hk : r.kind = .rsv ∨ ∃ op x c, r.kind = .amo op x c) (hfree : ∀ w ∈ p.words, resvOn s h w = none)
    (hp : loadPoison s r.lid p = false) : ∃ (t : State) (b : List Byte), Happens (.accessAtHome r.id i) s t ∧
      t = { s with banks := t.banks, threads := t.threads, reqs := t.reqs } ∧
      t.req r.id = some { partAt r i (if r.kind = .rsv then .done else .granted) with buf := b } ∧
      b.length = r.buf.length ∧
      ((p.moves.map (·.2)).Nodup → ∀ m ∈ p.moves, m.2 < b.length → b.getD m.2 0 = readByte s.mem m.1) ∧
      (t.bank h).resv = (s.bank h).resv ++ [⟨p.pa / 8, k, none, s.cycle⟩] ∧
      t.thr k = { s.thr k with reserved := some (p.pa / 8) } ∧ ∀ j, j ≠ k → t.thr j = s.thr j := by
  have g := grantFor_granted s h r i p
  generalize hs : grantFor s h r i p = s' at g
  have hstage : (if r.kind = .rsv then Stage.done else .granted).unticketed := by
    split
    · exact unticketed_done
    · exact unticketed_granted
  have hperform := perform_reserve (s := s') (h := h) (i := i) hk ho a.sram ((g.loadPoison ..).trans hp)
  rw [g.readPart] at hperform
  generalize ht : reservedFor s' h k r i p _ (readPart s r p) = t at hperform
  refine ⟨t, readPart s r p, a.performed ha (mustQueue_of_free hfree a.unwaited) (.inr hturn) hs hperform ?_, ?_, ?_,
    length_readPart, fun hn m hm hlt => getD_readPart hd hn hm (length_readPart (s := s) ▸ hlt), ?_, ?_, fun j hj => ?_⟩ <;>
    subst ht
  · exact (StaysUnwaited.of_reqs g.reqs).trans (staysUnwaited_reservedFor hstage _)
  · rw [reservedFor_eq, g.eq]
  · exact req_reservedFor ((g.req _).trans a.req) ..
  · rw [resv_reservedFor, g.resv, g.cycle]
  · rw [thr_reservedFor, if_pos rfl, g.thr]
  · rw [thr_reservedFor, if_neg hj, g.thr]

/-- R90: an atomic whose reservation has ended fails, having written nothing. -/
theorem lapsed_failPart {s' : State} (g : Granted s s') (hreq : s.req r.id = some r)
    (hstep : StaysUnwaited s (failPart s' r i (lapsedAt p)) →
      Happens (.accessAtHome r.id i) s (failPart s' r i (lapsedAt p)))
    (hfirst : ∀ x, x < i → ∀ y, r.parts[x]? = some y → y.stage ≠ .failed) : ∃ t, Happens (.accessAtHome r.id i) s t ∧
      t.mem = s.mem ∧ t.tags = s.tags ∧ t.req r.id = some { partAt r i .failed with fault := some (lapsedAt p) } :=
  ⟨_, hstep ((StaysUnwaited.of_reqs g.reqs).trans (staysUnwaited_failPart s' r i _)), g.mem, g.tags,
    req_failPart ((g.req _).trans hreq) hfirst _⟩

/-- R82, R317: a tag access is performed. -/
theorem AtBank.readsTag (a : AtBank s r.id i h r p) (ha : Arrives s i r p) (hturn : bankTurn s h r i = true)
    (hk : r.kind = .tagRd) : ∃ t, Happens (.accessAtHome r.id i) s t ∧ t = { s with banks := t.banks, reqs := t.reqs } ∧
      t.req r.id = some { partAt r i .done with buf := [s.tag (p.pa / 64)] } := by
  have g := grantFor_granted s h r i p
  generalize hs : grantFor s h r i p = s' at g
  have hperform := perform_tagRd (s := s') (h := h) (i := i) (p := p) hk
  rw [g.tag] at hperform
  refine ⟨_, a.performed ha (mustQueue_of_passing (hk ▸ rfl)) (.inr hturn) hs hperform
    ((StaysUnwaited.of_reqs g.reqs).trans (staysUnwaited_loaded unticketed_done _)), ?_, ?_⟩
  · rw [g.eq]; rfl
  · exact req_loaded ((g.req _).trans a.req) ..

theorem AtBank.writesTag (a : AtBank s r.id i h r p) (ha : Arrives s i r p) (hturn : bankTurn s h r i = true)
    (hk : r.kind.heldBack = false) (b : Byte)
    (hb : ∀ s', s'.tag (p.pa / 64) = s.tag (p.pa / 64) →
      perform s' h r i p = setStage (s'.setTag (p.pa / 64) b) r.id i .done) :
    ∃ t, Happens (.accessAtHome r.id i) s t ∧ t = { s with banks := t.banks, reqs := t.reqs, tags := t.tags } ∧
      t.req r.id = some (partAt r i .done) ∧ t.tag (p.pa / 64) = b ∧ ∀ n, n ≠ p.pa / 64 → t.tag n = s.tag n := by
  have g := grantFor_granted s h r i p
  generalize hs : grantFor s h r i p = s' at g
  exact ⟨_, a.performed ha (mustQueue_of_passing hk) (.inr hturn) hs (hb s' (g.tag _))
    ((StaysUnwaited.of_reqs (t := s'.setTag (p.pa / 64) b) g.reqs).trans
      (staysUnwaited_setStage (s'.setTag (p.pa / 64) b) r.id i unticketed_done)),
    tagWritten g a.req _ _⟩

/-- R90, R319: the write of a granted `amo` whose reservation stands. -/
theorem AtBank.amoEnds (a : AtBank s r.id i h r p) (hst : p.stage = .granted) (hturn : bankTurn s h r i = true)
    (hm : MemOk s) (hd : ∀ m ∈ p.moves, isDrawer m.1 = false) (ho : r.owner = .thread k) {op : AmoOp} {x c : Nat}
    (hk : r.kind = .amo op x c) {v : Resv} (hv : atomicOn s h (p.pa / 8) = some v) (hholder : v.holder = k)
    {new : Option Nat} (hnew : amoValue op (8 * r.size) (leNat r.buf) (x % 2 ^ (8 * r.size)) (c % 2 ^ (8 * r.size)) = new) :
    (∀ y, new = some y → p.moves.length = r.size → ∃ t, Happens (.accessAtHome r.id i) s t ∧ EndsHeld s t h r i p ∧
      Writes s t p fun j => (leBytes r.size y).getD j 0) ∧
    (new = none → ∃ t, Happens (.accessAtHome r.id i) s t ∧ EndsHeld s t h r i p ∧ t.mem = s.mem) := by
  have g := grantFor_granted s h r i p
  generalize hs : grantFor s h r i p = s' at g
  refine ⟨fun y hy hlen => ?_, fun hnone => ?_⟩
  · have hbytes : (leBytes r.size y).length = p.moves.length := by
      rw [leBytes, List.length_map, List.length_range, hlen]
    obtain ⟨hstay, hended, hwrites⟩ := released_writes (h := h) (i := i) g hm a.req hd hbytes
    exact ⟨_, a.written hst hturn hs (amoWrite_some hk ho ((g.atomicOn ..).trans hv) hholder (hnew.trans hy)) hstay, hended,
      hwrites⟩
  · exact ⟨_, a.written hst hturn hs (amoWrite_none hk ho ((g.atomicOn ..).trans hv) hholder (hnew.trans hnone))
      ((StaysUnwaited.of_reqs g.reqs).trans (staysUnwaited_released _ h r i _)),
      released_ended ((g.req _).trans a.req) (fun j => congrArg Thread.regs (g.thr j)) g.tags, g.mem⟩

theorem AtBank.amoLapses (a : AtBank s r.id i h r p) (hst : p.stage = .granted) (hturn : bankTurn s h r i = true)
    (ho : r.owner = .thread k) {op : AmoOp} {x c : Nat} (hk : r.kind = .amo op x c)
    (hv : ∀ v, atomicOn s h (p.pa / 8) = some v → v.holder ≠ k)
    (hfirst : ∀ x, x < i → ∀ y, r.parts[x]? = some y → y.stage ≠ .failed) : ∃ t, Happens (.accessAtHome r.id i) s t ∧
      t.mem = s.mem ∧ t.tags = s.tags ∧ t.req r.id = some { partAt r i .failed with fault := some (lapsedAt p) } := by
  have g := grantFor_granted s h r i p
  generalize hs : grantFor s h r i p = s' at g
  have hfail : amoWrite s' h r i p = failPart s' r i (lapsedAt p) :=
    amoWrite_lapsed hk ho fun v hv' => hv v ((g.atomicOn ..).symm.trans hv')
  exact lapsed_failPart g a.req (a.written hst hturn hs hfail) hfirst

/-- R89, R319: the `wrv` of the thread that holds its word. -/
theorem AtBank.wrvEnds (a : AtBank s r.id i h r p) (ha : Arrives s i r p) (hturn : bankTurn s h r i = true)
    (hm : MemOk s) (hd : ∀ m ∈ p.moves, isDrawer m.1 = false) (ho : r.owner = .thread k) (hk : r.kind = .wrv) {v : Resv}
    (hv : resvOn s h (p.pa / 8) = some v) (hholder : v.holder = k) (hp : storePoison s r.lid p = false) :
    ∃ t, Happens (.accessAtHome r.id i) s t ∧ EndsHeld s t h r i p ∧
      Writes s t p fun j => r.buf.getD ((p.moves.getD j (0, 0)).2) 0 := by
  have g := grantFor_granted s h r i p
  generalize hs : grantFor s h r i p = s' at g
  obtain ⟨hstay, hended, hbytes, hother⟩ := released_writes (h := h) (i := i) g hm a.req hd (length_partBytes (r := r))
  refine ⟨_, a.performed ha (mustQueue_of_passing (hk ▸ rfl)) (.inr hturn) hs
    (perform_wrv hk ho ((g.resvOn ..).trans hv) hholder ((g.storePoison ..).trans hp)) hstay, hended,
    fun hn j m hj => ?_, hother⟩
  have hget : p.moves.getD j (0, 0) = m := by rw [List.getD_eq_getElem?_getD, hj, Option.getD_some]
  refine (hbytes hn j m hj).trans ?_
  dsimp only
  rw [getD_partBytes hj, hget]

theorem AtBank.wrvLapses (a : AtBank s r.id i h r p) (ha : Arrives s i r p) (hturn : bankTurn s h r i = true)
    (ho : r.owner = .thread k) (hk : r.kind = .wrv) (hv : ∀ v, resvOn s h (p.pa / 8) = some v → v.holder ≠ k)
    (hfirst : ∀ x, x < i → ∀ y, r.parts[x]? = some y → y.stage ≠ .failed) : ∃ t, Happens (.accessAtHome r.id i) s t ∧
      t.mem = s.mem ∧ t.tags = s.tags ∧ t.req r.id = some { partAt r i .failed with fault := some (lapsedAt p) } := by
  have g := grantFor_granted s h r i p
  generalize hs : grantFor s h r i p = s' at g
  have hfail : perform s' h r i p = failPart s' r i (lapsedAt p) :=
    perform_wrv_lapsed hk ho fun v hv' => hv v ((g.resvOn ..).symm.trans hv')
  exact lapsed_failPart g a.req (a.performed ha (mustQueue_of_passing (hk ▸ rfl)) (.inr hturn) hs hfail) hfirst

theorem atomicsArePerformed : Clauses.AtomicsArePerformed := by
  intro s id i h k r p hm hreq hpart hhome hsram hd hturn hw ho
  obtain rfl := req_id hreq
  have a : AtBank s r.id i h r p := ⟨hreq, hpart, hhome, hsram, hw⟩
  have harrives : (p.stage = .waiting ∧ behindEarlier s r i p = false) → (∀ q, r.kind ≠ .sync q) → Arrives s i r p :=
    fun ⟨hst, hb⟩ hsync => arrives_of_other_kind hsync hst hb
  refine ⟨fun ha hk hfree _ hp => ?_, fun op x c hst hk => ⟨fun v hv hholder => ?_, fun hv hfirst => ?_⟩,
    fun ha hk => ⟨fun v hv hholder hp => ?_, fun hv hfirst => ?_⟩, fun ha => ⟨fun hk => ?_, fun q hk => ?_, fun hk => ?_⟩⟩
  · have hsync : ∀ q, r.kind ≠ .sync q := fun q hq => by
      rcases hk with hk | ⟨op, x, c, hk⟩ <;> exact ReqKind.noConfusion (hk.symm.trans hq)
    exact a.takesWord (harrives ha hsync) hturn hd ho hk hfree hp
  · exact a.amoEnds hst hturn hm hd ho hk hv hholder rfl
  · exact a.amoLapses hst hturn ho hk hv hfirst
  · exact a.wrvEnds (harrives ha fun q => hk ▸ ReqKind.noConfusion) hturn hm hd ho hk hv hholder hp
  · exact a.wrvLapses (harrives ha fun q => hk ▸ ReqKind.noConfusion) hturn ho hk hv hfirst
  · exact a.readsTag (harrives ha fun q => hk ▸ ReqKind.noConfusion) hturn hk
  · exact a.writesTag (harrives ha fun q => hk ▸ ReqKind.noConfusion) hturn (hk ▸ rfl) _ fun s' _ => perform_tagSet hk
  · refine a.writesTag (harrives ha fun q => hk ▸ ReqKind.noConfusion) hturn (hk ▸ rfl) _ fun s' htag => ?_
    rw [← htag]
    exact perform_tagClr hk

end Sys2Proof.Machine

open Sys2Proof.Machine

/-- Settles O46, clause by clause: a part of an access that nothing holds back takes its grant, is performed, and leaves its
words' queues as empty as they were. -/
theorem accessesArePerformedAtTheirHome : Obligations.AccessesArePerformedAtTheirHome :=
  ⟨loadsArePerformed, storesArePerformed, synchronisingLoadsMeetTheTag, loadValuesReturn, storesAreAcknowledged,
    combiningEntriesDrain, atomicsArePerformed, reservationTermsEnd, deferredRequestsComeAgain⟩

end

section
/-! PROOFS. An access's own steps complete, and each hold instruction with its keeper's answer (R72 to R74, R90, R105, R321 to
R326, R356). -/

namespace Sys2Proof.Machine

open Sys2Proof.Safety

variable {s : State} {i : Instr} {r : Regs} {ws : List Word} {d a b : SReg} {g : KReg}

/-! ## Answers written -/

/-- The instruction runs to its end with these registers, the answer taken. -/
def TakesAnswerAs (i : Instr) (s : State) (r : Regs) : Prop := ∃ t, exec i s = .next t ∧ t.did = .ran ∧
  (t.thr s.cur).regs = r ∧ (t.thr s.cur).got = none ∧ (∀ k, k ≠ s.cur → t.thr k = s.thr k) ∧
  ∀ x, readByte t.mem x = readByte s.mem x

theorem takesAnswerAs_of_runsTo (h : RunsTo i s { s.me with got := none, regs := r }) : TakesAnswerAs i s r := by
  obtain ⟨t, hrun, hdid, hme, hother, hmem, -⟩ := h
  exact ⟨t, hrun, hdid, congrArg Thread.regs hme, congrArg Thread.got hme, hother, hmem⟩

/-- The running thread with its answer taken and other registers. -/
def answered (s : State) (r : Regs) : State := s.setThr s.cur { s.me with got := none, regs := r }

theorem ws_answered (s : State) (r : Regs) (d : SReg) (x : Word) : (answered s r).ws d x = answered s (r.ws d.val x) := by
  have hthr : (answered s r).thr s.cur = { s.me with got := none, regs := r } := State.thr_setThr_same ..
  show (answered s r).setThr s.cur { (answered s r).thr s.cur with regs := ((answered s r).thr s.cur).regs.ws d.val x } = _
  rw [hthr, answered, State.setThr_setThr]
  rfl

theorem putAnswer_answered (s : State) (r : Regs) (d : SReg) (ws : List Word) :
    putAnswer d ws (answered s r) = answered s (r.ws d.val (ws.getD 0 0)) := ws_answered ..

theorem takesAnswerAs_of {write : List Word → State → State} {ask : M State} (hg : s.rk g = true) (hu : Unpaired s)
    (hgot : s.me.got = some (.words ws)) (hexec : exec i s = run s (guarded s g (withAnswer s write ask)))
    (hwrite : write ws (answered s s.me.regs) = answered s r) : TakesAnswerAs i s r := by
  refine takesAnswerAs_of_runsTo (runsTo_setThr _ (hexec.trans ?_))
  rw [guarded_of_true hg, withAnswer_words hu hgot]
  exact congrArg (fun x => run s (Except.ok x)) hwrite

/-- R324, R325: words of another length than a descriptor's are the keeper's answer. -/
theorem holdDesc_answer {n : Nat} (kind : Nat) (hgot : s.me.got = some (.words ws)) (hlen : ws.length ≠ n) :
    holdDesc kind n d a b g s = run s (guarded s g (withAnswer s (putAnswer d) (.ok s))) := by
  simp only [holdDesc, hgot, if_neg hlen]

theorem execHcall_answer (hp : privileged s.cur = false) (hgot : s.me.got = some (.words ws)) (hlen : ws.length ≠ 8) :
    execHcall d a g s = run s (guarded s g (withAnswer s (putAnswer d) (.ok s))) := by
  simp only [execHcall, hp, Bool.false_eq_true, if_false, hgot, if_neg hlen]

/-! ## A value that comes back, whether or not its instruction can be replayed -/

theorem Awaited.scalar {id key : Nat} {q : Req} {u : Undo} {n bits : Nat} {sgn : Bool} (w : Awaited s id key q u)
    (hf : q.fault = none) (hfin : q.fin = .scalar n bits sgn) (hrole : (s.thr key).role = .alone)
    (hsfu : sfuPending s key = false) (hpop : u.pops = []) (hpush : u.pushes = []) :
    ∃ t, loadReturn s id = some t ∧ t.req id = none ∧ (t.thr key).wait = none ∧
      (t.thr key).regs = (s.thr key).regs.ws n (loadedScalar bits sgn q.buf) ∧ t.mem = s.mem := by
  have hvalue := w.value hf hfin
  have hnote := notePerformed_eq (dropReq s id) q
  generalize notePerformed (dropReq s id) q = v at hvalue hnote
  have hthr : v.thr key = s.thr key := by rw [hnote]; rfl
  have hreq : v.req id = none := by rw [hnote]; exact req_dropped s id
  have hmem : v.mem = s.mem := by rw [hnote]; rfl
  have hrole' : (v.thr key).role = .alone := hthr ▸ hrole
  have hsfu' : sfuPending v key = false := by rw [hnote]; exact hsfu
  rw [hfin, endAccess_scalar hrole' hsfu' hpop hpush, endStep_eq] at hvalue
  refine ⟨_, hvalue, hreq, ?_, ?_, hmem⟩
  · exact congrArg Thread.wait (State.thr_setThr_same v key _)
  · exact (congrArg Thread.regs (State.thr_setThr_same v key _)).trans (by rw [hthr])

end Sys2Proof.Machine

open Sys2Proof.Machine

/-- Settles O59: the steps are those of the accesses at their homes, and a hold instruction with its answer writes it. -/
theorem accessStepsAndAnswersTakePlace : Obligations.AccessStepsAndAnswersTakePlace := by
  unfold Obligations.AccessStepsAndAnswersTakePlace
  intro s
  refine ⟨fun hf => ⟨?_, ?_, ?_, ?_, ?_, ?_⟩, fun d a b g ws hg hu hgot => ?_⟩
  · intro id i h r p hreq hpart hst hhome hsram hd hb hturn hw hk hp
    obtain ⟨t, b, hstep, heq, hdone, -, -, hread, -⟩ :=
      loadsArePerformed s id i h r p hreq hpart hst hhome hd hsram hb (.inr hturn) hw hk hp
    exact ⟨_, b, hstep hf, hdone, (congrArg State.mem heq :), hread⟩
  · intro id key d bits r u hreq hshown ho hset hfault hlive hlid hborn hrole hsfu hk hfin hundo hpop hpush
    have w : Awaited s id key r u := ⟨hreq, hshown, ho, hk ▸ rfl, hset, hlive, hlid, hborn, hundo⟩
    obtain ⟨t, hreturn, hgone, hwait, hregs, hmem⟩ := w.scalar hfault hfin hrole hsfu hpop hpush
    exact ⟨_, happens_of_event (w.exec hreturn) hf, hgone, hwait, hregs, hmem⟩
  · intro id key r hreq ho hk hset hfault
    exact ⟨_, (storesAreAcknowledged s id key r hreq ho hk hset).1 hfault hf, req_dropped s id, rfl, rfl⟩
  · intro tile slot c hc hage
    exact ⟨_, combiningEntriesDrain s tile slot c hc hage hf,
      congrArg Thread.comb (State.thr_setThr_same s (keyOf tile slot) _), rfl, rfl⟩
  · intro word h v hhome hv hterm hw
    obtain ⟨t, hstep, heq, hgone, -⟩ := reservationTermsEnd s word h v hhome hv hterm hw
    exact ⟨_, hstep hf, hgone, (congrArg State.mem heq :)⟩
  · intro tile ticket since r p hreqs hparts hst hage hhome hheld hroom
    obtain ⟨t, hstep, hmem, hreq⟩ :=
      deferredRequestsComeAgain s tile ticket since r.id 0 r p hreqs rfl hparts rfl hst hage hhome hheld
    rw [if_pos hroom] at hreq
    exact ⟨_, hstep hf, hreq, hmem⟩
  · have one := putAnswer_answered s s.me.regs d ws
    have desc : ∀ {i : Sys2Proof.Instr}, exec i s = run s (guarded s g (withAnswer s (putAnswer d) (.ok s))) →
        TakesAnswerAs i s (s.me.regs.ws d.val (ws.getD 0 0)) := fun h => takesAnswerAs_of hg hu hgot h one
    refine ⟨takesAnswerAs_of hg hu hgot rfl ?_, takesAnswerAs_of hg hu hgot rfl one,
      fun h => desc (holdDesc_answer 2 hgot h), fun h => desc (holdDesc_answer 3 hgot h),
      takesAnswerAs_of hg hu hgot rfl rfl, takesAnswerAs_of hg hu hgot rfl one, takesAnswerAs_of hg hu hgot rfl one,
      fun hp h => desc (execHcall_answer hp hgot h)⟩
    exact (congrArg (State.ws · (d + 1) (ws.getD 1 0)) one).trans (ws_answered ..)

end

section
/-! PROOFS. Keepers and lock requests (R106, R107, R109, R323, R326). -/

namespace Sys2Proof.Machine

open Sys2Proof.Safety

variable {s t : State} {die i ctx : Nat} {k : KeeperReq} {g : Got}

/-! ## Hold tables -/

theorem State.ctx_setHold (s : State) (ctx i : Nat) (h : Hold) :
    (s.setHold ctx i h).ctx ctx = { s.ctx ctx with holds := tset (s.ctx ctx).holds i h } :=
  (State.ctx_setCtx s ctx ctx _).trans (if_pos rfl)

@[simp] theorem State.hold_setHold_same (s : State) (ctx i : Nat) (h : Hold) : (s.setHold ctx i h).hold ctx i = some h := by
  rw [State.hold, State.ctx_setHold, tfind_tset, if_pos rfl]

theorem holdAt_of_hold {h : Hold} (hh : s.hold ctx i = some h) : holdAt s ctx i = h := by
  rw [holdAt, hh]
  rfl

/-! ## Free indices (R111) -/

theorem mem_indices {i : Nat} : i ∈ (List.range 4096).drop 1 ↔ 1 ≤ i ∧ i ≤ 4095 := by
  rw [List.range_eq_range', List.drop_range', List.mem_range']
  constructor
  · rintro ⟨j, hj, rfl⟩
    omega
  · rintro ⟨h1, h2⟩
    exact ⟨i - 1, by omega, by omega⟩

/-- The index whose hold lapsed earlier is kept. -/
def earlier (s : State) (ctx : Nat) (a : Option Nat) (i : Nat) : Option Nat :=
  match a with
  | none => some i
  | some j => if (holdAt s ctx i).expiry < (holdAt s ctx j).expiry then some i else some j

theorem freeIndex_eq (s : State) (ctx : Nat) : freeIndex s ctx =
    (((List.range 4096).drop 1).find? fun i => !(holdAt s ctx i).issued && indexFree s ctx i).or
      ((((List.range 4096).drop 1).filter (indexFree s ctx)).foldl (earlier s ctx) none) := by
  unfold freeIndex
  generalize (List.range 4096).drop 1 = l
  dsimp only
  cases l.find? fun i => !(holdAt s ctx i).issued && indexFree s ctx i with
  | none =>
    refine congrArg (List.foldl · none (l.filter (indexFree s ctx))) ?_
    funext a i
    cases a <;> rfl
  | some j => rfl

theorem foldl_earlier_mem {l : List Nat} {a : Option Nat} (h : l.foldl (earlier s ctx) a = some i) : i ∈ l ∨ a = some i := by
  induction l generalizing a with
  | nil => exact .inr h
  | cons x r ih =>
    rcases ih h with hr | hx
    · exact .inl (List.mem_cons_of_mem _ hr)
    · cases a with
      | none => exact .inl (Option.some.inj hx ▸ List.mem_cons_self)
      | some j =>
        simp only [earlier] at hx
        split at hx
        · exact .inl (Option.some.inj hx ▸ List.mem_cons_self)
        · exact .inr hx

theorem freeIndex_some (h : freeIndex s ctx = some i) : 1 ≤ i ∧ i ≤ 4095 ∧ indexFree s ctx i = true := by
  rw [freeIndex_eq] at h
  generalize hl : (List.range 4096).drop 1 = l at h
  rw [Option.or_eq_some_iff] at h
  have hmem : i ∈ (List.range 4096).drop 1 ∧ indexFree s ctx i = true := by
    rcases h with h | ⟨-, h⟩
    · exact ⟨hl ▸ List.mem_of_find?_eq_some h, (Bool.and_eq_true_iff.1 (List.find?_some (p := fun i => !(holdAt s ctx i).issued && indexFree s ctx i) h)).2⟩
    · exact hl ▸ (foldl_earlier_mem h).elim List.mem_filter.1 nofun
  exact ⟨(mem_indices.1 hmem.1).1, (mem_indices.1 hmem.1).2, hmem.2⟩

theorem freeIndex_none (h : ∀ i, 1 ≤ i → i ≤ 4095 → indexFree s ctx i = false) : freeIndex s ctx = none := by
  cases hi : freeIndex s ctx with
  | none => rfl
  | some i =>
    obtain ⟨h1, h2, hfree⟩ := freeIndex_some hi
    exact absurd ((h i h1 h2).symm.trans hfree) Bool.false_ne_true

/-! ## Answers -/

/-- The thread of a request waits for its answer. -/
structure AwaitsKeeper (s : State) (k : KeeperReq) : Prop where
  live : (s.thr k.key).live = true
  wait : (s.thr k.key).wait = some (.keeper k.id)

theorem AwaitsKeeper.of_threads (a : AwaitsKeeper s k) (h : t.threads = s.threads) : AwaitsKeeper t k := by
  have hthr : t.thr k.key = s.thr k.key := congrArg (tget · k.key Thread.reset) h
  exact ⟨hthr ▸ a.live, hthr ▸ a.wait⟩

theorem AwaitsKeeper.given (a : AwaitsKeeper s k) (g : Got) :
    giveAnswer s k g = s.updThr k.key fun t => { t with got := some g, wait := none } := by
  simp only [giveAnswer, a.live, a.wait, beq_self_eq_true, Bool.and_self, if_true]

theorem AwaitsKeeper.answered (a : AwaitsKeeper s k) (die : Nat) (g : Got) :
    giveAnswer (dropKeeper s die k.id) k g = Clauses.answered s die k g :=
  (a.of_threads (t := dropKeeper s die k.id) rfl).given g

/-- A renewal's state, the answer given after the hold's expiry is set. -/
theorem AwaitsKeeper.renewed (a : AwaitsKeeper s k) (die n : Nat) (h : Hold) :
    giveAnswer ({ dropKeeper s die k.id with free := (dropKeeper s die k.id).free + 1 }.setHold k.ctx n h) k (.words []) =
      { (Clauses.answered s die k (.words [])).setHold k.ctx n h with free := s.free + 1 } :=
  (a.of_threads (t := { dropKeeper s die k.id with free := (dropKeeper s die k.id).free + 1 }.setHold k.ctx n h) rfl).given _

theorem happens_keeperDo (hfind : (s.die die).keeper.find? (fun x => !x.crown) = some k) (h : keeperDo s die k = t) :
    Happens (.holdRequestAtKeeper die) s t :=
  happens_of_event (name := "HOLD_REQUEST_AT_KEEPER") (congrArg (event _ s) (by rw [hfind, Option.map_some, h]))

/-! ## What the keeper answers itself -/

/-- The handle a request names, and the hold under its index. -/
def askedHandle (k : KeeperReq) : Nat := k.arg.toNat % 2 ^ 16
def askedHold (s : State) (k : KeeperReq) : Hold := holdAt s k.ctx (askedHandle k % 4096)

theorem keeperDo_life (a : AwaitsKeeper s k) (hk : k.kind = 5)
    (hsame : (askedHold s k).reuse.toNat = askedHandle k / 4096) :
    keeperDo s die k = Clauses.answered s die k
      (.words [if (askedHold s k).live then BitVec.ofNat 64 ((askedHold s k).expiry - ctxNow s k.ctx) else 0]) := by
  have hb := beq_iff_eq.2 hsame
  simp only [askedHold, askedHandle] at hb ⊢
  simp only [keeperDo, hk, hb, Bool.not_true, Bool.false_eq_true, if_false, a.answered]
  rfl

theorem keeperDo_hinfo (a : AwaitsKeeper s k) (hk : k.kind = 6)
    (hsame : (askedHold s k).reuse.toNat = askedHandle k / 4096) (hlive : (askedHold s k).live = true) :
    keeperDo s die k = Clauses.answered s die k (.words [holdInfo (askedHold s k)]) := by
  have hb := beq_iff_eq.2 hsame
  simp only [askedHold, askedHandle] at hb hlive ⊢
  simp only [keeperDo, hk, hb, hlive, Bool.and_self, if_true, a.answered]

theorem keeperDo_renew (a : AwaitsKeeper s k) (hk : k.kind = 4)
    (hsame : (askedHold s k).reuse.toNat = askedHandle k / 4096) (hlive : (askedHold s k).live = true) :
    keeperDo s die k = { (Clauses.answered s die k (.words [])).setHold k.ctx (askedHandle k % 4096)
      { askedHold s k with expiry := renewTo s k.ctx (askedHold s k) k.life.toNat } with free := s.free + 1 } := by
  have hb := beq_iff_eq.2 hsame
  simp only [askedHold, askedHandle] at hb hlive ⊢
  simp only [keeperDo, hk, hb, hlive, Bool.and_self, if_true, a.renewed]

theorem keeperDo_lapsed (a : AwaitsKeeper s k) (h4 : 4 ≤ k.kind) (h6 : k.kind ≤ 6)
    (hgone : ¬(askedHold s k).reuse.toNat = askedHandle k / 4096 ∨ (k.kind ≠ 5 ∧ (askedHold s k).live = false)) :
    keeperDo s die k = Clauses.answered s die k (lapsedHandle (askedHandle k)) := by
  have hkind : k.kind = 4 ∨ k.kind = 5 ∨ k.kind = 6 := by omega
  simp only [askedHold, askedHandle] at hgone ⊢
  have hboth : k.kind ≠ 5 → ((holdAt s k.ctx (k.arg.toNat % 2 ^ 16 % 4096)).reuse.toNat == k.arg.toNat % 2 ^ 16 / 4096 &&
      (holdAt s k.ctx (k.arg.toNat % 2 ^ 16 % 4096)).live) = false := fun _ => by
    rcases hgone with hs | ⟨-, hl⟩
    · rw [beq_eq_false_iff_ne.2 hs, Bool.false_and]
    · rw [hl, Bool.and_false]
  rcases hkind with hk | hk | hk
  · simp only [keeperDo, hk, hboth (by omega), Bool.false_eq_true, if_false, a.answered]
  · have hs := beq_eq_false_iff_ne.2 (hgone.resolve_right fun h => h.1 hk)
    simp only [keeperDo, hk, hs, Bool.not_false, if_true, a.answered]
  · simp only [keeperDo, hk, hboth (by omega), Bool.false_eq_true, if_false, a.answered]

/-- R107: a request that needs a placement goes on to the Crown. -/
theorem keeperDo_crown (hk : k.kind = 0 ∨ k.kind = 2 ∨ k.kind = 3) : keeperDo s die k = s.updDie die fun d =>
    { d with keeper := d.keeper.map fun x => if x.id = k.id then { x with crown := true } else x } := by
  rcases hk with hk | hk | hk <;> simp only [keeperDo, hk]

/-! ## Renewals (R106) -/

/-- The expiry a renewal asks for, and what a waiter on a lock's word leaves of it. -/
def askedExpiry (s : State) (k : KeeperReq) : Nat :=
  ctxNow s k.ctx + max 1024 (min k.life.toNat (maxLife (askedHold s k).kind))
def clampedExpiry (s : State) (k : KeeperReq) : Nat :=
  min (askedExpiry s k) (max (askedHold s k).expiry ((askedHold s k).granted + 16000000))

theorem renewTo_of_no_lock (h : ∀ w va, (askedHold s k).kind ≠ .lock w va) :
    renewTo s k.ctx (askedHold s k) k.life.toNat = askedExpiry s k := by
  unfold renewTo
  dsimp only
  split
  · exact absurd ‹_› (h _ _)
  · rfl

theorem renewTo_of_lock {w va : Nat} (h : (askedHold s k).kind = .lock w va) :
    renewTo s k.ctx (askedHold s k) k.life.toNat = if lockWanted s w then clampedExpiry s k else askedExpiry s k := by
  simp only [clampedExpiry, askedExpiry, keptLife, renewTo, h]

theorem keepersAnswer : Clauses.KeepersAnswer := by
  intro s die k hfind hlive hwait
  have a : AwaitsKeeper s k := ⟨hlive, hwait⟩
  refine ⟨fun hk hs => happens_keeperDo hfind (keeperDo_life a hk hs),
    fun hk hs hl => happens_keeperDo hfind (keeperDo_hinfo a hk hs hl), fun hk hs hl hno => ?_,
    fun hk hs hl w va home hkind hhome => ⟨fun hq => ?_, fun hq => ?_⟩, fun hk hs hl w va hkind hhome => ?_,
    fun h4 h6 hgone => happens_keeperDo hfind (keeperDo_lapsed a h4 h6 hgone),
    fun hk => happens_keeperDo hfind (keeperDo_crown hk)⟩ <;>
    refine happens_keeperDo hfind ((keeperDo_renew a hk hs hl).trans ?_)
  · rw [renewTo_of_no_lock hno]
    rfl
  · have hw : lockWanted s w = false := by simp only [lockWanted, hhome, hq]
    rw [renewTo_of_lock hkind, hw]
    rfl
  · have hw : lockWanted s w = true := by simp only [lockWanted, hhome, hq]
    rw [renewTo_of_lock hkind, hw]
    rfl
  · have hw : lockWanted s w = (Config.freeWord s.free).getLsbD 0 := by simp only [lockWanted, hhome]
    rw [renewTo_of_lock hkind, hw]
    rfl

/-! ## Locks (R323) -/

/-- The hold of a lock that is asked for: its life, not yet begun, stands for its expiry. -/
def askedLock (s : State) (k : KeeperReq) (i : Nat) : Hold := { holdAt s k.ctx i with
  live := false, kind := .lock (k.wordPa / 8) k.arg.toNat, expiry := keptLife k.life.toNat 1000000, free := false }

/-- A lock's request in flight, its thread waiting for the word. -/
def lockQueued (s : State) (k : KeeperReq) (i : Nat) : State :=
  { s with reqs := s.reqs ++ [lockReq s k i], nextId := s.nextId + 1 }.updThr k.key
    fun t => { t with wait := some .reservation, seq := t.seq + 1 }

theorem keeperDo_lock (hk : k.kind = 1) (hlive : (s.thr k.key).live = true) (hi : freeIndex s k.ctx = some i) :
    keeperDo s die k = lockQueued ((dropKeeper s die k.id).setHold k.ctx i (askedLock s k i)) k i := by
  have hlive' : (((dropKeeper s die k.id).setHold k.ctx i (askedLock s k i)).thr k.key).live = true := hlive
  simp only [askedLock] at hlive'
  simp only [keeperDo, hk, hi, hlive', if_true]
  rfl

theorem locksJoinTheirWordsQueue : Clauses.LocksJoinTheirWordsQueue := by
  intro s die k hfind hlive hwait hk
  have a : AwaitsKeeper s k := ⟨hlive, hwait⟩
  refine ⟨fun hnone => happens_keeperDo hfind ?_, fun i hi => ?_⟩
  · simp only [keeperDo, hk, freeIndex_none hnone, a.answered]
    rfl
  · obtain ⟨h1, h2, hfree⟩ := freeIndex_some hi
    have hthr := State.thr_setThr_same ((dropKeeper s die k.id).setHold k.ctx i (askedLock s k i)) k.key
      { s.thr k.key with wait := some .reservation, seq := (s.thr k.key).seq + 1 }
    exact ⟨h1, h2, hfree, _, _, askedLock s k i, happens_keeperDo hfind (keeperDo_lock hk hlive hi), rfl, rfl, rfl, rfl, rfl,
      State.hold_setHold_same (dropKeeper s die k.id) k.ctx i _, rfl, rfl, rfl, congrArg Thread.wait hthr,
      (congrArg Thread.regs hthr :)⟩

end Sys2Proof.Machine
end

section
/-! PROOFS. The Crown's answers (R114, R146, R151, R321 to R325). -/

namespace Sys2Proof.Machine

open Sys2Proof.Safety

variable {s t u : State} {die i ctx : Nat} {k : KeeperReq} {p : Placement}

/-! ## Page tables written (R146) -/

/-- `t` is `s` with other memory, the number of tables made and the poison of their words. -/
def OnlyTables (s t : State) : Prop := t = { s with mem := t.mem, tableNext := t.tableNext, poison := t.poison }

theorem OnlyTables.trans (h : OnlyTables s t) (k : OnlyTables t u) : OnlyTables s u := by
  refine Eq.trans k ?_
  rw [h]

theorem onlyTables_writeLeaf (va stop leaf level table : Nat) (s : State) :
    OnlyTables s (writeLeaf va stop leaf level table s) := by
  induction level generalizing table s with
  | zero =>
    unfold writeLeaf
    dsimp only
    split <;> exact rfl
  | succ n ih =>
    unfold writeLeaf
    dsimp only
    split
    · exact rfl
    · split
      · exact ih ..
      · exact OnlyTables.trans (t := { (newTable s).2 with
          mem := writeWord (newTable s).2.mem (table + 8 * (va / 2 ^ (12 + 9 * (n + 1)) % 512))
            (BitVec.ofNat 64 ((newTable s).1 + 2 ^ 6)) }) rfl (ih ..)

theorem onlyTables_mapPage (s : State) (ctx va pa log gen : Nat) (r w x : Bool) :
    OnlyTables s (mapPage s ctx va pa log gen r w x) :=
  foldl_keeps (OnlyTables s) (fun _ _ h => h.trans (onlyTables_writeLeaf ..)) _ rfl

/-! ## Holds issued (R28, R107) -/

/-- A hold issued at an index now. -/
def issuedHold (s : State) (ctx i : Nat) (kind : HoldKind) (life : Nat) : Hold where
  reuse := if (holdAt s ctx i).issued then (holdAt s ctx i).reuse + 1 else (holdAt s ctx i).reuse
  issued := true
  live := true
  kind := kind
  expiry := ctxNow s ctx + keptLife life (maxLife kind)
  granted := ctxNow s ctx
  lapsing := []
  free := false

theorem issueHold_eq (s : State) (ctx i : Nat) (kind : HoldKind) (life : Nat) :
    issueHold s ctx i kind life = s.setHold ctx i (issuedHold s ctx i kind life) := rfl

/-- The hold table and the hold clock of a context, and the threads, are as they were. -/
structure SameHolds (s t : State) (ctx : Nat) : Prop where
  holds : (t.ctx ctx).holds = (s.ctx ctx).holds
  frozen : (t.ctx ctx).frozenAt = (s.ctx ctx).frozenAt
  ptb : t.ptb = s.ptb
  threads : t.threads = s.threads

theorem SameHolds.trans (h : SameHolds s t ctx) (k : SameHolds t u ctx) : SameHolds s u ctx :=
  ⟨k.holds.trans h.holds, k.frozen.trans h.frozen, k.ptb.trans h.ptb, k.threads.trans h.threads⟩

theorem SameHolds.of_ctxs (h : t.ctxs = s.ctxs) (hp : t.ptb = s.ptb) (ht : t.threads = s.threads) : SameHolds s t ctx := by
  have hctx : t.ctx ctx = s.ctx ctx := congrArg (tget · ctx Ctx.reset) h
  exact ⟨congrArg Ctx.holds hctx, congrArg Ctx.frozenAt hctx, hp, ht⟩

theorem OnlyTables.sameHolds (h : OnlyTables s t) : SameHolds s t ctx :=
  .of_ctxs (by rw [h]) (by rw [h]) (by rw [h])

theorem SameHolds.hold (h : SameHolds s t ctx) (i : Nat) : t.hold ctx i = s.hold ctx i := congrArg (tfind · i) h.holds

theorem SameHolds.issuedHold (h : SameHolds s t ctx) (i : Nat) (kind : HoldKind) (life : Nat) :
    issuedHold t ctx i kind life = issuedHold s ctx i kind life := by
  have hat : holdAt t ctx i = holdAt s ctx i := congrArg (Option.getD · Hold.none) (h.hold i)
  have hnow : ctxNow t ctx = ctxNow s ctx := by rw [ctxNow, ctxNow, h.frozen, h.ptb]
  rw [Machine.issuedHold, Machine.issuedHold, hat, hnow]

theorem sameHolds_listRange (s : State) (k : KeeperReq) (i : Nat) : SameHolds s (listRange s k i) ctx := by
  unfold listRange
  dsimp only
  split <;> exact .of_ctxs rfl rfl rfl

/-! ## What the Crown grants -/

/-- The generations of a range's pages recorded, and its frames taken. -/
def recorded (s : State) (ctx va bytes g : Nat) (fs : List (Nat × Nat)) : State :=
  { s.updCtx ctx fun c => { c with lastGen := (pagesOf va bytes).foldl (fun t p => tset t p g) c.lastGen } with
    usedFrames := s.usedFrames ++ fs }

theorem sameHolds_recorded (s : State) (ctx va bytes g : Nat) (fs : List (Nat × Nat)) :
    SameHolds s (recorded s ctx va bytes g fs) ctx := by
  have hctx : (recorded s ctx va bytes g fs).ctx ctx = { s.ctx ctx with
      lastGen := (pagesOf va bytes).foldl (fun t p => tset t p g) (s.ctx ctx).lastGen } :=
    (State.ctx_setCtx s ctx ctx _).trans (if_pos rfl)
  exact ⟨(congrArg Ctx.holds hctx :), (congrArg Ctx.frozenAt hctx :), rfl, rfl⟩

/-- The frames of a range mapped, page after page from its address. -/
def mapFrames (s : State) (k : KeeperReq) (va g : Nat) (frames : List Nat) : State :=
  (frames.mapIdx fun j f => (j, f)).foldl (fun s x =>
    mapPage s k.ctx (va + x.1 * 2 ^ rngLog k.arg) x.2 (rngLog k.arg) g true true true) s

theorem onlyTables_mapFrames (s : State) (k : KeeperReq) (va g : Nat) (frames : List Nat) :
    OnlyTables s (mapFrames s k va g frames) :=
  foldl_keeps (OnlyTables s) (fun _ _ h => h.trans (onlyTables_mapPage ..)) _ rfl

/-- R151, R322: a range is issued to a machine whose holds, clock and threads are as they were. -/
theorem grantRange_issues (s : State) (k : KeeperReq) (i va : Nat) (frames : List Nat) : ∃ u, SameHolds s u k.ctx ∧
    grantRange s k i va frames = issueHold u k.ctx i (.range va (rngPages k.arg) (rngLog k.arg)
      (newGen s k.ctx va (rngPages k.arg * 2 ^ rngLog k.arg)) frames) k.life.toNat := by
  have hshoot : SameHolds s (shootDown s k.ctx va (rngPages k.arg * 2 ^ rngLog k.arg)) k.ctx := .of_ctxs rfl rfl rfl
  have hmap := onlyTables_mapFrames (shootDown s k.ctx va (rngPages k.arg * 2 ^ rngLog k.arg)) k va
    (newGen s k.ctx va (rngPages k.arg * 2 ^ rngLog k.arg)) frames
  exact ⟨_, ((hshoot.trans hmap.sameHolds).trans (sameHolds_recorded _ k.ctx va (rngPages k.arg * 2 ^ rngLog k.arg)
    (newGen s k.ctx va (rngPages k.arg * 2 ^ rngLog k.arg)) (frames.map fun f => (f, 2 ^ rngLog k.arg)))).trans
    (sameHolds_listRange _ k i), rfl⟩

/-- R181, R185: arming slots touches ports only. -/
theorem placeRoute_eq (s : State) (ctx handle first : Nat) (d : List Word) :
    placeRoute s ctx handle first d = { s with ports := (placeRoute s ctx handle first d).ports } :=
  foldl_keeps (fun t : State => t = { s with ports := t.ports }) (fun t l h => by rw [h]; rfl) _ rfl

/-! ## The Crown's step -/

theorem happens_crownPlace {req : Nat} {d : Die}
    (hdie : s.dies.find? (fun x => x.2.keeper.any fun q => q.id == req && q.crown) = some (die, d))
    (hk : d.keeper.find? (fun q => q.id == req) = some k) (h : crownPlace s die k p = some t) :
    Happens (.crownHoldPlacement req p) s t := by
  refine happens_of_event (name := "CROWN_HOLD_PLACEMENT") (congrArg (event _ s) ?_)
  simp only [hdie, hk, h]

theorem answerWord_status (st : Nat) : answerWord st 0 0 = BitVec.ofNat 64 (st * 2 ^ 16) := by
  rw [answerWord, Nat.zero_mul, Nat.zero_add, Nat.add_zero]

theorem answerWord_handle (handle first : Nat) : answerWord 0 handle first = BitVec.ofNat 64 (first * 2 ^ 24 + handle) := by
  rw [answerWord, Nat.zero_mul, Nat.add_zero]

theorem crownPlace_forced (a : AwaitsKeeper s k) {st : Nat} (h : forcedStatus s k = some st) :
    crownPlace s die k (.refuse st) = some (Clauses.answered s die k
      (.words (BitVec.ofNat 64 (st * 2 ^ 16) :: if k.kind = 0 then [0] else []))) := by
  simp only [crownPlace, h, if_true, a.answered, answerWord_status]
  split <;> rfl

/-- R324: with no slots on this package, or a hop on another, the Crown may refuse a route with STATUS 5. -/
theorem crownPlace_noSlots (a : AwaitsKeeper s k) (h : forcedStatus s k = none) (hk : k.kind = 2)
    (hi : freeIndex s k.ctx = some i) (hb : slotsBefore s k = false)
    (hfull : rtAway s k.desc = true ∨ ∀ f, f < 2048 → rtPref k.desc ≤ f → rtFree s k.desc f = false) :
    crownPlace s die k (.refuse 5) = some (Clauses.answered s die k (.words [BitVec.ofNat 64 (5 * 2 ^ 16)])) := by
  have hall : (rtAway s k.desc || (List.range 2048).all fun f => f < rtPref k.desc || !rtFree s k.desc f) = true := by
    rcases hfull with haway | hfree
    · rw [haway, Bool.true_or]
    · have : ((List.range 2048).all fun f => f < rtPref k.desc || !rtFree s k.desc f) = true := by
        refine List.all_eq_true.2 fun f hf => ?_
        rcases Nat.lt_or_ge f (rtPref k.desc) with hlt | hge
        · rw [decide_eq_true hlt, Bool.true_or]
        · rw [hfree f (List.mem_range.1 hf) hge, Bool.not_false, Bool.or_true]
      rw [this, Bool.or_true]
  simp only [crownPlace, h, hi, hk, hb, hall, Bool.not_false, Bool.and_self, if_true, a.answered, answerWord_status]

/-- R325: a group of the same name elsewhere may have another descriptor (STATUS 7). -/
theorem crownPlace_differs (a : AwaitsKeeper s k) (h : forcedStatus s k = none) (hk : k.kind = 3)
    (hi : freeIndex s k.ctx = some i) :
    crownPlace s die k (.refuse 7) = some (Clauses.answered s die k (.words [BitVec.ofNat 64 (7 * 2 ^ 16)])) := by
  simp only [crownPlace, h, hi, hk, a.answered, answerWord_status]

/-! ## Grants -/

/-- What a grant leaves: the hold issued at the index, and its answer for the thread. -/
def Grants (s t : State) (k : KeeperReq) (i : Nat) (kind : HoldKind) (ws : List Word) : Prop :=
  ∃ h : Hold, t.hold k.ctx i = some h ∧ h = issuedHold s k.ctx i kind k.life.toNat ∧
    (t.thr k.key).got = some (.words ws) ∧ (t.thr k.key).wait = none ∧ (t.thr k.key).regs = (s.thr k.key).regs

theorem AwaitsKeeper.grants (a : AwaitsKeeper s k) {kind : HoldKind} {ws : List Word} (ht : t.threads = s.threads)
    (hh : t.hold k.ctx i = some (issuedHold s k.ctx i kind k.life.toNat)) :
    Grants s (giveAnswer t k (.words ws)) k i kind ws := by
  rw [(a.of_threads ht).given]
  have hthr : t.thr k.key = s.thr k.key := congrArg (tget · k.key Thread.reset) ht
  have hnew := State.thr_setThr_same t k.key { t.thr k.key with got := some (.words ws), wait := none }
  exact ⟨_, hh, rfl, congrArg Thread.got hnew, congrArg Thread.wait hnew,
    (congrArg Thread.regs hnew).trans (congrArg Thread.regs hthr :)⟩

theorem hold_issueHold (h : SameHolds s u ctx) (kind : HoldKind) (life : Nat) :
    (issueHold u ctx i kind life).hold ctx i = some (issuedHold s ctx i kind life) := by
  rw [issueHold_eq, State.hold_setHold_same, h.issuedHold]

theorem sameHolds_dropKeeper (s : State) (die id : Nat) : SameHolds s (dropKeeper s die id) ctx := .of_ctxs rfl rfl rfl

/-- R322: a range granted. -/
theorem crownPlace_range (a : AwaitsKeeper s k) (h : forcedStatus s k = none) (hi : freeIndex s k.ctx = some i)
    {va : Nat} {frames : List Nat} (hk : k.kind = 0) (hok : rangeOk s k.ctx (tileOf k.key) k.arg va frames = true) :
    let g := newGen s k.ctx va (rngPages k.arg * 2 ^ rngLog k.arg)
    let kind := HoldKind.range va (rngPages k.arg) (rngLog k.arg) g frames
    ∃ t, crownPlace s die k (.range va frames) = some t ∧ Grants s t k i kind
      [BitVec.ofNat 64 (handleOf (issuedHold s k.ctx i kind k.life.toNat) i), BitVec.ofNat 64 (g * 2 ^ 48 + va)] := by
  intro g kind
  obtain ⟨u, hu, hgrant⟩ := grantRange_issues (dropKeeper s die k.id) k i va frames
  have hsame := (sameHolds_dropKeeper s die k.id).trans hu
  have hhold := hold_issueHold (i := i) hsame kind k.life.toNat
  have hgrant' : grantRange (dropKeeper s die k.id) k i va frames = issueHold u k.ctx i kind k.life.toNat := hgrant
  refine ⟨_, ?_, a.grants (t := issueHold u k.ctx i kind k.life.toNat) hsame.threads hhold⟩
  simp only [crownPlace, h, hi, hk, hok, if_true, hgrant', holdAt_of_hold hhold, answerWord_handle, Nat.zero_mul, Nat.zero_add]
  rfl

/-- R324: a route granted. -/
theorem crownPlace_route (a : AwaitsKeeper s k) (h : forcedStatus s k = none) (hi : freeIndex s k.ctx = some i)
    {first : Nat} (hk : k.kind = 2) (hpref : rtPref k.desc ≤ first) (hlt : first < 2048)
    (hfree : rtFree s k.desc first = true) (hb : slotsBefore s k = false) :
    let kind := HoldKind.route (rtPort k.desc) first (rtSlots k.desc) k.desc
    ∃ t, crownPlace s die k (.route first) = some t ∧ Grants s t k i kind
      [BitVec.ofNat 64 (first * 2 ^ 24 + handleOf (issuedHold s k.ctx i kind k.life.toNat) i)] := by
  intro kind
  have hsame := sameHolds_dropKeeper (ctx := k.ctx) s die k.id
  have hhold := hold_issueHold (i := i) hsame kind k.life.toNat
  generalize hv : issueHold (dropKeeper s die k.id) k.ctx i kind k.life.toNat = v at hhold
  have hthr : v.threads = s.threads := by rw [← hv]; rfl
  have hplace := placeRoute_eq v k.ctx (handleOf (holdAt v k.ctx i) i) first k.desc
  have hhold' : (placeRoute v k.ctx (handleOf (holdAt v k.ctx i) i) first k.desc).hold k.ctx i = v.hold k.ctx i := by
    rw [hplace]; rfl
  have hcond : rtPref k.desc ≤ first ∧ first < 2048 ∧ rtFree s k.desc first = true ∧ (!slotsBefore s k) = true :=
    ⟨hpref, hlt, hfree, by rw [hb]; rfl⟩
  refine ⟨_, ?_, a.grants (t := placeRoute v k.ctx (handleOf (holdAt v k.ctx i) i) first k.desc)
    (by rw [hplace]; exact hthr) (hhold'.trans hhold)⟩
  simp only [kind] at hv
  simp only [crownPlace, h, hi, hk, if_pos hcond, hv]
  rw [holdAt_of_hold (hhold'.trans hhold), answerWord_handle]

/-- R325: a group granted. -/
theorem crownPlace_group (a : AwaitsKeeper s k) (h : forcedStatus s k = none) (hi : freeIndex s k.ctx = some i)
    (hk : k.kind = 3) : ∃ t, crownPlace s die k .group = some t ∧ Grants s t k i (.group k.desc false)
      [BitVec.ofNat 64 (handleOf (issuedHold s k.ctx i (.group k.desc false) k.life.toNat) i)] := by
  have hsame := sameHolds_dropKeeper (ctx := k.ctx) s die k.id
  have hhold := hold_issueHold (i := i) hsame (.group k.desc false) k.life.toNat
  refine ⟨_, ?_, a.grants (t := issueHold (dropKeeper s die k.id) k.ctx i (.group k.desc false) k.life.toNat) rfl hhold⟩
  simp only [crownPlace, h, hi, hk, holdAt_of_hold hhold, answerWord_handle, Nat.zero_mul, Nat.zero_add]

theorem theCrownAnswers : Clauses.TheCrownAnswers := by
  intro s req die d k hdie hreq hlive hwait
  have a : AwaitsKeeper s k := ⟨hlive, hwait⟩
  refine ⟨fun st h => happens_crownPlace hdie hreq (crownPlace_forced a h), fun h hk hi hb hfull => ?_, fun h hk hi => ?_,
    fun i h hi => ⟨fun va frames hk hok => ?_, fun first hk hpref hlt hfree hb => ?_, fun hk => ?_⟩⟩
  · obtain ⟨i, hi⟩ := Option.isSome_iff_exists.1 hi
    exact happens_crownPlace hdie hreq (crownPlace_noSlots a h hk hi hb hfull)
  · obtain ⟨i, hi⟩ := Option.isSome_iff_exists.1 hi
    exact happens_crownPlace hdie hreq (crownPlace_differs a h hk hi)
  · obtain ⟨t, hstep, _, hhold, rfl, hanswer⟩ := crownPlace_range (die := die) a h hi hk hok
    exact ⟨t, _, happens_crownPlace hdie hreq hstep, hhold, rfl, rfl, rfl, rfl, rfl, hanswer⟩
  · obtain ⟨t, hstep, _, hhold, rfl, hanswer⟩ := crownPlace_route (die := die) a h hi hk hpref hlt hfree hb
    exact ⟨t, _, happens_crownPlace hdie hreq hstep, hhold, rfl, rfl, rfl, rfl, rfl, hanswer⟩
  · obtain ⟨t, hstep, _, hhold, rfl, hanswer⟩ := crownPlace_group (die := die) a h hi hk
    exact ⟨t, _, happens_crownPlace hdie hreq hstep, hhold, rfl, rfl, rfl, rfl, rfl, hanswer⟩

end Sys2Proof.Machine
end

section
/-! PROOFS. Lapses: the mark of a hold whose expiry has come, and the page of a lapsed range at its home (R77, R108, R111, R112,
R152, R154). -/

namespace Sys2Proof.Machine

open Sys2Proof.Safety

variable {s t u : State} {ctx i pa : Nat} {h : Hold}

/-! ## The mark (R108) -/

theorem happens_lapseMark (hh : s.hold ctx i = some h) (hlive : h.live = true) (hrun : (s.ctx ctx).frozenAt = none)
    (hdue : h.expiry ≤ s.ptb) (hk : h.kind ≠ .context) : Happens (.holdLapseMark ctx i) s (lapseMark s ctx i h) := by
  refine happens_of_event (name := "HOLD_LAPSE_MARK") (congrArg (event _ s) ?_)
  have hmay : holdLapsable s ctx i = some h := by
    simp only [holdLapsable, hh, hlive, hrun, decide_eq_true hdue, Option.isNone_none, Bool.and_self, if_true]
  simp only [holdLapse, hmay]

theorem happens_contextMark (hh : s.hold ctx i = some h) (hlive : h.live = true) (hrun : (s.ctx ctx).frozenAt = none)
    (hdue : h.expiry ≤ s.ptb) (hk : h.kind = .context) :
    Happens (.holdLapseMark ctx i) s (s.setHold ctx i { h with live := false }) := by
  refine happens_of_event (name := "HOLD_LAPSE_MARK") (congrArg (event _ s) ?_)
  have hmay : holdLapsable s ctx i = some h := by
    simp only [holdLapsable, hh, hlive, hrun, decide_eq_true hdue, Option.isNone_none, Bool.and_self, if_true]
  simp only [holdLapse, hmay, hk]

theorem groupLapse_of_other (hk : ∀ d b, h.kind ≠ .group d b) : groupLapse s ctx i h = s := by
  unfold groupLapse
  split
  · exact absurd ‹_› (hk _ _)
  · rfl

theorem routeLapse_of_other (hk : ∀ p f n d, h.kind ≠ .route p f n d) : routeLapse s ctx i h = s := by
  unfold routeLapse
  split
  · exact absurd ‹_› (hk _ _ _ _)
  · rfl

/-! ## Ranges (R152, R226) -/

/-- The TLB of a tile once each core's is rewritten. -/
theorem tlb_core_map {f : Core → Core} {g : List TlbEntry → List TlbEntry} (hc : t.cores = s.cores.map fun c => (c.1, f c.2))
    (hg : g [] = []) (hf : ∀ c, (f c).tlb = g c.tlb) (tile : Nat) : (t.core tile).tlb = g (s.core tile).tlb := by
  simp only [State.core, hc, tget, tfind_map fun _ => f]
  cases tfind s.cores tile with
  | none => exact hg.symm
  | some c => exact hf c

/-- A core traces into a range of a context. -/
def tracesInto (ctx handle : Nat) (c : Core) : Bool :=
  match c.trace with | some t => t.ctx == ctx && t.handle == handle | none => false

/-- A core whose trace encoder stops where it traces into the lapsed range (R226). -/
def traceStopped (ctx handle : Nat) (c : Core) : Core :=
  if tracesInto ctx handle c then { c with trace := none, dbgctl := c.dbgctl &&& ~~~(0x100#64) } else c

theorem tlb_traceStopped (ctx handle : Nat) (c : Core) : (traceStopped ctx handle c).tlb = c.tlb := by
  unfold traceStopped
  split <;> rfl

theorem stopTraces_cores (s : State) (ctx handle : Nat) :
    (stopTraces s ctx handle).cores = s.cores.map fun c => (c.1, traceStopped ctx handle c.2) := by
  unfold stopTraces
  dsimp only
  split <;> rfl

theorem tlb_stopTraces (s : State) (ctx handle tile : Nat) :
    ((stopTraces s ctx handle).core tile).tlb = (s.core tile).tlb :=
  tlb_core_map (g := id) (stopTraces_cores s ctx handle) rfl (tlb_traceStopped ctx handle) tile

/-- R152: no TLB of a tile holds a page of a span that has been shot down. -/
theorem tlb_shootDown (s : State) (ctx va bytes tile : Nat) :
    ((shootDown s ctx va bytes).core tile).tlb = tlbClear ctx va bytes (s.core tile).tlb :=
  tlb_core_map (f := fun c => { c with tlb := tlbClear ctx va bytes c.tlb }) rfl rfl (fun _ => rfl) tile

theorem mem_tlbClear {ctx va bytes : Nat} {l : List TlbEntry} {e : TlbEntry} (he : e ∈ tlbClear ctx va bytes l)
    (hctx : e.ctx = ctx) : va + bytes ≤ e.vpn * 4096 ∨ e.vpn * 4096 + 2 ^ e.log ≤ va := by
  have hp := (List.mem_filter.1 he).2
  simp only [hctx, beq_self_eq_true, Bool.true_and, Bool.not_and, Bool.or_eq_true, Bool.not_eq_true',
    decide_eq_false_iff_not, Nat.not_lt] at hp
  exact hp

theorem markLapse_range {va pages log gen : Nat} {frames : List Nat} (hk : h.kind = .range va pages log gen frames) :
    markLapse s ctx i h = (stopTraces (shootDown ((List.range pages).foldl
      (fun s j => lapLeaf s ctx (va + j * 2 ^ log) log) s) ctx va (pages * 2 ^ log)) ctx (handleOf h i)).setHold ctx i
        { h with live := false, lapsing := frames } := by
  simp only [markLapse, hk]

theorem lapseMark_range {va pages log gen : Nat} {frames : List Nat} (hk : h.kind = .range va pages log gen frames) :
    lapseMark s ctx i h = markLapse s ctx i h := by
  rw [lapseMark, groupLapse_of_other (fun d b => hk ▸ HoldKind.noConfusion),
    routeLapse_of_other (fun p f n d => hk ▸ HoldKind.noConfusion)]

/-! ## Locks -/

theorem lapseMark_lock {w va : Nat} (hk : h.kind = .lock w va) : lapseMark s ctx i h = markLapse s ctx i h := by
  rw [lapseMark, groupLapse_of_other (fun d b => hk ▸ HoldKind.noConfusion),
    routeLapse_of_other (fun p f n d => hk ▸ HoldKind.noConfusion)]

/-- A lock that no reservation at its home stands for is free at once (R111). -/
theorem markLapse_lock_here {w va home : Nat} (hk : h.kind = .lock w va) (hhome : homeTile s (8 * w) = some home)
    (hnone : ∀ v ∈ (s.bank home).resv, v.lock ≠ some (ctx, i)) :
    markLapse s ctx i h = s.setHold ctx i { h with live := false, free := true } := by
  have hany : ((s.bank home).resv.any fun v => v.word == w && v.lock == some (ctx, i)) = false :=
    List.any_eq_false.2 fun v hv => by
      rw [beq_eq_false_iff_ne.2 (hnone v hv), Bool.and_false]
      exact Bool.false_ne_true
  have hbank : ((s.setHold ctx i { h with live := false, free := true }).bank home).resv.any
      (fun v => v.word == w && v.lock == some (ctx, i)) = false := hany
  rw [hk] at hbank
  simp only [markLapse, hk, hhome, hbank, Bool.false_eq_true, if_false]

/-- The packet that ends a lock at its word's home on another package (R111; log entry 75). -/
def lockPacket (s : State) (ctx i w : Nat) : Packet :=
  { mkPacket s 0x05 (s.ctx ctx).pkey.toNat (pkgOf (8 * w)) s.txid 0 (8 * w) [] with stamp := some (lockNumber ctx i, false) }

theorem markLapse_lock_away {w va port : Nat} (hk : h.kind = .lock w va) (hhome : homeTile s (8 * w) = none)
    (hport : portFor s (pkgOf (8 * w)) = some port) : markLapse s ctx i h =
      sendPacket (s.setHold ctx i { h with live := false, lapsing := [8 * w] }) port (.pool 0) (lockPacket s ctx i w) := by
  have hport' : portFor (s.setHold ctx i { h with live := false, lapsing := [8 * w] }) (pkgOf (8 * w)) = some port := hport
  rw [hk] at hport'
  simp only [markLapse, hk, hhome, tellHome, hport']
  rfl

theorem fifo_sendPacket (s : State) (port : Nat) (o : SlotOwner) (p : Packet) : ∃ x : OutPacket,
    ((sendPacket s port o p).port port).fifo = (s.port port).fifo ++ [x] ∧ x.pkt = sealed p := by
  have hport := State.port_setPort s port port
    { s.port port with fifo := (s.port port).fifo ++ [⟨o, sealed p, s.ptb + homePath, 1 + p.len⟩] }
  rw [if_pos rfl] at hport
  exact ⟨_, (congrArg Port.fifo hport :), rfl⟩

/-! ## Routes (R112) -/

theorem failItem_eq (s : State) (tile : Nat) (e : Eng) (j : Nat) (f : FaultRec) :
    failItem s tile e j f = { s with cores := (failItem s tile e j f).cores } := rfl

theorem routeLapse_eq (s : State) (ctx i : Nat) (h : Hold) : routeLapse s ctx i h =
    { s with cores := (routeLapse s ctx i h).cores, ports := (routeLapse s ctx i h).ports } := by
  unfold routeLapse
  dsimp only
  split
  · refine foldl_keeps (fun t : State => t = { s with cores := t.cores, ports := t.ports }) (fun t x ht => ?_) _ rfl
    split
    · rw [failItem_eq, ht]
    · exact ht
  · rfl

theorem lapseMark_route {port first n : Nat} {d : List Word} (hk : h.kind = .route port first n d) :
    lapseMark s ctx i h = routeLapse (s.setHold ctx i { h with live := false }) ctx i h := by
  rw [lapseMark, groupLapse_of_other (fun d b => hk ▸ HoldKind.noConfusion)]
  simp only [markLapse, hk]

theorem expiredHoldsLapse : Clauses.ExpiredHoldsLapse := by
  intro s ctx i h hh hlive hrun hdue
  have hmark := happens_lapseMark hh hlive hrun hdue
  refine ⟨fun va pages log gen frames hk => ?_, fun w va home hk hhome hnone => ?_, fun w va port hk hhome hport => ?_,
    fun port first n d hk => ?_, fun hk => happens_contextMark hh hlive hrun hdue hk⟩
  · have hstep := hmark (hk ▸ HoldKind.noConfusion)
    rw [lapseMark_range hk, markLapse_range hk] at hstep
    refine ⟨_, hstep, State.hold_setHold_same .., fun tile e he hctx => ?_⟩
    have htlb := tlb_shootDown ((List.range pages).foldl (fun s j => lapLeaf s ctx (va + j * 2 ^ log) log) s) ctx va
      (pages * 2 ^ log) tile
    refine mem_tlbClear (l := (((List.range pages).foldl (fun s j => lapLeaf s ctx (va + j * 2 ^ log) log) s).core tile).tlb)
      ?_ hctx
    rw [← htlb, ← tlb_stopTraces _ ctx (handleOf h i)]
    exact he
  · have hstep := hmark (hk ▸ HoldKind.noConfusion)
    rwa [lapseMark_lock hk, markLapse_lock_here hk hhome hnone] at hstep
  · have hstep := hmark (hk ▸ HoldKind.noConfusion)
    rw [lapseMark_lock hk, markLapse_lock_away hk hhome hport] at hstep
    obtain ⟨o, hfifo, hpkt⟩ := fifo_sendPacket (s.setHold ctx i { h with live := false, lapsing := [8 * w] }) port (.pool 0)
      (lockPacket s ctx i w)
    refine ⟨_, o, hstep, State.hold_setHold_same s ctx i { h with live := false, lapsing := [8 * w] }, hfifo, ?_, ?_, ?_, rfl⟩ <;>
      rw [hpkt] <;> rfl
  · have hstep := hmark (hk ▸ HoldKind.noConfusion)
    rw [lapseMark_route hk] at hstep
    have heq := routeLapse_eq (s.setHold ctx i { h with live := false }) ctx i h
    refine ⟨_, hstep, ?_, ?_⟩
    · rw [heq]; rfl
    · rw [heq]; exact State.hold_setHold_same ..

end Sys2Proof.Machine
end

section
/-! PROOFS. The page of a lapsed range at its home (R77, R111, R154), walkers and what they bring (R149, R150), and all of holds
and walks. -/

namespace Sys2Proof.Machine

open Sys2Proof.Safety

variable {s t : State} {ctx i pa : Nat} {h : Hold}

/-! ## A page zeroed (R154) -/

/-- The grants that zeroing takes touch banks only (R171). -/
theorem oweZero_eq (s : State) (pa bytes : Nat) : oweZero s pa bytes = { s with banks := (oweZero s pa bytes).banks } := by
  unfold oweZero
  split
  · exact foldl_keeps (fun t : State => t = { s with banks := t.banks }) (fun t x ht => by rw [ht]; rfl) _ rfl
  · rfl

theorem zeroFrame_eq (s : State) (pa bytes : Nat) : zeroFrame s pa bytes = { s with
    banks := (zeroFrame s pa bytes).banks
    launches := (zeroFrame s pa bytes).launches
    mem := (zeroFrame s pa bytes).mem
    tags := (zeroFrame s pa bytes).tags
    poison := (zeroFrame s pa bytes).poison
    dies := (zeroFrame s pa bytes).dies } := by
  unfold zeroFrame
  dsimp only
  rw [oweZero_eq]

/-- Memory without the cells of a span reads zero there and as before elsewhere. -/
theorem readByte_filter_outside (pa bytes : Nat) (m : List Host.Cell) (a : Nat) :
    readByte (m.filter fun c => !(decide (pa ≤ c.1) && decide (c.1 < pa + bytes))) a =
      if pa ≤ a ∧ a < pa + bytes then 0 else readByte m a := by
  induction m with
  | nil => exact (ite_self _).symm
  | cons c r ih =>
    obtain ⟨j, x⟩ := c
    by_cases hj : pa ≤ j ∧ j < pa + bytes
    · have hgone : (!(decide (pa ≤ j) && decide (j < pa + bytes))) = false := by
        rw [decide_eq_true hj.1, decide_eq_true hj.2]
        rfl
      rw [List.filter_cons, hgone, if_neg Bool.false_ne_true, ih]
      by_cases ha : pa ≤ a ∧ a < pa + bytes
      · rw [if_pos ha, if_pos ha]
      · have hja : ¬j = a := fun he => ha (he ▸ hj)
        rw [if_neg ha, if_neg ha, readByte, if_neg hja]
    · have hkept : (!(decide (pa ≤ j) && decide (j < pa + bytes))) = true := by
        rw [← Bool.decide_and, decide_eq_false hj]
        rfl
      rw [List.filter_cons, hkept, if_pos rfl, readByte, readByte, ih]
      by_cases hja : j = a
      · rw [if_pos hja, if_pos hja, if_neg (hja ▸ hj)]
      · rw [if_neg hja, if_neg hja]

theorem readByte_zeroFrame (s : State) (pa bytes a : Nat) : readByte (zeroFrame s pa bytes).mem a =
    if pa ≤ a ∧ a < pa + bytes then 0 else readByte s.mem a := by
  have hmem : (oweZero s pa bytes).mem = s.mem := by rw [oweZero_eq]
  rw [← hmem]
  exact readByte_filter_outside pa bytes (oweZero s pa bytes).mem a

/-! ## The home's step -/

/-- A part outside a frame is none that its lapse ends. -/
theorem lapsePart_outside {r : Req} {j log : Nat} {p : Part} (hp : inFrame pa log p = false) :
    lapsePart pa log s r j p = s := by
  rw [lapsePart, hp]
  exact if_neg fun h => Bool.false_ne_true h.1

theorem pageLapsing_of_range (hh : s.hold ctx i = some h) (hk : ∃ va n log gen frames, h.kind = .range va n log gen frames)
    (hpa : h.lapsing.contains pa = true) : pageLapsing s ctx i pa = true := by
  obtain ⟨va, n, log, gen, frames, hk⟩ := hk
  simp only [pageLapsing, hh, hpa, hk, Bool.and_self]

/-- The hold once a page's home is done with it, and the machine. -/
def pageDone (h : Hold) (pa : Nat) : Hold := { h with lapsing := h.lapsing.erase pa, free := (h.lapsing.erase pa).isEmpty }
def pageZeroed (s : State) (ctx i pa : Nat) (h : Hold) : State :=
  { (zeroFrame s pa (2 ^ frameLog h)).setHold ctx i (pageDone h pa) with
    usedFrames := (zeroFrame s pa (2 ^ frameLog h)).usedFrames.filter fun f => f.1 != pa }

/-- R77, R115: with nothing of the page still to be performed, its home zeroes it. -/
theorem lapseHome_eq (hh : s.hold ctx i = some h) (hi : i ≤ 4095)
    (hk : ∃ va n log gen frames, h.kind = .range va n log gen frames) (hpa : h.lapsing.contains pa = true)
    (hreqs : ∀ r ∈ s.reqs, ∀ p ∈ r.parts, inFrame pa (frameLog h) p = false)
    (hcomb : ∀ x ∈ s.threads, ∀ c ∈ x.2.comb, c.granule * 64 < pa ∨ pa + 2 ^ frameLog h ≤ c.granule * 64) :
    lapseHome s ctx i pa = some (pageZeroed s ctx i pa h) := by
  have hne : i ≠ peerRange := by unfold peerRange; omega
  have hheld : (s.threads.any fun t => t.2.comb.any fun c =>
      decide (pa ≤ c.granule * 64) && decide (c.granule * 64 < pa + 2 ^ frameLog h)) = false := by
    refine List.any_eq_false.2 fun x hx => ?_
    rw [Bool.not_eq_true]
    refine List.any_eq_false.2 fun c hc => ?_
    rw [← Bool.decide_and, decide_eq_true_eq]
    have := hcomb x hx c hc
    omega
  have hmust : (s.reqs.any fun r => r.parts.any fun p => inFrame pa (frameLog h) p && mustPerform s r p) = false := by
    refine List.any_eq_false.2 fun r hr => ?_
    rw [Bool.not_eq_true]
    refine List.any_eq_false.2 fun p hp => ?_
    rw [hreqs r hr p hp, Bool.false_and]
    exact Bool.false_ne_true
  have hends : (s.reqs.foldl (fun s r => (r.parts.mapIdx fun j p => (j, p)).foldl
      (fun s x => lapsePart pa (frameLog h) s r x.1 x.2) s) s) = s := by
    refine foldl_eq_self fun r hr => foldl_eq_self fun x hx => ?_
    obtain ⟨j, hj, rfl⟩ := List.mem_mapIdx.1 hx
    exact lapsePart_outside (hreqs r hr _ (List.getElem_mem hj))
  simp only [lapseHome, if_neg hne, pageLapsing_of_range hh hk hpa, hh, hheld, hmust, hends, Bool.not_true, Bool.or_self,
    Bool.false_eq_true, if_false]
  rfl

theorem lapsedPagesAreZeroed : Clauses.LapsedPagesAreZeroed := by
  intro s ctx i pa h hh hi hk hpa hreqs hcomb
  have hz := zeroFrame_eq s pa (2 ^ frameLog h)
  have hused : (zeroFrame s pa (2 ^ frameLog h)).usedFrames = s.usedFrames := by rw [hz]
  refine ⟨pageZeroed s ctx i pa h, happens_of_event (name := "LAPSE_AT_HOME")
      (congrArg (event _ s) (lapseHome_eq hh hi hk hpa hreqs hcomb)), ?_, ?_, readByte_zeroFrame s pa _, fun l hl x hx => ?_,
    State.hold_setHold_same (zeroFrame s pa (2 ^ frameLog h)) ctx i _, fun f hf => ?_, fun f hf hne => ?_⟩
  · exact (congrArg State.reqs hz :)
  · exact (congrArg State.threads hz :)
  · obtain ⟨y, -, rfl⟩ := List.mem_map.1 (show l ∈ (oweZero s pa (2 ^ frameLog h)).launches.map _ from hl)
    have hout := (List.mem_filter.1 hx).2
    dsimp only at hout
    rw [← Bool.decide_and, Bool.not_eq_true', decide_eq_false_iff_not] at hout
    omega
  · exact bne_iff_ne.1 (List.mem_filter.1 hf).2
  · exact List.mem_filter.2 ⟨hused ▸ hf, bne_iff_ne.2 hne⟩

/-! ## Walkers (R150) -/

theorem walkersTakeThePagesThatWait : Clauses.WalkersTakeThePagesThatWait := by
  intro s die ctx
  dsimp only
  intro hfree hnext
  exact happens_of_event (name := "TLB_MISS_WALK") (congrArg (event _ s) (if_pos ⟨hfree, hnext⟩))

/-! ## What a walk brings (R149, R150) -/

variable {key vpn die id : Nat} {w : Walk} {r : Except Nat TlbEntry}

/-- R149: an entry filled in touches the TLBs only, and stands in the tile's. -/
theorem tlbFill_eq (s : State) (tile : Nat) (e : TlbEntry) : tlbFill s tile e =
    { s with cores := (tlbFill s tile e).cores, quads := (tlbFill s tile e).quads } := rfl

theorem mem_tlbFill (s : State) (tile : Nat) (e : TlbEntry) : e ∈ ((tlbFill s tile e).core tile).tlb := by
  have hcore := State.core_setCore_same s tile
    { s.core tile with tlb := (e :: (s.core tile).tlb.filter (· != e)).take 64 }
  have htlb : ((tlbFill s tile e).core tile).tlb = (e :: (s.core tile).tlb.filter (· != e)).take 64 := congrArg Core.tlb hcore
  rw [htlb, List.take_succ_cons]
  exact List.mem_cons_self

/-- The fault of a walk, which waits for the access that missed. -/
def walkFaultOf (r : Except Nat TlbEntry) (vpn : Nat) : Option (Nat × Nat) :=
  match r with | .ok _ => none | .error c => some (vpn, c)

/-- A thread that a walk's result has reached. -/
def walked (x : Thread) (vpn : Nat) (r : Except Nat TlbEntry) : Thread :=
  { x with missPage := none, wait := none, walkFault := walkFaultOf r vpn }

/-- The TLBs filled with what a walk has found. -/
def filledBy (r : Except Nat TlbEntry) (s : State) (key : Nat) : State :=
  match r with | .ok e => tlbFill s (tileOf key) e | .error _ => s

theorem filledBy_eq (r : Except Nat TlbEntry) (s : State) (key : Nat) : filledBy r s key =
    { s with cores := (filledBy r s key).cores, quads := (filledBy r s key).quads } := by
  cases r with
  | ok e => exact tlbFill_eq ..
  | error c => rfl

theorem walkThread_waiting (hmiss : (s.thr key).missPage = some vpn) (hwait : (s.thr key).wait = some .translation) :
    walkThread r vpn s key = (filledBy r s key).setThr key (walked (s.thr key) vpn r) := by
  have hthr : (filledBy r s key).thr key = s.thr key := by rw [filledBy_eq]; rfl
  have hwalk : walkThread r vpn s key = if ((filledBy r s key).thr key).missPage = some vpn then
      (filledBy r s key).setThr key { (filledBy r s key).thr key with
        missPage := none
        wait := if ((filledBy r s key).thr key).wait = some .translation then none else ((filledBy r s key).thr key).wait
        walkFault := walkFaultOf r vpn }
    else filledBy r s key := by
    cases r <;> rfl
  rw [hwalk, hthr, if_pos hmiss, if_pos hwait]
  rfl

/-- A thread that waits for walks to end goes on. -/
def walksEnded (x : Thread) : Thread := if x.wait = some .tlbInvalidate then { x with wait := none } else x

/-- The machine once walk `id` has been delivered to its one waiter, before threads that wait for walks to end go on. -/
def delivered (s : State) (die id key : Nat) (vpn : Nat) (r : Except Nat TlbEntry) : State :=
  (filledBy r (s.updDie die fun d => { d with walks := d.walks.filter fun x => x.id != id }) key).setThr key
    (walked (s.thr key) vpn r)

theorem walkDone_eq (hfind : (s.die die).walks.find? (fun x => x.id == id && x.taken) = some w) (hstale : w.stale = false)
    (hwaiters : w.waiters = [key]) (hengs : w.engs = []) (hmiss : (s.thr key).missPage = some w.vpn)
    (hwait : (s.thr key).wait = some .translation) (hr : walk s w.ctx (w.vpn * 4096) = r)
    (ht : delivered s die id key w.vpn r = t) :
    walkDone s die id = some (if staleWalks t then t
      else { t with threads := t.threads.map fun x => (x.1, walksEnded x.2) }) := by
  have hthread := walkThread_waiting (r := r)
    (s := s.updDie die fun d => { d with walks := d.walks.filter fun x => x.id != id }) (key := key) (vpn := w.vpn) hmiss hwait
  have hd : (filledBy r (s.updDie die fun d => { d with walks := d.walks.filter fun x => x.id != id }) key).setThr key
      (walked ((s.updDie die fun d => { d with walks := d.walks.filter fun x => x.id != id }).thr key) w.vpn r) = t := ht
  simp only [walkDone, hfind, hstale, hwaiters, hengs, hr, Bool.false_eq_true, if_false, List.foldl_cons, List.foldl_nil,
    hthread, hd]
  rfl

theorem walkResultsArrive : Clauses.WalkResultsArrive := by
  intro s die id key w hfind hstale hwaiters hengs hmiss hwait
  dsimp only
  generalize hr : walk s w.ctx (w.vpn * 4096) = r
  generalize ht : delivered s die id key w.vpn r = t
  have hdone := walkDone_eq hfind hstale hwaiters hengs hmiss hwait hr ht
  have hfill := filledBy_eq r (s.updDie die fun d => { d with walks := d.walks.filter fun x => x.id != id }) key
  have hmem : t.mem = s.mem := by rw [← ht, delivered, hfill]; rfl
  have hthr : t.thr key = walked (s.thr key) w.vpn r := by
    rw [← ht]
    exact State.thr_setThr_same ..
  have htlb : ∀ e, r = .ok e → e ∈ (t.core (tileOf key)).tlb := by
    rintro e rfl
    rw [← ht]
    exact mem_tlbFill ..
  have hwalks : ∀ x ∈ (t.die die).walks, x.id ≠ id := fun x hx => by
    have hdie : t.die die = { s.die die with walks := (s.die die).walks.filter fun x => x.id != id } := by
      rw [← ht, delivered, hfill]
      exact (State.die_setDie s die die _).trans (if_pos rfl)
    rw [hdie] at hx
    exact bne_iff_ne.1 (List.mem_filter.1 hx).2
  have hstep := happens_of_event (i := .walkComplete die id) (name := "WALK_COMPLETE") (congrArg (event _ s) hdone)
  split at hstep
  · exact ⟨t, hstep, hmem, hthr, htlb, hwalks⟩
  · refine ⟨_, hstep, hmem, ?_, htlb, hwalks⟩
    have hmap := tget_map (fun _ x => walksEnded x) t.threads key Thread.reset rfl
    refine hmap.trans ((congrArg walksEnded hthr).trans (if_neg ?_))
    exact nofun

end Sys2Proof.Machine

open Sys2Proof.Machine

/-- Settles O48, clause by clause: each step is the model's own function for it, of which the clause names the branch. -/
theorem holdsAndWalksAreServed : Obligations.HoldsAndWalksAreServed :=
  ⟨keepersAnswer, locksJoinTheirWordsQueue, theCrownAnswers, expiredHoldsLapse, lapsedPagesAreZeroed,
    walkersTakeThePagesThatWait, walkResultsArrive⟩

end

section
/-! PROOFS. A frame begins (R177, R181, R187, R325): the steps of a boundary that leave every slot table, and the activation
of the tables armed for it. -/

namespace Sys2Proof.Machine

open Sys2Proof.Safety

variable {s t u : State} {p q : Port} {n : Nat}

/-! ## What a boundary leaves -/

/-- `t` differs from `s` at most in what a frame boundary writes, the frame's number apart. -/
def OnlyFrame (s t : State) : Prop :=
  t = { s with ctxs := t.ctxs, ports := t.ports, rounds := t.rounds, freedKeys := t.freedKeys, free := t.free, nextId := t.nextId }

theorem OnlyFrame.trans (h : OnlyFrame s t) (k : OnlyFrame t u) : OnlyFrame s u := by
  unfold OnlyFrame at *
  rw [k, h]

theorem OnlyFrame.leaves (h : OnlyFrame s t) :
    t.frame = s.frame ∧ t.mem = s.mem ∧ t.threads = s.threads ∧ t.cores = s.cores ∧ t.reqs = s.reqs := by
  rw [h]
  exact ⟨rfl, rfl, rfl, rfl, rfl⟩

/-- Two ports have the same slot tables, active and to come. -/
def SameTables (p q : Port) : Prop := q.shadow = p.shadow ∧ q.outTab = p.outTab ∧ q.inTab = p.inTab

theorem SameTables.trans {r : Port} (h : SameTables p q) (k : SameTables q r) : SameTables p r :=
  ⟨k.1.trans h.1, k.2.1.trans h.2.1, k.2.2.trans h.2.2⟩

/-- `t` is `s` but for what a frame boundary writes, and every port has its slot tables. -/
structure KeepsTables (s t : State) : Prop where
  only : OnlyFrame s t
  tables : ∀ i, SameTables (s.port i) (t.port i)

theorem KeepsTables.refl (s : State) : KeepsTables s s := ⟨rfl, fun _ => ⟨rfl, rfl, rfl⟩⟩

theorem KeepsTables.trans (h : KeepsTables s t) (k : KeepsTables t u) : KeepsTables s u :=
  ⟨h.only.trans k.only, fun i => (h.tables i).trans (k.tables i)⟩

theorem keepsTables_with (s : State) (c : List (Nat × Ctx)) (r : List Round) (k : List (Nat × Nat)) (f i : Nat) :
    KeepsTables s { s with ctxs := c, rounds := r, freedKeys := k, free := f, nextId := i } :=
  ⟨rfl, fun _ => ⟨rfl, rfl, rfl⟩⟩

theorem keepsTables_setPort {i : Nat} (h : SameTables (s.port i) q) : KeepsTables s (s.setPort i q) :=
  ⟨rfl, fun j => by
    rw [State.port_setPort]
    split
    · subst_vars; exact h
    · exact ⟨rfl, rfl, rfl⟩⟩

theorem keepsTables_foldl {α : Type} {f : State → α → State} (hf : ∀ s x, KeepsTables s (f s x)) (l : List α) (s : State) :
    KeepsTables s (l.foldl f s) :=
  foldl_keeps (KeepsTables s) (fun b x h => h.trans (hf b x)) l (.refl s)

/-! ## Rounds, rings and keys -/

theorem keepsTables_sendAfter (s : State) (port : Nat) (o : SlotOwner) (k : Packet) (after : Nat) :
    KeepsTables s (sendAfter s port o k after) :=
  ⟨rfl, (keepsTables_setPort (i := port) (q := { s.port port with
    fifo := (s.port port).fifo ++ [⟨o, sealed k, after, 1 + k.len⟩] }) ⟨rfl, rfl, rfl⟩).tables⟩

theorem keepsTables_sendRelay (s : State) (key type member addr : Nat) (payload : List Byte) (after : Nat) :
    KeepsTables s (sendRelay s key type member addr payload after) := by
  unfold sendRelay
  split
  · split
    · exact keepsTables_sendAfter ..
    · exact .refl s
  · exact .refl s

theorem keepsTables_sendPart' (s : State) (key frame : Nat) (d : List Word) (after : Nat) :
    KeepsTables s (sendPart' s key frame d after) := by
  unfold sendPart'
  split
  · exact .refl s
  · split
    · exact keepsTables_sendRelay ..
    · exact .refl s

theorem keepsTables_openRounds (s : State) : KeepsTables s (openRounds s) := by
  unfold openRounds
  refine .trans (keepsTables_with s s.ctxs _ s.freedKeys s.free s.nextId) (keepsTables_foldl (fun t r => ?_) _ _)
  split
  · exact keepsTables_sendPart' ..
  · exact .refl t

theorem sameTables_ringsDrift (s : State) (q : Port) (fibre n : Nat) : SameTables q (ringsDrift s q fibre n) := by
  unfold ringsDrift
  dsimp only
  split <;> exact ⟨rfl, rfl, rfl⟩

theorem sameTables_foldl {α : Type} {f : Port → α → Port} (hf : ∀ q x, SameTables q (f q x)) (l : List α) {q : Port} :
    SameTables q (l.foldl f q) :=
  foldl_keeps (SameTables q) (fun b x h => h.trans (hf b x)) l ⟨rfl, rfl, rfl⟩

theorem keepsTables_spareRings (s : State) : KeepsTables s (spareRings s) := by
  refine keepsTables_foldl (fun t x => ?_) _ _
  dsimp only
  split
  · exact .refl t
  · have hmoved : SameTables (t.port x.1) ((t.port x.1).drift.foldl moveRing { t.port x.1 with drift := [] }) :=
      sameTables_foldl (f := moveRing) (q := { t.port x.1 with drift := [] }) (fun _ _ => ⟨rfl, rfl, rfl⟩) _
    have hmeasured := hmoved.trans (sameTables_foldl (fun q f => sameTables_ringsDrift t q f
      (ringsOut (Config.freeWord (t.free + f)).toNat)) (List.range 8))
    exact (keepsTables_setPort hmeasured).trans (keepsTables_with _ _ _ _ _ _)

theorem keepsTables_freeLapsed (s : State) : KeepsTables s (freeLapsed s) :=
  keepsTables_with s _ s.rounds s.freedKeys s.free s.nextId

theorem keepsTables_watchKeys (s : State) : KeepsTables s (watchKeys s) :=
  keepsTables_with s s.ctxs s.rounds _ _ s.nextId

/-! ## Groups formed -/

theorem onlyFrame_placeGroup (s : State) (ctx handle : Nat) (d : List Word) : OnlyFrame s (placeGroup s ctx handle d) := by
  refine foldl_keeps (OnlyFrame s) (fun t m h => ?_) _ rfl
  split
  · exact h
  · refine h.trans ?_
    dsimp only
    repeat' split
    all_goals rfl

theorem onlyFrame_formGroups (s : State) : OnlyFrame s (formGroups s) := by
  refine foldl_keeps (OnlyFrame s) (fun t x h => ?_) _ rfl
  dsimp only
  split
  · refine h.trans (OnlyFrame.trans ?_ (onlyFrame_placeGroup ..))
    rfl
  · exact h.trans rfl

theorem formGroups_of_no_context (h : s.ctxs = []) : formGroups s = s := by
  simp only [formGroups, h, List.map_nil, List.flatten_nil, List.foldl_nil]

theorem ownerGone_of_no_context (h : s.ctxs = []) (o : SlotOwner) : ownerGone s o = false := by
  cases o with
  | route c k f =>
    have hnone : s.hold c (k % 4096) = none := by simp only [State.hold, State.ctx, h]; rfl
    simp only [ownerGone, hnone]
  | idle | pool | transit => rfl

/-! ## Tables become active (R181) -/

theorem shadow_activate (n : Nat) (p : Port) : (activate n p).shadow = p.shadow.filter fun x => !decide (x.2.1 ≤ n) :=
  foldl_keeps (fun q : Port => q.shadow = p.shadow.filter fun x => !decide (x.2.1 ≤ n))
    (fun q x h => by split <;> exact h) _ rfl

/-- What a port is in the frame that begins. -/
def framePort (s : State) (n : Nat) (p : Port) : Port :=
  { dropOwner (ownerGone s) (activate n p) with frameErrs := if p.frameErrs < 16 then 0 else p.frameErrs }

theorem shadow_framePort {x : Nat × Nat × List (Nat × SlotOwner)} (h : x ∈ (framePort s n p).shadow) : n < x.2.1 := by
  obtain ⟨y, hy, rfl⟩ := List.mem_map.1 (show x ∈ (activate n p).shadow.map _ from h)
  rw [shadow_activate] at hy
  simpa using (List.mem_filter.1 hy).2

theorem outTab_framePort {f : Nat} {tab : List (Nat × SlotOwner)} (h : s.ctxs = []) (hf : f ≤ n) (hp : p.shadow = [(0, f, tab)]) :
    (framePort s n p).outTab = tab ∧ (framePort s n p).inTab = p.inTab := by
  simp [framePort, dropOwner, activate, hp, hf, ownerGone_of_no_context h]

theorem inTab_framePort {f : Nat} {tab : List (Nat × SlotOwner)} (h : s.ctxs = []) (hf : f ≤ n) (hp : p.shadow = [(1, f, tab)]) :
    (framePort s n p).inTab = tab ∧ (framePort s n p).outTab = p.outTab := by
  simp [framePort, dropOwner, activate, hp, hf, ownerGone_of_no_context h]

/-- The boundary up to the activation of the tables: groups formed, the frame begun, each port in it. -/
def frameBegun (s : State) (n : Nat) : State :=
  let u := formGroups { s with frame := n - 1 }
  { u with frame := n, ports := u.ports.map fun p => (p.1, framePort u n p.2) }

theorem port_frameBegun (s : State) (n i : Nat) :
    (frameBegun s n).port i = framePort (formGroups { s with frame := n - 1 }) n ((formGroups { s with frame := n - 1 }).port i) :=
  tget_map (fun _ p => framePort (formGroups { s with frame := n - 1 }) n p) _ i _ rfl

theorem frameStart_eq (hset : s.tbSet = true) (hn : s.frame < s.ptb / 2048) :
    frameStart s = some (watchKeys (openRounds (spareRings (freeLapsed (frameBegun s (s.ptb / 2048)))))) := by
  have hgo : ¬((!s.tbSet) = true ∨ s.ptb / 2048 ≤ s.frame) := by simp [hset, hn]
  simp only [frameStart, if_neg hgo]
  rfl

theorem framesBegin : Clauses.FramesBegin := by
  intro s n hset hn
  have hkeeps : KeepsTables (frameBegun s n) (watchKeys (openRounds (spareRings (freeLapsed (frameBegun s n))))) :=
    (keepsTables_freeLapsed _).trans <| (keepsTables_spareRings _).trans <| (keepsTables_openRounds _).trans <|
      keepsTables_watchKeys _
  refine ⟨_, happens_of_event (congrArg (event "FRAME_BOUNDARY" s) (frameStart_eq hset hn)), ?_⟩
  generalize watchKeys (openRounds (spareRings (freeLapsed (frameBegun s n)))) = t at hkeeps ⊢
  obtain ⟨honly, htables⟩ := hkeeps
  obtain ⟨hframe, hmem, hthr, hcores, hreqs⟩ := honly.leaves
  obtain ⟨-, hmem', hthr', hcores', hreqs'⟩ := (onlyFrame_formGroups { s with frame := n - 1 }).leaves
  refine ⟨hframe, hmem.trans hmem', hthr.trans hthr', hcores.trans hcores', hreqs.trans hreqs', fun i x hx => ?_,
    fun i f tab hctx hf => ?_⟩
  · obtain ⟨hshadow, -, -⟩ := htables i
    rw [hshadow, port_frameBegun] at hx
    exact shadow_framePort hx
  · obtain ⟨-, hout, hin⟩ := htables i
    have hsame : formGroups { s with frame := n - 1 } = { s with frame := n - 1 } := formGroups_of_no_context hctx
    rw [hout, hin, port_frameBegun, hsame]
    exact ⟨outTab_framePort hctx hf, inTab_framePort hctx hf⟩

end Sys2Proof.Machine
end

section
/-! PROOFS. Slot tables armed (R180 to R182, R184), packets that depart (R176 to R180, R184), and ports trained (R177, R182,
R184). -/

namespace Sys2Proof.Machine

open Sys2Proof.Safety

variable {s : State} {port : Nat}

/-! ## Tables armed (R180 to R182) -/

theorem length_eraseDups_of_nodup : ∀ {l : List Nat}, l.Nodup → l.eraseDups.length = l.length
  | [], _ => rfl
  | a :: l, h => by
    have hfilter : l.filter (fun b => !b == a) = l :=
      List.filter_eq_self.2 fun b hb => by simpa using fun e : b = a => (List.nodup_cons.1 h).1 (e ▸ hb)
    rw [List.eraseDups_cons, hfilter, List.length_cons, List.length_cons, length_eraseDups_of_nodup (List.nodup_cons.1 h).2]

theorem tableOk_of {role : Role} {tab : List (Nat × SlotOwner)} (hn : (tab.map (·.1)).Nodup)
    (he : ∀ e ∈ tab, e.1 < 2048 ∧ match e.2 with
      | .pool d => d < 4
      | .route c h f => c ≤ 16 ∧ h < 65536 ∧ f < 32 ∧ (f % 16 ≤ 11 ∨ f % 16 = 15)
      | _ => True)
    (hp : ∀ d, d < 4 → 64 ≤ (tab.filter fun e => e.2 == .pool d).length)
    (ht : role = .peer → 64 ≤ (tab.filter fun e => e.2 == .transit).length) : tableOk role tab = true := by
  simp only [tableOk, Bool.and_eq_true, Bool.or_eq_true, List.all_eq_true, beq_iff_eq, bne_iff_ne, decide_eq_true_eq,
    List.mem_range]
  refine ⟨⟨⟨fun e hm => ?_, ?_⟩, hp⟩, ?_⟩
  · obtain ⟨hlt, hown⟩ := he e hm
    refine ⟨hlt, ?_⟩
    split <;> simp_all
  · rw [length_eraseDups_of_nodup hn, List.length_map]
  · by_cases h : role = .peer
    · exact .inr (ht h)
    · exact .inl h

theorem slotTablesAreArmed : Clauses.SlotTablesAreArmed := by
  intro s port frame dir tab p count num other armed paired hport hrole hframe hnodup hown hpools htransit
  refine happens_of_event (name := "SLOT_TABLE_ARM") (congrArg (event _ s) ?_)
  rw [if_pos ⟨hport, hrole, hframe, tableOk_of hnodup hown hpools htransit⟩]
  refine congrArg (fun q => some (s.setPort port q)) ?_
  by_cases hd : p.role = .drawer
  · rw [if_pos hd, if_pos hd]
    cases dir <;> rfl
  · rw [if_neg hd, if_neg hd]
    cases dir <;> rfl

/-! ## Departures -/

theorem pumpPrefetch_of_none_wanted {die : Nat} (h : (s.die die).pfWant = []) : pumpPrefetch s die = s := by
  simp [pumpPrefetch, h]

theorem answerBeats_le (o : OutPacket) (room : Nat) : answerBeats s o room ≤ 5 := by
  unfold answerBeats replyBeats
  repeat' split
  all_goals omega

theorem fillSlot_whole {o : OutPacket} {owner : SlotOwner} {ans : Nat} (ho : o.owner = owner) (ha : o.after ≤ s.ptb)
    (hans : 32 ≤ ans) (hl : o.left ≤ 32) : fillSlot s owner [o] 32 ans = ([], [o.pkt]) := by
  have hbeats := answerBeats_le (s := s) o 32
  have hgo : ¬(32 = 0 ∨ s.ptb < o.after ∨ ans < answerBeats s o 32) := by omega
  simp only [fillSlot, ho, ne_eq, not_true_eq_false, if_false, if_neg hgo, if_pos hl]

theorem fillSlot_part {o : OutPacket} {owner : SlotOwner} {ans : Nat} (ho : o.owner = owner) (ha : o.after ≤ s.ptb)
    (hans : 32 ≤ ans) (hl : 32 < o.left) : fillSlot s owner [o] 32 ans = ([{ o with left := o.left - 32 }], []) := by
  have hbeats := answerBeats_le (s := s) o 32
  have hgo : ¬(32 = 0 ∨ s.ptb < o.after ∨ ans < answerBeats s o 32) := by omega
  simp only [fillSlot, ho, ne_eq, not_true_eq_false, if_false, if_neg hgo, if_neg (Nat.not_le_of_lt hl)]

/-- The machine with an out-slot served: the FIFO that is left of its port, and the packets in flight. -/
def departed (s : State) (port : Nat) (fifo : List OutPacket) (gone : List Packet) : State :=
  let t := s.setPort port { s.port port with fifo := fifo, slotDone := s.ptb + 1 }
  { t with flights := t.flights.filter (fun f => !(f.pkt.type == 0x0C && decide (f.slot + (t.port f.port).flight < t.ptb))) ++
      (gone.filter (awaitsAnswer s)).map fun k => ⟨port, s.ptb, k⟩ }

theorem depart_eq {x : Nat} {owner : SlotOwner} {fifo : List OutPacket} {gone : List Packet} (hc : carries s port = true)
    (hd : (s.port port).slotDone ≤ s.ptb) (hw : ∀ die, owner = .pool die → (s.die die).pfWant = [])
    (ho : (s.port port).outTab.find? (fun e => e.1 == s.slotNow) = some (x, owner))
    (hf : fillSlot s owner (s.port port).fifo 32 (if (s.port port).role == .drawer then 32 else 4096) = (fifo, gone))
    (hne : fifo ≠ (s.port port).fifo) : depart s port = some (departed s port fifo gone) := by
  have hgo : ¬(!carries s port || decide (s.ptb < (s.port port).slotDone)) = true := by simp [hc, hd]
  unfold depart
  simp only [if_neg hgo, ho, hf, if_neg hne]
  cases owner with
  | pool die => exact congrArg some (pumpPrefetch_of_none_wanted (hw die rfl))
  | idle | route | transit => rfl

theorem mem_flights_departed {fifo : List OutPacket} {gone : List Packet} {f : Flight}
    (h : f ∈ (departed s port fifo gone).flights) : f ∈ s.flights ∨ ∃ k ∈ gone, awaitsAnswer s k = true := by
  rcases List.mem_append.1 h with hold | hnew
  · exact .inl (List.mem_filter.1 hold).1
  · obtain ⟨k, hk, -⟩ := List.mem_map.1 hnew
    exact .inr ⟨k, List.mem_filter.1 hk⟩

theorem packetsDepart : Clauses.PacketsDepart := by
  intro s port x owner o p hc hd hw hown hfifo ho ha
  have hans : 32 ≤ (if p.role == .drawer then 32 else 4096) := by split <;> omega
  have hstep : ∀ {fifo gone}, fillSlot s owner [o] 32 (if p.role == .drawer then 32 else 4096) = (fifo, gone) → fifo ≠ [o] →
      Happens (.outSlotDeparture port) s (departed s port fifo gone) := fun hfill hne =>
    happens_of_event (congrArg (event "OUT_SLOT_DEPARTURE" s)
      (depart_eq hc hd hw hown (by rw [hfifo]; exact hfill) (by rw [hfifo]; exact hne)))
  refine ⟨fun hl => ⟨_, hstep (fillSlot_whole ho ha hans hl) (List.cons_ne_nil _ _).symm, State.port_setPort_same .., rfl,
      fun hwait => ?_, fun hwait f hf => ?_⟩,
    fun hl => ⟨_, hstep (fillSlot_part ho ha hans hl) ?_, State.port_setPort_same .., rfl, fun f hf => ?_⟩⟩
  · simp [departed, hwait]
  · refine (mem_flights_departed hf).resolve_right ?_
    rintro ⟨k, hk, hanswer⟩
    rw [List.mem_singleton.1 hk, hwait] at hanswer
    exact Bool.false_ne_true hanswer
  · intro h
    have hleft := congrArg OutPacket.left (List.cons.inj h).1
    dsimp only at hleft
    omega
  · exact (mem_flights_departed hf).resolve_right fun ⟨_, hk, _⟩ => List.not_mem_nil hk

/-! ## Training (R177, R182, R184) -/

theorem mem_tset_of_ne {α : Type} {t : List (Nat × α)} {e : Nat × α} {k : Nat} (x : α) (h : e ∈ t) (hk : e.1 ≠ k) :
    e ∈ tset t k x := by
  induction t with
  | nil => exact nomatch h
  | cons y r ih =>
    simp only [tset]
    rcases List.mem_cons.1 h with rfl | hr
    · rw [if_neg hk]
      split
      · exact .tail _ (.head _)
      · exact .head _
    · repeat' split
      · exact .tail _ hr
      · exact .tail _ (.tail _ hr)
      · exact .tail _ (ih hr)

theorem mem_foldl_tset {α : Type} {e : Nat × α} (x : α) {l : List Nat} (hl : ∀ i ∈ l, e.1 ≠ i) {t : List (Nat × α)} (h : e ∈ t) :
    e ∈ l.foldl (fun t i => tset t i x) t := by
  induction l generalizing t with
  | nil => exact h
  | cons i r ih => exact ih (fun j hj => hl j (.tail _ hj)) (mem_tset_of_ne x h (hl i (.head _)))

theorem mem_topUp {t : List (Nat × SlotOwner)} {e : Nat × SlotOwner} (o : SlotOwner) (h : e ∈ t) : e ∈ topUp o t := by
  refine mem_foldl_tset o (fun i hi => ?_) h
  have hfree := (List.mem_filter.1 (List.mem_of_mem_take hi)).2
  simp only [Bool.not_eq_true', List.any_eq_false, beq_iff_eq] at hfree
  exact hfree e h

theorem mem_keepPools {t : List (Nat × SlotOwner)} {e : Nat × SlotOwner} (role : Role) (h : e ∈ t) : e ∈ keepPools role t := by
  have hpools : e ∈ (List.range 4).foldl (fun t d => topUp (.pool d) t) t :=
    foldl_keeps (e ∈ ·) (fun _ d hm => mem_topUp (.pool d) hm) _ h
  unfold keepPools
  dsimp only
  split
  · exact mem_topUp _ hpools
  · exact hpools

theorem portsAreTrained : Clauses.PortsAreTrained := by
  intro s port flight delay p hport huntrained hrole
  have hused : p.role ≠ .unused := by rcases hrole with ⟨h, -⟩ | ⟨h, -⟩ <;> rw [h] <;> nofun
  have hdelay : if p.role = .drawer then 400 ≤ delay ∧ delay ≤ 1200 else delay = 0 := by
    rcases hrole with ⟨h, hlo, hhi⟩ | ⟨h, hz⟩
    · rw [if_pos h]; exact ⟨hlo, hhi⟩
    · rw [if_neg (by rw [h]; nofun)]; exact hz
  refine ⟨_, trainedTables { p with trained := true, flight := flight, delay := delay },
    happens_of_event (name := "PORT_TRAINING") (congrArg (event _ s) (if_pos ⟨hport, hused, by simp [p, huntrained], hdelay⟩)),
    rfl, ?_⟩
  unfold trainedTables
  dsimp only
  split
  next hd => exact ⟨rfl, fun e he => mem_keepPools _ he, fun h => absurd (hd.symm.trans h) nofun, fun _ => rfl⟩
  next hd => exact ⟨rfl, fun e he => mem_keepPools _ he, fun _ e he => mem_keepPools _ he, fun h => absurd h hd⟩

end Sys2Proof.Machine
end

section
/-! PROOFS. Ports that stop, go on, or stop the package (R187, R214, R219), and all of ports, frames and slots. -/

namespace Sys2Proof.Machine

open Sys2Proof.Safety

variable {s : State} {port : Nat} {f : Flight} {r : Req} {i : Nat} {q : Part}

/-! ## A packet in flight that fails -/

theorem flightFails_part (htold : toldNumber f.pkt = none) (hpart : sentPart s f.port f.pkt.txid = some (r, i, q)) :
    flightFails s f = failPart (dropFlight s f) r i (stallOf f.port q.va) := by
  have hpart' : sentPart (dropFlight s f) f.port f.pkt.txid = some (r, i, q) := hpart
  simp only [flightFails, htold, Option.isSome_none, Bool.false_eq_true, if_false, hpart']

/-- What the failure of the packet of part `i` leaves of its access. -/
def stalledAt (r : Req) (i port va : Nat) : Req :=
  { partAt r i .failed with fault := some ⟨.stall, port, va, none, false⟩ }

theorem req_flightFails (htold : toldNumber f.pkt = none) (hpart : sentPart s f.port f.pkt.txid = some (r, i, q))
    (hr : s.req r.id = some r) (hgood : ∀ y ∈ r.parts, y.stage ≠ .failed) :
    (flightFails s f).req r.id = some (stalledAt r i f.port q.va) := by
  rw [flightFails_part htold hpart]
  exact req_failPart (s := dropFlight s f) hr (fun _ _ y hy => hgood y (List.mem_of_getElem? hy)) _

theorem flightFails_part_eq (htold : toldNumber f.pkt = none) (hpart : sentPart s f.port f.pkt.txid = some (r, i, q)) :
    flightFails s f = { s with flights := s.flights.erase f, reqs := (flightFails s f).reqs } := by
  rw [flightFails_part htold hpart]
  rfl

/-! ## A stop (R187, R214) -/

/-- The machine with a port stopped, before what was in flight on it has failed. -/
def portStopped (s : State) (port : Nat) : State :=
  let p := s.port port
  s.setPort port { p with
    stalled := some (p.errAt + 1)
    retrain := p.retrain + 1
    fifo := p.fifo.map fun o => { o with left := 1 + o.pkt.len } }

theorem retrain_eq (hused : (s.port port).role ≠ .unused) (htrained : (s.port port).trained = true)
    (hstalled : (s.port port).stalled = none) (herrs : 16 ≤ (s.port port).frameErrs) (hat : (s.port port).errAt < s.ptb) :
    retrain s port = some ((s.flights.filter fun f =>
      f.port == port && !drawerWrite (portStopped s port) f && f.pkt.type != 0x0C).foldl flightFails (portStopped s port)) := by
  have hgo : ¬((s.port port).role == .unused || !(s.port port).trained || (s.port port).stalled.isSome ||
      decide ((s.port port).frameErrs < 16) || decide (s.ptb ≤ (s.port port).errAt)) = true := by
    simp [hused, htrained, hstalled, herrs, hat]
  simp only [retrain, if_neg hgo]
  rfl

theorem drawerWrite_of_peer (h : (s.port f.port).role = .peer) : drawerWrite s f = false := by
  rw [drawerWrite, h]
  rfl

theorem retrainingStarts : Clauses.RetrainingStarts := by
  intro s port p hused htrained hstalled herrs hat
  have hstep : ∀ {t}, _ = t → Happens (.retrainStart port) s t := fun h =>
    happens_of_event (congrArg (event "RETRAIN_START" s) ((retrain_eq hused htrained hstalled herrs hat).trans (congrArg some h)))
  have hport : (portStopped s port).port port = _ := State.port_setPort_same ..
  refine ⟨fun hnone => ⟨portStopped s port, hstep ?_, ?_, ?_, rfl⟩, fun f r i q hfl hf hpeer htype htold hpart hr hgood => ?_⟩
  · rw [List.filter_eq_nil_iff.2 fun f hf => by simp [hnone f hf]]
    rfl
  · rw [hport]
  · rw [hport]
  · subst hf
    have hw : drawerWrite (portStopped s f.port) f = false := drawerWrite_of_peer (by rw [hport]; exact hpeer)
    have hpart' : sentPart (portStopped s f.port) f.port f.pkt.txid = some (r, i, q) := hpart
    have heq := flightFails_part_eq htold hpart'
    refine ⟨flightFails (portStopped s f.port) f, hstep ?_, ?_, ?_, req_flightFails htold hpart' hr hgood, ?_⟩
    · rw [hfl, List.filter_cons_of_pos (by simp [hw, htype])]
      rfl
    · rw [heq]; exact congrArg Port.stalled hport
    · rw [heq]; show s.flights.erase f = []
      rw [hfl, List.erase_cons_head]
    · rw [heq]; rfl

/-! ## A port goes on (R187, R214) -/

/-- The machine with a port that goes on, before the drawer's report is taken. -/
def portResumed (s : State) (port since : Nat) : State :=
  (markLost s port since).setPort port { s.port port with stalled := none, frameErrs := 0 }

/-- The writes in flight to a port's drawer. -/
def writesTo (s : State) (port : Nat) : List Flight := s.flights.filter fun f => f.port == port && drawerWrite s f

theorem resumePort_eq {t0 : Nat} {applied : List Nat} (hstalled : (s.port port).stalled = some t0) (hb : s.ptb % 2048 = 0)
    (hframe : s.ptb / 2048 = s.frame) (hdue : s.ptb ≤ t0 + 20000) (happ : ∀ x ∈ applied, ∃ f ∈ writesTo s port, f.pkt.txid = x) :
    resumePort s port applied = some (resendArrivals
      (((writesTo s port).filter fun f => !applied.contains f.pkt.txid).foldl flightFails
        (((writesTo s port).filter fun f => applied.contains f.pkt.txid).foldl (fun s f => writeDoneAt (dropFlight s f) f)
          (portResumed s port t0))) port t0) := by
  have hall : (applied.any fun x => !(writesTo s port).any fun f => f.pkt.txid == x) = false :=
    List.any_eq_false.2 fun x hx => by
      have hany : ((writesTo s port).any fun f => f.pkt.txid == x) = true := by simpa using happ x hx
      rw [hany]
      exact Bool.false_ne_true
  have hgo : ¬(s.ptb % 2048 ≠ 0 ∨ s.ptb / 2048 ≠ s.frame ∨ t0 + 20000 < s.ptb ∨
      (applied.any fun x => !(writesTo s port).any fun f => f.pkt.txid == x) = true) := by
    rw [hall]
    simp [hb, hframe, hdue]
  simp only [resumePort, hstalled]
  exact if_neg hgo

/-- The one packet in flight, a write to a port's drawer. -/
theorem writesTo_of_write (hfl : s.flights = [f]) (hrole : (s.port f.port).role = .drawer) (htype : f.pkt.type = 0x03) :
    writesTo s f.port = [f] := by
  rw [writesTo, hfl, List.filter_cons_of_pos (by simp [drawerWrite, hrole, htype]), List.filter_nil]

/-- On a port on which no arrival packet was in flight, none is sent again. -/
theorem resendArrivals_of_none {since : Nat} (h : ∀ f ∈ s.flights, f.port = port → f.pkt.type ≠ 0x0C) :
    resendArrivals s port since = s := by
  have hnone : (s.flights.filter fun f => f.port == port && f.pkt.type == 0x0C &&
      decide (since ≤ f.slot + (s.port port).flight)) = [] :=
    List.filter_eq_nil_iff.2 fun f hf => by
      simp only [Bool.and_eq_true, beq_iff_eq, not_and]
      exact fun ⟨hp, ht⟩ => absurd ht (h f hf hp)
  have hkept : s.flights.filter (fun f => !([] : List Flight).contains f) = s.flights := List.filter_eq_self.2 fun _ _ => rfl
  simp only [resendArrivals, hnone, List.foldl_nil, hkept]

/-! ## A write that the drawer applied -/

/-- `t` differs from `s` at most where a part's bytes are written (R212). -/
def OnlyBytes (s t : State) : Prop := t = { s with mem := t.mem, poison := t.poison, launches := t.launches }

theorem OnlyBytes.trans {t u : State} (h : OnlyBytes s t) (k : OnlyBytes t u) : OnlyBytes s u := by
  unfold OnlyBytes at *
  rw [k, h]

theorem onlyBytes_commitShadows (s : State) (lid : Nat) : OnlyBytes s (commitShadows s lid) := by
  refine OnlyBytes.trans (t := (s.launch lid).shadows.foldl _ s) ?_ rfl
  refine foldl_keeps (OnlyBytes s) (fun t x h => h.trans (foldl_keeps (OnlyBytes t) (fun u c k => k.trans ?_) _ ?_)) _ rfl <;> rfl

theorem onlyBytes_writeAt (s : State) (lid pa : Nat) (b : Byte) : OnlyBytes s (writeAt s lid pa b) := by
  unfold writeAt
  dsimp only
  split
  · split
    · rfl
    · split
      · split
        · rfl
        · exact (onlyBytes_commitShadows s lid).trans rfl
      · rfl
  · rfl

theorem onlyBytes_mendWord (s : State) (lid w : Nat) : OnlyBytes s (mendWord s lid w) := by
  unfold mendWord
  split <;> rfl

theorem onlyBytes_writePart (s : State) (lid : Nat) (p : Part) (data : List Byte) : OnlyBytes s (writePart s lid p data) :=
  foldl_keeps (OnlyBytes s) (fun t w h => h.trans (onlyBytes_mendWord t lid w)) _
    (foldl_keeps (OnlyBytes s) (fun t x h => h.trans (onlyBytes_writeAt t lid x.1.1 x.2)) _ rfl)

theorem toldNumber_of_type (h : f.pkt.type ≠ 0x05) : toldNumber f.pkt = none := by
  unfold toldNumber
  split
  · rw [if_neg h]
  · rfl

theorem writeDoneAt_part (htype : f.pkt.type ≠ 0x05) (hpart : sentPart s f.port f.pkt.txid = some (r, i, q))
    (hr : s.req r.id = some r) (hpkg : pkgOf q.pa = s.pkg) (hclean : storePoison s r.lid q = false) :
    (writeDoneAt s f).ports = s.ports ∧ (writeDoneAt s f).flights = s.flights ∧
      (writeDoneAt s f).req r.id = some (partAt r i .done) := by
  have heq : writeDoneAt s f = setStage (writePart s r.lid q (landed s r.lid f.pkt q)) r.id i .done := by
    simp only [writeDoneAt, toldNumber_of_type htype, hpart, ne_eq, hpkg, not_true_eq_false, if_false, hclean,
      Bool.false_eq_true]
  have hbytes := onlyBytes_writePart s r.lid q (landed s r.lid f.pkt q)
  rw [heq]
  generalize writePart s r.lid q (landed s r.lid f.pkt q) = u at hbytes
  have hreqs : u.reqs = s.reqs := by rw [hbytes]
  exact ⟨by rw [hbytes]; rfl, by rw [hbytes]; rfl, req_setStage_same ((congrArg (List.find? _) hreqs).trans hr) i .done⟩

theorem portsResume : Clauses.PortsResume := by
  intro s port t0 p hstalled hb hframe hdue
  have hstep : ∀ {applied t}, (∀ x ∈ applied, ∃ f ∈ writesTo s port, f.pkt.txid = x) → _ = t →
      Happens (.retrainResume port applied) s t := fun happ h =>
    happens_of_event (congrArg (event "RETRAIN_RESUME" s) ((resumePort_eq hstalled hb hframe hdue happ).trans (congrArg some h)))
  have hport : (portResumed s port t0).port port = { p with stalled := none, frameErrs := 0 } := State.port_setPort_same ..
  refine ⟨fun hnone => ⟨portResumed s port t0, hstep (fun _ h => nomatch h) ?_, hport, rfl⟩,
    fun f r i q hfl hf hdrawer htype hpart hr hkind hpkg hclean hgood => ?_⟩
  · have hws : writesTo s port = [] := List.filter_eq_nil_iff.2 fun f hf => by simp [hnone f hf]
    rw [hws]
    exact resendArrivals_of_none (s := portResumed s port t0) fun f hf hp => absurd hp (hnone f hf)
  subst hf
  have hws := writesTo_of_write hfl hdrawer htype
  have hdropped : s.flights.erase f = [] := by rw [hfl, List.erase_cons_head]
  refine ⟨?_, ?_⟩
  · obtain ⟨hports, hflights, hreq⟩ :=
      writeDoneAt_part (s := dropFlight (portResumed s f.port t0) f) (by simp [htype]) hpart hr hpkg hclean
    have hfl' : (writeDoneAt (dropFlight (portResumed s f.port t0) f) f).flights = [] := hflights.trans hdropped
    refine ⟨writeDoneAt (dropFlight (portResumed s f.port t0) f) f, hstep (fun x hx => ?_) ?_,
      (congrArg (tget · f.port Port.reset) hports).trans hport, hfl', hreq⟩
    · exact ⟨f, by rw [hws]; exact .head _, (List.mem_singleton.1 hx).symm⟩
    · simp only [hws, List.contains_cons, BEq.rfl, Bool.true_or, List.filter_cons, Bool.not_true, Bool.false_eq_true,
        if_true, if_false, List.filter_nil, List.foldl_cons, List.foldl_nil]
      exact resendArrivals_of_none fun g hg => by rw [hfl'] at hg; exact nomatch hg
  · have htold : toldNumber f.pkt = none := toldNumber_of_type (by simp [htype])
    have hpart' : sentPart (portResumed s f.port t0) f.port f.pkt.txid = some (r, i, q) := hpart
    have heq := flightFails_part_eq htold hpart'
    have hfl' : (flightFails (portResumed s f.port t0) f).flights = [] := by rw [heq]; exact hdropped
    refine ⟨flightFails (portResumed s f.port t0) f, hstep (fun _ h => nomatch h) ?_, ?_, hfl',
      req_flightFails htold hpart' hr hgood, ?_⟩
    · simp only [hws, List.contains_nil, List.filter_cons, Bool.not_false, Bool.false_eq_true, if_true, if_false,
        List.filter_nil, List.foldl_cons, List.foldl_nil]
      exact resendArrivals_of_none fun g hg => by rw [hfl'] at hg; exact nomatch hg
    · rw [heq]; exact hport
    · rw [heq]; rfl

/-! ## A port that does not (R187, R219) -/

theorem fatalError_leaves (s : State) (cause : Nat) : (fatalError s cause).fatal = some cause ∧
    (fatalError s cause).pfIrqs = s.pfIrqs + 1 ∧ (fatalError s cause).mem = s.mem ∧ (fatalError s cause).threads = s.threads ∧
    (s.dump = none → (fatalError s cause).hostMem = s.hostMem) := by
  unfold fatalError
  dsimp only
  split
  · exact ⟨rfl, rfl, rfl, rfl, fun _ => rfl⟩
  · rename_i d hd
    split <;> exact ⟨rfl, rfl, rfl, rfl, fun h => by simp [hd] at h⟩

theorem stalledPortsStopThePackage : Clauses.StalledPortsStopThePackage := by
  intro s port t0 hstalled hlate
  refine ⟨fatalError s 3, happens_of_event (name := "PORT_RESUME_TIMEOUT") (congrArg (event _ s) ?_), fatalError_leaves s 3⟩
  rw [hstalled]
  exact if_pos hlate

end Sys2Proof.Machine

open Sys2Proof.Machine

/-- Settles O52, clause by clause: each step is the model's own function for it, which leaves what its clause does not name. -/
theorem portsKeepTheirFramesAndSlots : Obligations.PortsKeepTheirFramesAndSlots :=
  ⟨framesBegin, slotTablesAreArmed, packetsDepart, portsAreTrained, retrainingStarts, portsResume,
    stalledPortsStopThePackage⟩

end
